-- ==== Sys2Proof/Word.lean ====
section
/-! DEFINITION. The machine's plain word types: bytes, angle counts, the 64-bit words of the counter and the register window. -/

namespace Sys2Proof

/-- One byte of shared memory or of a link. -/
abbrev Byte := BitVec 8

/-- Angle counts of the mirror or the azimuth encoder: 4,194,304 = 2^22 counts per revolution (00_scope, Conventions). -/
abbrev Angle := BitVec 22

/-- A 64-bit word: the time counter (R23), a register of the window (R180). -/
abbrev Word := BitVec 64

/-- A shared-memory address: 48 bits (00_scope, Conventions). -/
abbrev Addr := BitVec 48

end Sys2Proof
end

