-- ==== Sys2Proof/Syntax.lean ====
section
/-! DEFINITION. The commands of the block: one constructor per row of spec/opcode_table.json, in the table's order. -/

namespace Sys2Proof

/-- The instant at which a command is taken, and what the block's inputs bring with it (log 1): the time counter's reading
(R23), the steps that the mirror encoder has given since the command before (R1), the azimuth encoder's reading (section
1.3), the level of RSTIN (R191, log 46), and, at an answer of the memory, the number under which the transfer that it answers
was issued (R165, R167, log 64); other commands do not look at that number. -/
structure Moment where
  time     : Word
  steps    : Nat
  azimuth  : Angle
  rstin    : Bool
  transfer : Nat
deriving DecidableEq, Repr

/-- The receiver's two channels (R45). -/
inductive Channel where
  | target | reference
deriving DecidableEq, Repr

/-- The four requesters of the Store Port (R161). -/
inductive Requester where
  | chain | descriptor | record | photo
deriving DecidableEq, Repr

/-- A command: an operation or event of the opcode table, with the moment at which it is taken. -/
inductive Instr where
  /-- POWER_ON_RESET (R184). -/
  | powerOnReset (m : Moment)
  /-- RESET (R184). -/
  | reset (m : Moment)
  /-- ABORT (R181). -/
  | abort (m : Moment)
  /-- HALT (R182). -/
  | halt (m : Moment)
  /-- RESUME (R182). -/
  | resume (m : Moment)
  /-- CUT (R100). -/
  | cut (m : Moment)
  /-- CHAIN_START (R180): the 8 bytes written. -/
  | chainStart (m : Moment) (value : Word)
  /-- LOOK (R177). -/
  | look (m : Moment)
  /-- NOTICE (R187): a read of `count` bytes from byte `first` of NOTICE. -/
  | notice (m : Moment) (first count : Nat)
  /-- NOTICE_MASK (R188): the 8 bytes written. -/
  | noticeMask (m : Moment) (value : Word)
  /-- REGISTER_WRITE (R180): `count` bytes written at window offset `offset`, the value in the low bytes. -/
  | registerWrite (m : Moment) (offset count : Nat) (value : Word)
  /-- MIRROR_INDEX_MARK (R2). -/
  | mirrorIndexMark (m : Moment)
  /-- RATE_WATCH_EXPIRY (R2). -/
  | rateWatchExpiry (m : Moment)
  /-- INDEX_WATCHDOG_EXPIRY (R4). -/
  | indexWatchdogExpiry (m : Moment)
  /-- SPIN_UP_LIMIT_EXPIRY (R5). -/
  | spinUpLimitExpiry (m : Moment)
  /-- SPIN (R9). -/
  | spin (m : Moment)
  /-- PARK (R11). -/
  | park (m : Moment)
  /-- TURN (R19). -/
  | turn (m : Moment)
  /-- HOLD_BAND_ENTRY (R13). -/
  | holdBandEntry (m : Moment)
  /-- HOLD_BAND_EXIT (R14). -/
  | holdBandExit (m : Moment)
  /-- SETTLE_TIMER_EXPIRY (R13). -/
  | settleTimerExpiry (m : Moment)
  /-- SLEW_LIMIT_EXPIRY (R13). -/
  | slewLimitExpiry (m : Moment)
  /-- TURNTABLE_AT_REST (R18). -/
  | turntableAtRest (m : Moment)
  /-- EMIT_PERMIT_DEASSERTED (R20). -/
  | emitPermitDeasserted (m : Moment)
  /-- EMIT_PERMIT_ASSERTED (R20). -/
  | emitPermitAsserted (m : Moment)
  /-- EMIT_PERMIT_COUNT_EXPIRY (R20). -/
  | emitPermitCountExpiry (m : Moment)
  /-- SECTOR_ENTRY (R21). -/
  | sectorEntry (m : Moment)
  /-- SECTOR_EXIT (R21). -/
  | sectorExit (m : Moment)
  /-- FIRE_TIME (R31). -/
  | fireTime (m : Moment)
  /-- ECHO_EVENT (R46): the fields of R45. -/
  | echoEvent (m : Moment) (channel : Channel) (stamp : Word) (amplitude width : BitVec 16) (saturated : Bool)
  /-- SHOT_EXPIRY (R42): the number of the shot whose expiry comes. -/
  | shotExpiry (m : Moment) (shot : Nat)
  /-- MARK (R87). -/
  | mark (m : Moment)
  /-- SETUP (R178). -/
  | setup (m : Moment)
  /-- PROFILE (R152). -/
  | profile (m : Moment)
  /-- PROFILE_READ_COMPLETE (R153): the bytes read. -/
  | profileReadComplete (m : Moment) (data : List Byte)
  /-- REPORT (R157). -/
  | report (m : Moment)
  /-- REPORT_WRITE_COMPLETE (R159). -/
  | reportWriteComplete (m : Moment)
  /-- SCAN (R109). -/
  | scan (m : Moment)
  /-- RUN_IN_DELAY_EXPIRY (R114). -/
  | runInDelayExpiry (m : Moment)
  /-- RUN_IN_COMPLETE (R115). -/
  | runInComplete (m : Moment)
  /-- DESCRIPTOR_READ_COMPLETE (R90): the bytes read. -/
  | descriptorReadComplete (m : Moment) (data : List Byte)
  /-- TAKE_FIELD_WRITE_COMPLETE (R91). -/
  | takeFieldWriteComplete (m : Moment)
  /-- TAKE_STATE_WRITE_COMPLETE (R91). -/
  | takeStateWriteComplete (m : Moment)
  /-- RECORD_WRITE_COMPLETE (R95). -/
  | recordWriteComplete (m : Moment)
  /-- SEAL_FIELD_WRITE_COMPLETE (R98). -/
  | sealFieldWriteComplete (m : Moment)
  /-- SEAL_STATE_WRITE_COMPLETE (R98). -/
  | sealStateWriteComplete (m : Moment)
  /-- POLL_TICK (R172). -/
  | pollTick (m : Moment)
  /-- EXAMINATION_READ_COMPLETE (R173): the bytes of one of the two block reads. -/
  | examinationReadComplete (m : Moment) (data : List Byte)
  /-- TAKEN_WRITE_COMPLETE (R174). -/
  | takenWriteComplete (m : Moment)
  /-- BLOCK_WRITE_COMPLETE (R174). -/
  | blockWriteComplete (m : Moment)
  /-- RESULT_CODE_WRITE_COMPLETE (R175). -/
  | resultCodeWriteComplete (m : Moment)
  /-- RESULT_STATE_WRITE_COMPLETE (R175). -/
  | resultStateWriteComplete (m : Moment)
  /-- LINK_READ_COMPLETE (R176): the bytes of the unit that holds the link. -/
  | linkReadComplete (m : Moment) (data : List Byte)
  /-- GRANT (R164). -/
  | grant (m : Moment)
  /-- TRANSFER_ERROR (R167): the requester, and the number of its transfer that the memory answers (log 64). -/
  | transferError (m : Moment) (requester : Requester) (id : Nat)
  /-- TRANSFER_TIMEOUT (R167): the requester, and the number of its transfer that has run out of time. -/
  | transferTimeout (m : Moment) (requester : Requester) (id : Nat)
  /-- PHOTO (R139). -/
  | photo (m : Moment)
  /-- MID_EXPOSURE_TIMER_EXPIRY (R134). -/
  | midExposureTimerExpiry (m : Moment)
  /-- EXPOSURE_TIMER_EXPIRY (R134). -/
  | exposureTimerExpiry (m : Moment)
  /-- ROW (R135): the row's pixels. -/
  | row (m : Moment) (data : List Byte)
  /-- ROW_TIMEOUT (R136). -/
  | rowTimeout (m : Moment)
  /-- ROW_WRITE_COMPLETE (R135). -/
  | rowWriteComplete (m : Moment)
  /-- HEADER_WRITE_COMPLETE (R138). -/
  | headerWriteComplete (m : Moment)
  /-- PRESENCE_ASSERTED (R131). -/
  | presenceAsserted (m : Moment)
  /-- PRESENCE_DEASSERTED (R131). -/
  | presenceDeasserted (m : Moment)
  /-- PRESENCE_TIMER_EXPIRY (R131). -/
  | presenceTimerExpiry (m : Moment)
  /-- ERROR_ASSERTED (R132). -/
  | errorAsserted (m : Moment)
  /-- ERROR_DEASSERTED (R132). -/
  | errorDeasserted (m : Moment)
  /-- CHECK_TIMER_EXPIRY (R132). -/
  | checkTimerExpiry (m : Moment)
  /-- PULSE_END (R190). -/
  | pulseEnd (m : Moment)
  /-- HELD_ANSWER (R165): as TRANSFER_ERROR, and the data of a read. -/
  | heldAnswer (m : Moment) (requester : Requester) (id : Nat) (data : List Byte)
deriving DecidableEq, Repr

/-- The moment a command carries. -/
def Instr.moment : Instr → Moment
  | .powerOnReset m => m
  | .reset m => m
  | .abort m => m
  | .halt m => m
  | .resume m => m
  | .cut m => m
  | .chainStart m _ => m
  | .look m => m
  | .notice m _ _ => m
  | .noticeMask m _ => m
  | .registerWrite m _ _ _ => m
  | .mirrorIndexMark m => m
  | .rateWatchExpiry m => m
  | .indexWatchdogExpiry m => m
  | .spinUpLimitExpiry m => m
  | .spin m => m
  | .park m => m
  | .turn m => m
  | .holdBandEntry m => m
  | .holdBandExit m => m
  | .settleTimerExpiry m => m
  | .slewLimitExpiry m => m
  | .turntableAtRest m => m
  | .emitPermitDeasserted m => m
  | .emitPermitAsserted m => m
  | .emitPermitCountExpiry m => m
  | .sectorEntry m => m
  | .sectorExit m => m
  | .fireTime m => m
  | .echoEvent m _ _ _ _ _ => m
  | .shotExpiry m _ => m
  | .mark m => m
  | .setup m => m
  | .profile m => m
  | .profileReadComplete m _ => m
  | .report m => m
  | .reportWriteComplete m => m
  | .scan m => m
  | .runInDelayExpiry m => m
  | .runInComplete m => m
  | .descriptorReadComplete m _ => m
  | .takeFieldWriteComplete m => m
  | .takeStateWriteComplete m => m
  | .recordWriteComplete m => m
  | .sealFieldWriteComplete m => m
  | .sealStateWriteComplete m => m
  | .pollTick m => m
  | .examinationReadComplete m _ => m
  | .takenWriteComplete m => m
  | .blockWriteComplete m => m
  | .resultCodeWriteComplete m => m
  | .resultStateWriteComplete m => m
  | .linkReadComplete m _ => m
  | .grant m => m
  | .transferError m _ _ => m
  | .transferTimeout m _ _ => m
  | .photo m => m
  | .midExposureTimerExpiry m => m
  | .exposureTimerExpiry m => m
  | .row m _ => m
  | .rowTimeout m => m
  | .rowWriteComplete m => m
  | .headerWriteComplete m => m
  | .presenceAsserted m => m
  | .presenceDeasserted m => m
  | .presenceTimerExpiry m => m
  | .errorAsserted m => m
  | .errorDeasserted m => m
  | .checkTimerExpiry m => m
  | .pulseEnd m => m
  | .heldAnswer m _ _ _ => m

end Sys2Proof
end

