-- ==== Sys2Proof/Decode.lean ====
section
/-! DEFINITION. Words that spell a command: no row of spec/opcode_table.json gives bits, so none does. -/

namespace Sys2Proof

/-- The command a word spells. The table gives no row any bits ("fields": [] throughout), so every word is refused
(log 11). -/
def decodeTableWord (_nbits _w : Nat) : Option Instr := none

end Sys2Proof
end

