-- ==== Sys2Proof/Config.lean ====
section
/-! DEFINITION. The free values: what the spec leaves open. None has a body, so no proof can see one. -/

namespace Sys2Proof

/-- The counter's reading one fine unit after its top value 2^64 − 1: R23 gives the counter's range and nothing beyond
it (log 2). -/
opaque Config.counterAfterTop : Word

/-- Whether a measured rate halfway between two whole hundredths goes up, per revolution interval: R2 says "rounded to
nearest" only (log 12). -/
opaque Config.rateTieUp : Nat → Bool

/-- Whether a run-in delay halfway between two fine units goes up, per lead, step and target rate: R114 says "rounded to
the nearest fine unit" only (log 13). -/
opaque Config.delayTieUp : Nat → Nat → Nat → Bool

/-- Whether an azimuth error of exactly half a revolution counts as negative: R16 measures it "the shorter way round",
and here both ways are equal (log 14). -/
opaque Config.antipodeNegative : Bool

/-- The detail of a result for which the spec states none, one fresh value per use (log 15). -/
opaque Config.unstatedDetail : Nat → BitVec 32

/-- The azimuth at mid-exposure of a photograph that ended before its mid-exposure, one fresh value per use (log 16). -/
opaque Config.unsampledAzimuth : Nat → BitVec 32

/-- The start address of a transfer that would lie past the 48-bit address space (log 17). -/
opaque Config.addressPast : Nat → Addr

end Sys2Proof
end

