-- ==== Sys2Proof/Machine/State.lean ====
section
/-! DEFINITION. The state of the block, as plain data: every register, queue, buffer, counter, timer and pin that the
spec gives it, by the sub-block that owns it, and the queue of waiting commands. Times are readings of the 64-bit counter
in fine units; a timer is held by its end ("none": stopped), the index watchdog by its start (log 18). -/

namespace Sys2Proof.Machine

/-! ## Sweep Control (file 01) -/

/-- Mirror states (section 1.1). -/
inductive MirrorState where
  | parked | spinningUp | locked | unlocked | spinningDown | fault
deriving DecidableEq, Repr

/-- Mirror machine (section 1.1, R1 to R8). -/
structure Mirror where
  state        : MirrorState
  target       : Nat             -- 0.01 rev/s
  rate         : Nat             -- 0.01 rev/s
  lastIndex    : Option Nat
  lockCount    : Nat
  spinUpEnd    : Option Nat
  watchdogFrom : Option Nat
  rateWatchEnd : Nat
deriving DecidableEq, Repr

/-- Turntable states (section 1.3). -/
inductive TurntableState where
  | stopped | slewing | settling | held | tracking | decelerating | fault
deriving DecidableEq, Repr

/-- Turntable machine (section 1.3, R12 to R18). `requester` is the job whose move or track request is in force, and
`answered` says that its move has been answered as arrived (R14, R17). -/
structure Turntable where
  state      : TurntableState
  target     : Option Angle
  settleMs   : Nat
  trackRate  : Nat               -- hundredths of a count per second
  slewEnd    : Option Nat
  settleEnd  : Option Nat
  errorCount : Nat
  requester  : Option Nat
  answered   : Bool
deriving DecidableEq, Repr

/-- The rest watch (R18): the azimuth has changed by no more than 16 counts from `azimuth` since `since` (log 59). -/
structure RestWatch where
  since   : Nat
  azimuth : Angle
deriving DecidableEq, Repr

/-- The Emission Permit input and its indication (R20). -/
structure Emission where
  input    : Bool
  asserted : Bool
  countEnd : Option Nat
deriving DecidableEq, Repr

/-- The active sector handed over by the scan, and whether the mirror angle is in it (R21). -/
structure Sector where
  bounds : Option (Angle × Angle)
  inside : Bool
deriving DecidableEq, Repr

/-! ## Shot Scheduler (file 02) -/

/-- Kind of a shot, and the path it is fired through (R32). -/
inductive ShotKind where
  | target | reference
deriving DecidableEq, Repr

/-- Line firing states (R24, R27). -/
inductive Firing where
  | noLine | waiting | firing | ended
deriving DecidableEq, Repr

/-- Causes of the end of a line's firing (R37). -/
inductive EndCause where
  | sectorExit | permit | stop
deriving DecidableEq, Repr

/-- Shot Scheduler state (R24); `shotWaits` is the shot of R34 whose fire time has come while the list is full. -/
structure Scheduler where
  nextShot    : Nat
  lastFire    : Option Nat
  jitterIndex : Nat
  scheduled   : Option Nat
  shotWaits   : Bool
  firing      : Firing
  lineShots   : Nat
  lineTargets : Nat
  lineFirst   : Option Nat
  lineLast    : Option Nat
  permit      : Bool
  path        : ShotKind
deriving DecidableEq, Repr

/-! ## Return Matcher (file 03) -/

/-- One echo of an echo list (R43). -/
structure Echo where
  stamp     : Nat
  amplitude : Nat
  width     : Nat
  saturated : Bool
  uncertain : Bool
deriving DecidableEq, Repr

/-- One entry of the open shot list (R33, R40). -/
structure OpenShot where
  number     : Nat
  kind       : ShotKind
  fire       : Nat
  expiry     : Nat
  angle      : Angle
  azimuth    : Angle
  line       : Nat
  echoes     : List Echo
  overflow   : Bool
  zoneSwitch : Bool
  attachZone : Option Nat
deriving DecidableEq, Repr

/-- The zone tracker (R53). -/
structure Tracker where
  zone      : Nat
  candidate : Option Nat
  agree     : Nat
  lastRange : Option Nat
deriving DecidableEq, Repr

/-- The last time stamp taken, the open line's counts, the pending strays and the job's stray total (R46, R49, R62). -/
structure Intake where
  lastStamp     : Nat
  attached      : Nat
  dropped       : Nat
  blanked       : Nat
  strays        : Nat
  straysBefore  : Nat
  pendingStrays : Nat
  jobStrays     : Nat
deriving DecidableEq, Repr

/-! ## Record Builder (file 04) -/

/-- The seven detail flags (R71). -/
structure DetailFlags where
  refMissed    : Bool
  gapEcho      : Bool
  azError      : Bool
  echoOverflow : Bool
  zoneSwitch   : Bool
  uncertain    : Bool
  loss         : Bool
deriving DecidableEq, Repr

/-- The line marks (R66, R69). -/
structure LineMarks where
  aborted     : Bool
  mirrorLost  : Bool
  emissionOff : Bool
  turntable   : Bool
deriving DecidableEq, Repr

/-- Line summaries (R72), from the least to the most severe. -/
inductive Summary where
  | ok | flawed | loss | turntable | emissionOff | mirrorLost | aborted
deriving DecidableEq, Repr

/-- Line phases (section 4.2). -/
inductive LinePhase where
  | none | assembling | draining
deriving DecidableEq, Repr

/-- The end-of-firing report (R37, R70). -/
structure EndReport where
  line    : Nat
  shots   : Nat
  targets : Nat
  first   : Option Nat
  last    : Option Nat
  cause   : EndCause
deriving DecidableEq, Repr

/-- Line assembly state (R66). -/
structure LineState where
  phase      : LinePhase
  started    : Nat
  number     : Option Nat
  lost       : Bool
  truncated  : Bool
  marks      : LineMarks
  flags      : DetailFlags
  stored     : Nat
  shotsLost  : Nat
  refMisses  : Nat
  report     : Option EndReport
  stopTaken  : Bool
  missRun    : Nat               -- consecutive reference misses
deriving DecidableEq, Repr

/-- The values of a LINE HEADER (R68). -/
structure HeaderRec where
  line      : Nat
  tag       : Nat
  azimuth   : Nat
  rate      : Nat
  zone      : Nat
  firstShot : Nat
  lineTime  : Nat
deriving DecidableEq, Repr

/-- One echo entry of a SHOT record (R77). -/
structure EchoEntry where
  range     : Nat
  amplitude : Nat
  width     : Nat
  saturated : Bool
  uncertain : Bool
deriving DecidableEq, Repr

/-- The values of a SHOT record (R77). -/
structure ShotRec where
  number     : Nat
  zone       : Option Nat
  angle      : Nat
  azimuth    : Nat
  line       : Nat
  overflow   : Bool
  zoneSwitch : Bool
  echoes     : List EchoEntry
deriving DecidableEq, Repr

/-- The values of a LINE TRAILER (R73). -/
structure TrailerRec where
  line         : Nat
  shots        : Nat
  targets      : Nat
  stored       : Nat
  shotsLost    : Nat
  attached     : Nat
  dropped      : Nat
  blanked      : Nat
  strays       : Nat
  straysBefore : Nat
  refMisses    : Nat
  zone         : Nat
  summary      : Summary
  flags        : DetailFlags
deriving DecidableEq, Repr

/-- The pending loss counts, and what a GAP record carries (R83, R84): first lost line with its job's tag. -/
structure Loss where
  first  : Option (Nat × Nat)
  lines  : Nat
  shots  : Nat
  others : Nat
deriving DecidableEq, Repr

/-- Camera modes (R130). -/
inductive PhotoMode where
  | full | binned
deriving DecidableEq, Repr

/-- Station statuses (section 7.5). -/
inductive StationStatus where
  | notReached | done | truncated | missed | fault
deriving DecidableEq, Repr

/-- The values of a PHOTO record (R138). -/
structure PhotoRec where
  tag        : Nat
  station    : Nat
  status     : StationStatus
  mode       : PhotoMode
  buffer     : Nat
  rowsStored : Nat
  lineTime   : Nat
  azimuth    : Nat
  shot       : Option Nat
  line       : Option Nat
deriving DecidableEq, Repr

/-- A stream record (R79, R198). -/
inductive Rec where
  | header (h : HeaderRec)
  | shot (r : ShotRec)
  | trailer (t : TrailerRec)
  | gap (l : Loss)
  | photo (p : PhotoRec)
  | mark (tag lineTime : Nat)
deriving DecidableEq, Repr

/-- A record in the staging queue: its order number, the job that offered it (R79), and whether its write has been issued
(R90: a record waits while it has not). -/
structure Entry where
  seq    : Nat
  job    : Nat
  record : Rec
  issued : Bool
deriving DecidableEq, Repr

/-- The staging queue in the order of admission, oldest first (section 4.5), and the next order number. -/
structure Staging where
  entries : List Entry
  nextSeq : Nat
deriving DecidableEq, Repr

/-! ## Page Manager (file 05) -/

/-- Seal reasons (R88). -/
inductive SealReason where
  | full | highWater | cut | jobEnd | abort
deriving DecidableEq, Repr

/-- How far the current page's descriptor writes have got: its two take writes (R91), open for records (R95), its two
seal writes (R98), or abandoned (R104). -/
inductive PageStage where
  | takeField | takeState | ready | sealField | sealState | abandoned
deriving DecidableEq, Repr

/-- The current page record (R89). `contIssued` says that a continuation header has been issued into it and has not
completed yet (R97). -/
structure Page where
  index       : Nat
  autoSeal    : Bool
  notify      : Bool
  highWater   : Nat
  base        : Nat
  size        : Nat
  sequence    : Nat
  fill        : Nat
  issue       : Nat
  firstLine   : Option Nat
  firstShot   : Option Nat
  holdsHeader : Bool
  contIssued  : Bool
  sealing     : Option SealReason
  stage       : PageStage
deriving DecidableEq, Repr

/-- A job-end mark: it covers every record with an order number below `bound`; `begun` says that it has been reached and
its page's seal is under way (R101). -/
structure EndMark where
  bound  : Nat
  reason : SealReason
  begun  : Bool
deriving DecidableEq, Repr

/-- Page Manager state (R89). A line is known by its job and number (log 29). -/
structure Pages where
  table       : Option (Nat × Nat)           -- address, count
  nextExamine : Nat
  sequence    : Nat
  current     : Option Page
  pass        : Option Nat                   -- descriptors read so far
  lookAgain   : Bool
  wait        : Bool
  fault       : Bool
  bad         : Bool
  line        : Option (Nat × HeaderRec)     -- line in progress: job, header values
  discarding  : Option (Nat × Nat)           -- job, line number
  mark        : Option EndMark
  drain       : Option Nat                   -- drain point: the order number below which it covers
deriving DecidableEq, Repr

/-! ## Jobs (files 01, 04, 06, 07, 08, 10) -/

/-- Job kinds (R171). -/
inductive JobKind where
  | setup | spin | park | turn | profile | report | scan | photo | mark
deriving DecidableEq, Repr

/-- Result codes (R193); `none` is the code 0 of DONE. -/
inductive ResultCode where
  | none | badParam | noProfile | emissionOff | notSpinning | spinFail | turntableFault | mirrorLost
  | referenceLost | memoryFault | aborted | pageOpen | badKind | cameraFault | noCamera
deriving DecidableEq, Repr

/-- What a job hands back: its result code, its detail, and its job-end write-back fields as offsets in the block with
their bytes (R175). -/
structure JobResult where
  code   : ResultCode
  detail : Nat
  fields : List (Nat × List Byte)
deriving DecidableEq, Repr

/-- A station entry (R108, R195). -/
structure Station where
  buffer   : Nat
  size     : Nat
  azimuth  : Nat
  exposure : Nat
  mode     : Nat
deriving DecidableEq, Repr

/-- SCAN parameters (R108). -/
structure ScanParams where
  slot        : Nat
  echoLimit   : Nat
  startZone   : Nat
  keepEmpties : Bool
  stations    : List Station
  count       : Nat              -- station count as the block gives it
  startAz     : Nat
  step        : Nat
  lines       : Nat
  sectorStart : Nat
  sectorStop  : Nat
deriving DecidableEq, Repr

/-- SCAN phases (R111). -/
inductive ScanPhase where
  | hold | position | runIn | scanning | ending
deriving DecidableEq, Repr

/-- Reasons of a stop request (R69, R120). -/
inductive StopReason where
  | abort | referenceLost | memoryFault | mirror | emission
deriving DecidableEq, Repr

/-- What RUN-IN waits for: its first index, the end of the run-in delay, or the entry distance (R114, R115). -/
inductive RunInStage where
  | index | delay (till : Nat) | travel
deriving DecidableEq, Repr

/-- What a scan's end waits for (R111). -/
inductive EndWait where
  | none | mark | drain
deriving DecidableEq, Repr

/-- A running SCAN job (R111). `discardDue` is the discard that an ABORT in the photo wait asks for (R124). -/
structure ScanJob where
  params         : ScanParams
  phase          : ScanPhase
  cause          : Option ResultCode
  stop           : Option StopReason
  abortTaken     : Bool
  discardDue     : Bool
  linesCompleted : Nat
  lastClosed     : Option Nat
  linesStored    : Nat
  lastStored     : Option Nat
  flags          : DetailFlags
  zone           : Nat
  shotsLost      : Nat
  shotsStored    : Nat
  echoesStored   : Nat
  runInPoint     : Angle
  indexCount     : Nat
  runInDelay     : Nat
  entryDistance  : Nat
  runInStage     : RunInStage
  endWait        : EndWait
deriving DecidableEq, Repr

/-- A running PHOTO job (R139 to R143): the station in hand, the stations ended, whether it waits for its seal, and whether
its failure cause came in that wait, after its last station had ended (log 34). -/
structure PhotoJob where
  slot       : Nat
  index      : Nat
  done       : Nat
  cause      : Option ResultCode
  abortTaken : Bool
  sealWait   : Bool
  lateCause  : Bool
deriving DecidableEq, Repr

/-- The running job (R172). `sealWait` is a job that has reached its outcome and waits on its job-end mark (R87, R160,
R179). -/
inductive Job where
  | spinWait
  | turnWait
  | profileRead (slot source : Nat)
  | reportWrite
  | markWait
  | sealWait (kind : JobKind) (result : JobResult)
  | scan (j : ScanJob)
  | photo (p : PhotoJob)
deriving DecidableEq, Repr

/-! ## Photo Unit (file 07) -/

/-- Presence states (R131). -/
inductive Presence where
  | wait | absent | check | present
deriving DecidableEq, Repr

/-- Presence machine with the camera's two levels (R130 to R132). `checkAfterWait`: the self-check was begun after the
presence wait had ended; `checkDue`: CHECK is entered when the photograph in hand has ended. -/
structure Camera where
  presence       : Presence
  presenceEnd    : Option Nat
  checkEnd       : Option Nat
  checkAfterWait : Bool
  checkDue       : Bool
  presentIn      : Bool
  errorIn        : Bool
deriving DecidableEq, Repr

/-- Photo machine states (R133). -/
inductive PhotoState where
  | absent | idle | armed | exposing | readout
deriving DecidableEq, Repr

/-- End causes of a photograph (R133). -/
inductive PhotoEnd where
  | overrun | shortBuffer | abort | camera | memory
deriving DecidableEq, Repr

/-- The current photo record (R133) with its timers (R134, R136). `headerIssued`: the header write has been asked for. -/
structure Photograph where
  tag          : Nat
  station      : Nat
  isInline     : Bool
  buffer       : Nat
  size         : Nat
  mode         : PhotoMode
  exposure     : Nat
  rowsFit      : Nat
  rowsTaken    : Nat
  rowsStored   : Nat
  accepting    : Bool
  trigger      : Nat
  midAzimuth   : Option Angle
  midShot      : Option Nat
  line         : Option Nat
  endCause     : Option PhotoEnd
  midEnd       : Option Nat
  exposureEnd  : Option Nat
  rowEnd       : Option Nat
  headerIssued : Bool
deriving DecidableEq, Repr

/-- A row of the row buffer (R133). -/
structure BufferedRow where
  index : Nat
  data  : List Byte
deriving DecidableEq, Repr

/-- A station with its status (section 7.5). -/
structure StationSlot where
  station : Station
  status  : StationStatus
deriving DecidableEq, Repr

/-- What a SCAN hands over beside its stations (R144): start azimuth, line step, camera azimuth offset. -/
structure InlineBase where
  startAz : Nat
  step    : Nat
  offset  : Nat
deriving DecidableEq, Repr

/-- Photo machine, photograph in hand, row buffer and station list (R133, R144). -/
structure Photo where
  state      : PhotoState
  current    : Option Photograph
  rows       : List BufferedRow
  stations   : List StationSlot
  inlineBase : Option InlineBase
deriving DecidableEq, Repr

/-! ## Profile Store (file 08) -/

/-- The fields of a profile (R148), times in fine units. -/
structure Profile where
  base         : Nat
  window       : Nat
  blanking     : Nat
  refInterval  : Nat
  refConstant  : Nat
  zeroOffset   : Int
  factor       : Nat
  gate         : Nat
  switchCount  : Nat
  blindStart   : Nat
  blindStop    : Nat
  settleMs     : Nat
  cameraOffset : Nat
  jitter       : List Nat
  correction   : List Int
deriving DecidableEq, Repr

/-- A loaded slot (R147, R154): profile, in-flight bound, running zero offset. -/
structure Slot where
  profile : Profile
  bound   : Nat
  offset  : Int
deriving DecidableEq, Repr

/-- The four slots, none where invalid, and the PROFILE job's load buffer (R147, R152). -/
structure Slots where
  slot0  : Option Slot
  slot1  : Option Slot
  slot2  : Option Slot
  slot3  : Option Slot
  buffer : List Byte
deriving DecidableEq, Repr

/-- The device counters (R156). -/
structure Counters where
  shots   : Nat
  echoes  : Nat
  strays  : Nat
  outside : Nat
deriving DecidableEq, Repr

/-! ## Store Port (file 09) -/

/-- What a transfer is for (R161, R162). -/
inductive Purpose where
  | examination (half : Nat) | takenWrite | blockWrite | resultCode | resultState | link
  | profileRead | reportWrite
  | descriptorRead | takeField | takeState | sealField | sealState
  | record | continuation
  | row (lastOfRow : Bool) | photoHeader
deriving DecidableEq, Repr

/-- A transfer (R161): requester, kind, start address, length, and for a write its data and byte mask. `live` is cleared
when its requester has come to ignore its outcome (R102, R104, R137, R155, R159, R182, R183). -/
structure Transfer where
  requester : Requester
  purpose   : Purpose
  write     : Bool
  addr      : Addr
  len       : Nat
  data      : List Byte
  mask      : List Bool
  live      : Bool
deriving DecidableEq, Repr

/-- What the port knows of an outstanding transfer: no answer yet, a normal answer held behind an earlier transfer, or a
fault taken and not yet reported (R165, R167, R168). -/
inductive Answer where
  | awaited | held (data : List Byte) | faulted
deriving DecidableEq, Repr

/-- An outstanding transfer: the number it was issued under (log 64), and the end of its 50 µs timeout, none once stopped
(R167). -/
structure Outstanding where
  id       : Nat
  transfer : Transfer
  timeout  : Option Nat
  answer   : Answer
deriving DecidableEq, Repr

/-- The data requester served last (R163). -/
inductive DataPath where
  | record | photo
deriving DecidableEq, Repr

/-- The FAULT register (R168). -/
structure FaultReg where
  requester : Option Requester
  write     : Bool
  timeout   : Bool
  addr      : Addr
deriving DecidableEq, Repr

/-- Store Port state (R161, R163, R165): waiting transfers, outstanding ones per requester in issue order, and the number
of the next transfer to be issued (log 64). The issue slot stands in State. -/
structure Port where
  control    : List Transfer
  recordWait : List Transfer
  photoWait  : List Transfer
  chainOut   : List Outstanding
  descOut    : List Outstanding
  recordOut  : List Outstanding
  photoOut   : List Outstanding
  lastData   : DataPath
  nextId     : Nat
  fault      : FaultReg
deriving DecidableEq, Repr

/-! ## Chain Reader (file 10) -/

/-- Reader states (R172). -/
inductive ReaderState where
  | unset | waitReady | running | waitLink | halted
deriving DecidableEq, Repr

/-- Halt causes (R172). -/
inductive HaltCause where
  | staleBlock | halt | writeBackLost
deriving DecidableEq, Repr

/-- What the reader has under way (R173 to R176). -/
inductive Activity where
  | idle
  | examining (first : Option (List Byte))   -- the first half once it has been read
  | taking                                   -- TAKEN write
  | job                                      -- a job dispatched and not yet ended
  | result                                   -- result being written
  | link                                     -- link read
deriving DecidableEq, Repr

/-- A write to the taken block: offset in the block, data and byte mask (R162, R174). -/
structure BlockWrite where
  offset : Nat
  data   : List Byte
  mask   : List Bool
deriving DecidableEq, Repr

/-- Chain Reader state (R172), with what it has under way, the block as read at examination, and the result being
written. -/
structure Reader where
  state         : ReaderState
  cursor        : Option Nat
  taken         : Option Nat
  lastFinished  : Option Nat
  haltCause     : Option HaltCause
  haltPending   : Bool
  lookAgain     : Bool
  writeBackLost : Bool
  writeList     : List BlockWrite
  writeBusy     : Bool
  pollMs        : Nat
  pollFrom      : Nat
  activity      : Activity
  block         : List Byte
  result        : Option JobResult
deriving DecidableEq, Repr

/-! ## Notice Unit (file 11) -/

/-- Attention modes (R186). -/
inductive AttentionMode where
  | level | pulse
deriving DecidableEq, Repr

/-- Notice Unit state (R186, R189, R190). -/
structure Notices where
  pending  : BitVec 8
  mask     : BitVec 8
  mode     : AttentionMode
  attn     : Bool
  pulseEnd : Option Nat
deriving DecidableEq, Repr

/-! ## What the block drives -/

/-- A signal the block drives in an event (log 6). -/
inductive Signal where
  /-- LASER TRIG, with LASER PATH as it stands (R31, R32). -/
  | laserTrig (path : ShotKind)
  /-- Expose on CAM LINK (R130). -/
  | expose (mode : PhotoMode) (exposure : Nat)
  /-- Stop on CAM LINK (R130). -/
  | cameraStop
  /-- The time counter sent on RX LINK after a reset (R23). -/
  | counterSync (counter : Word)
  /-- A transfer issued on the system port, under its number (R163, log 64). -/
  | issued (id : Nat) (t : Transfer)
  /-- A completed write: its masked bytes are in memory (R165). -/
  | inMemory (t : Transfer)
  /-- The bytes returned by a register read (R187). -/
  | readData (value : Word)
deriving DecidableEq, Repr

/-! ## The block -/

/-- The whole block. -/
structure State where
  time      : Word
  angle     : Angle
  azimuth   : Angle
  mirror    : Mirror
  turntable : Turntable
  rest      : RestWatch
  emission  : Emission
  sector    : Sector
  sched     : Scheduler
  shots     : List OpenShot      -- the open shot list, oldest first
  tracker   : Tracker
  intake    : Intake
  line      : LineState
  staging   : Staging
  loss      : Loss
  markWait  : Option Nat         -- the MARK record awaited, by its order number
  pages     : Pages
  job       : Option Job
  jobSerial : Nat                -- the running or latest job's number
  camera    : Camera
  photo     : Photo
  slots     : Slots
  counters  : Counters
  port      : Port
  issueSlot : Option (Requester × Nat)   -- the requester of the last grant, and the counter's reading at it (log 21)
  reader    : Reader
  notices   : Notices
  rstin     : Bool               -- the level of RSTIN
  out       : List Signal
  freeCount : Nat
  pending   : List Instr
deriving DecidableEq, Repr

/-- Why a step can stop with a fault: never. Every event the spec names has an effect or is said to have none, so no
meaning of this block answers a fault (log 3). -/
inductive Fault where
deriving DecidableEq, Repr

/-- Why a step can be refused. -/
inductive Refusal where
  /-- Raised by the dispatch alone, for a command that has no meaning yet; safe, since nothing follows from a run that
  stops. No arm raises it at present. -/
  | notModelled (mnemonic : String)
deriving DecidableEq, Repr

/-- No detail flag set. -/
def DetailFlags.clear : DetailFlags := ⟨false, false, false, false, false, false, false⟩

/-- No line mark set. -/
def LineMarks.clear : LineMarks := ⟨false, false, false, false⟩

/-- No loss pending (R83). -/
def Loss.zero : Loss := ⟨none, 0, 0, 0⟩

/-- The block right after power-on reset. Values the spec does not give are those of log 10: the pins' levels
deasserted, the azimuth, settle time and tracking rate 0, no request in force, buffers empty. -/
def State.reset : State where
  time := 0
  angle := 0
  azimuth := 0
  mirror := { state := .spinningDown, target := 0, rate := 0, lastIndex := none, lockCount := 0, spinUpEnd := none,
              watchdogFrom := none, rateWatchEnd := 64000000000 }
  turntable := { state := .decelerating, target := none, settleMs := 0, trackRate := 0, slewEnd := none,
                 settleEnd := none, errorCount := 0, requester := none, answered := false }
  rest := { since := 0, azimuth := 0 }
  emission := { input := false, asserted := false, countEnd := none }
  sector := { bounds := none, inside := false }
  sched := { nextShot := 0, lastFire := none, jitterIndex := 0, scheduled := none, shotWaits := false, firing := .noLine,
             lineShots := 0, lineTargets := 0, lineFirst := none, lineLast := none, permit := false, path := .target }
  shots := []
  tracker := { zone := 0, candidate := none, agree := 0, lastRange := none }
  intake := { lastStamp := 0, attached := 0, dropped := 0, blanked := 0, strays := 0, straysBefore := 0,
              pendingStrays := 0, jobStrays := 0 }
  line := { phase := .none, started := 0, number := none, lost := false, truncated := false, marks := .clear,
            flags := .clear, stored := 0, shotsLost := 0, refMisses := 0, report := none, stopTaken := false,
            missRun := 0 }
  staging := { entries := [], nextSeq := 0 }
  loss := .zero
  markWait := none
  pages := { table := none, nextExamine := 0, sequence := 0, current := none, pass := none, lookAgain := false,
             wait := false, fault := false, bad := false, line := none, discarding := none, mark := none, drain := none }
  job := none
  jobSerial := 0
  camera := { presence := .wait, presenceEnd := some 128000000000, checkEnd := none, checkAfterWait := false,
              checkDue := false, presentIn := false, errorIn := false }
  photo := { state := .absent, current := none, rows := [], stations := [], inlineBase := none }
  slots := { slot0 := none, slot1 := none, slot2 := none, slot3 := none, buffer := [] }
  counters := { shots := 0, echoes := 0, strays := 0, outside := 0 }
  port := { control := [], recordWait := [], photoWait := [], chainOut := [], descOut := [], recordOut := [],
            photoOut := [], lastData := .photo, nextId := 0,
            fault := { requester := none, write := false, timeout := false, addr := 0 } }
  issueSlot := none
  reader := { state := .unset, cursor := none, taken := none, lastFinished := none, haltCause := none,
              haltPending := false, lookAgain := false, writeBackLost := false, writeList := [], writeBusy := false,
              pollMs := 0, pollFrom := 0, activity := .idle, block := [], result := none }
  notices := { pending := 0, mask := 0, mode := .level, attn := false, pulseEnd := none }
  rstin := false
  out := []
  freeCount := 0
  pending := []

end Sys2Proof.Machine
end

