-- ==== Sys2Proof/Machine/Setters.lean ====
section
/-! DEFINITION. One setter per field of State: every operation of the machine changes the state through these. -/

namespace Sys2Proof.Machine

/-- `s` with its field `time` replaced. -/
def State.setTime (s : State) (x : Word) : State := { s with time := x }

/-- `s` with its field `angle` replaced. -/
def State.setAngle (s : State) (x : Angle) : State := { s with angle := x }

/-- `s` with its field `azimuth` replaced. -/
def State.setAzimuth (s : State) (x : Angle) : State := { s with azimuth := x }

/-- `s` with its field `mirror` replaced. -/
def State.setMirror (s : State) (x : Mirror) : State := { s with mirror := x }

/-- `s` with its field `turntable` replaced. -/
def State.setTurntable (s : State) (x : Turntable) : State := { s with turntable := x }

/-- `s` with its field `rest` replaced. -/
def State.setRest (s : State) (x : RestWatch) : State := { s with rest := x }

/-- `s` with its field `emission` replaced. -/
def State.setEmission (s : State) (x : Emission) : State := { s with emission := x }

/-- `s` with its field `sector` replaced. -/
def State.setSector (s : State) (x : Sector) : State := { s with sector := x }

/-- `s` with its field `sched` replaced. -/
def State.setSched (s : State) (x : Scheduler) : State := { s with sched := x }

/-- `s` with its field `shots` replaced. -/
def State.setShots (s : State) (x : List OpenShot) : State := { s with shots := x }

/-- `s` with its field `tracker` replaced. -/
def State.setTracker (s : State) (x : Tracker) : State := { s with tracker := x }

/-- `s` with its field `intake` replaced. -/
def State.setIntake (s : State) (x : Intake) : State := { s with intake := x }

/-- `s` with its field `line` replaced. -/
def State.setLine (s : State) (x : LineState) : State := { s with line := x }

/-- `s` with its field `staging` replaced. -/
def State.setStaging (s : State) (x : Staging) : State := { s with staging := x }

/-- `s` with its field `loss` replaced. -/
def State.setLoss (s : State) (x : Loss) : State := { s with loss := x }

/-- `s` with its field `markWait` replaced. -/
def State.setMarkWait (s : State) (x : Option Nat) : State := { s with markWait := x }

/-- `s` with its field `pages` replaced. -/
def State.setPages (s : State) (x : Pages) : State := { s with pages := x }

/-- `s` with its field `job` replaced. -/
def State.setJob (s : State) (x : Option Job) : State := { s with job := x }

/-- `s` with its field `jobSerial` replaced. -/
def State.setJobSerial (s : State) (x : Nat) : State := { s with jobSerial := x }

/-- `s` with its field `camera` replaced. -/
def State.setCamera (s : State) (x : Camera) : State := { s with camera := x }

/-- `s` with its field `photo` replaced. -/
def State.setPhoto (s : State) (x : Photo) : State := { s with photo := x }

/-- `s` with its field `slots` replaced. -/
def State.setSlots (s : State) (x : Slots) : State := { s with slots := x }

/-- `s` with its field `counters` replaced. -/
def State.setCounters (s : State) (x : Counters) : State := { s with counters := x }

/-- `s` with its field `port` replaced. -/
def State.setPort (s : State) (x : Port) : State := { s with port := x }

/-- `s` with its field `issueSlot` replaced. -/
def State.setIssueSlot (s : State) (x : Option (Requester × Nat)) : State := { s with issueSlot := x }

/-- `s` with its field `reader` replaced. -/
def State.setReader (s : State) (x : Reader) : State := { s with reader := x }

/-- `s` with its field `notices` replaced. -/
def State.setNotices (s : State) (x : Notices) : State := { s with notices := x }

/-- `s` with its field `rstin` replaced. -/
def State.setRstin (s : State) (x : Bool) : State := { s with rstin := x }

/-- `s` with its field `out` replaced. -/
def State.setOut (s : State) (x : List Signal) : State := { s with out := x }

/-- `s` with its field `freeCount` replaced. -/
def State.setFreeCount (s : State) (x : Nat) : State := { s with freeCount := x }

/-- `s` with its field `pending` replaced. -/
def State.setPending (s : State) (x : List Instr) : State := { s with pending := x }

end Sys2Proof.Machine
end

