-- ==== Sys2Proof/Machine/Ops.lean ====
section
/-! DEFINITION. The operations every block uses: bytes and byte order, bounded counts, the time counter and the
encoders, angles, signals, and raising a notice cause. -/

namespace Sys2Proof.Machine

/-! ## Bytes (R192) -/

/-- The `n` little-endian bytes of a number; bits above them are dropped. -/
def leBytes : Nat → Nat → List Byte
  | 0, _ => []
  | n + 1, v => BitVec.ofNat 8 v :: leBytes n (v / 256)

/-- The number that little-endian bytes spell. -/
def fromLe : List Byte → Nat
  | [] => 0
  | b :: bs => b.toNat + 256 * fromLe bs

/-- The unsigned field of `n` bytes at an offset; bytes past the end of the list count as 0 (log 48). -/
def field (bs : List Byte) (offset n : Nat) : Nat := fromLe ((bs.drop offset).take n)

/-- The two's complement value of an `n`-byte number. -/
def toSigned (n v : Nat) : Int :=
  if v < 2 ^ (8 * n - 1) then (v : Int) else (v : Int) - (2 ^ (8 * n) : Nat)

/-- The signed field of `n` bytes at an offset. -/
def signedField (bs : List Byte) (offset n : Nat) : Int := toSigned n (field bs offset n)

/-- The `n` bytes of a signed number. -/
def leSigned (n : Nat) (v : Int) : List Byte := leBytes n (v % (2 ^ (8 * n) : Nat)).toNat

/-- The `n` bytes of a value or of "none", which is stored with every bit set (R192). -/
def leOption (n : Nat) : Option Nat → List Byte
  | none => List.replicate n 255
  | some v => leBytes n v

/-- The `n` zero bytes of a reserved field (R192). -/
def zeros (n : Nat) : List Byte := List.replicate n 0

/-- A flag as bit `k` of a byte. -/
def flagBit (b : Bool) (k : Nat) : Nat := if b then 2 ^ k else 0

/-! ## Bounded counts (R62, R83, R156) -/

/-- `a + b` in a count of `w` bits: a count that would pass its top value stays there. -/
def satAdd (w a b : Nat) : Nat := min (a + b) (2 ^ w - 1)

/-- `a` divided by `b`, rounded up. -/
def ceilDiv (a b : Nat) : Nat := (a + b - 1) / b

/-- A quotient rounded to nearest; `tieUp` decides where it lies halfway. -/
def roundDiv (a b : Nat) (tieUp : Bool) : Nat :=
  if 2 * (a % b) < b then a / b
  else if 2 * (a % b) = b then (if tieUp then a / b + 1 else a / b)
  else a / b + 1

/-! ## Time (00_scope Conventions, R23) -/

/-- Fine units in a microsecond. -/
def fineUs : Nat := 64000
/-- Fine units in a millisecond. -/
def fineMs : Nat := 64000000
/-- Fine units in a second. -/
def fineSec : Nat := 64000000000

/-- The counter's reading. -/
def State.now (s : State) : Nat := s.time.toNat

/-- Line time: microseconds since the last reset (R23). -/
def lineTime (t : Nat) : Nat := t / fineUs

/-- A timer's end has come; a stopped timer never ends. -/
def ended (timer : Option Nat) (now : Nat) : Bool :=
  match timer with
  | none => false
  | some t => decide (t ≤ now)

/-- A timer kept across a soft reset, at which the counter restarts from 0: what is left of it counts from there (log 18). -/
def rebase (now : Nat) (timer : Option Nat) : Option Nat := timer.map (· - now)

/-! ## Angles (00_scope Conventions) -/

/-- Counts per revolution. -/
def revolution : Nat := 4194304

/-- The distance between two angles the shorter way round. -/
def circleDistance (a b : Angle) : Nat := min (a - b).toNat (b - a).toNat

/-- `a` less `b`, measured the shorter way round (R16, R144); of exactly half a revolution the sign is open (log 14). -/
def circleError (a b : Angle) : Int :=
  let d := (a - b).toNat
  if 2 * d < revolution then (d : Int)
  else if 2 * d = revolution then (if Config.antipodeNegative then -(d : Int) else (d : Int))
  else (d : Int) - (revolution : Int)

/-! ## Taking a command's moment -/

/-- Counts within which the head is at rest (R18). -/
def restCounts : Nat := 16
/-- Time for which it must stay within them, 10 ms (R18). -/
def restTime : Nat := 10 * fineMs

/-- The rest watch takes an azimuth: it runs on while the azimuth stays within 16 counts of the one it began at, and begins
afresh where it does not (R18, log 59). -/
def RestWatch.see (x : RestWatch) (now : Nat) (azimuth : Angle) : RestWatch :=
  if circleDistance azimuth x.azimuth ≤ restCounts then x else { since := now, azimuth := azimuth }

/-- The issue slot at a reading of the counter: a transfer holds it at the reading of its grant, and is handed over before
the next (R163, log 21). -/
def slotAt (now : Nat) (slot : Option (Requester × Nat)) : Option (Requester × Nat) :=
  match slot with
  | some x => if x.2 = now then some x else none
  | none => none

/-- Take a command's moment: the counter has counted on to its reading, and never back (log 1); the angle counter has
counted the encoder's steps, wrapping from 4,194,303 to 0 (R1); the azimuth is the encoder's, and the rest watch takes it;
the issue slot stands as it does at this reading; RSTIN may have been released; the signals of the command before are past
(log 6). -/
def observe (m : Moment) (s : State) : State :=
  let s1 := s.setTime (if s.time ≤ m.time then m.time else s.time)
  let s2 := (s1.setAngle (s.angle + BitVec.ofNat 22 m.steps)).setAzimuth m.azimuth
  (((s2.setRest (s.rest.see s1.now m.azimuth)).setIssueSlot (slotAt s1.now s.issueSlot)).setRstin
    (s.rstin && m.rstin)).setOut []

/-! ## Signals and free values -/

/-- Drive a signal in this event. -/
def emit (x : Signal) (s : State) : State := s.setOut (s.out ++ [x])

/-- A detail the spec does not state (log 15). -/
def openDetail (s : State) : Nat := (Config.unstatedDetail s.freeCount).toNat

/-- The next free value will be a fresh one. -/
def State.spendFree (s : State) : State := s.setFreeCount (s.freeCount + 1)

/-! ## Raising a notice cause (file 11) -/

/-- The eight causes (R185). -/
inductive Cause where
  | jobEnd | pageSealed | pageWait | chainWait | halted | fault | refused | camera
deriving DecidableEq, Repr

/-- A cause's bit in NOTICE, NOTICE PEEK and NOTICE MASK (R185). -/
def Cause.bit : Cause → BitVec 8
  | .jobEnd => 1
  | .pageSealed => 2
  | .pageWait => 4
  | .chainWait => 8
  | .halted => 16
  | .fault => 32
  | .refused => 64
  | .camera => 128

/-- The causes that are both pending and unmasked (R188). -/
def unmasked (n : Notices) : BitVec 8 := n.pending &&& ~~~n.mask

/-- A pulse of 1 µs begins, or a pulse in progress starts its 1 µs afresh (R190). -/
def beginPulse (now : Nat) (n : Notices) : Notices := { n with attn := true, pulseEnd := some (now + fineUs) }

/-- ATTN after an event that changed the pending set or the mask from those of `before` to those of `after`: LEVEL follows
the unmasked pending set (R189), PULSE begins a pulse when that set goes from empty to not empty (R190). -/
def driveAttn (now : Nat) (before after : Notices) : Notices :=
  match after.mode with
  | .level => { after with attn := decide (unmasked after ≠ 0) }
  | .pulse => if unmasked before = 0 ∧ unmasked after ≠ 0 then beginPulse now after else after

/-- Raise a cause (R186). -/
def raise (c : Cause) (s : State) : State :=
  s.setNotices (driveAttn s.now s.notices { s.notices with pending := s.notices.pending ||| c.bit })

/-- A register write or CONTROL action is REFUSED: nothing changes but that REFUSED is raised (R180). -/
def refuse (s : State) : State := raise .refused s

/-- The attention mode is set by an accepted SETUP (R191). -/
def setAttention (mode : AttentionMode) (s : State) : State :=
  match s.notices.mode, mode with
  | .level, .pulse =>
    let n := { s.notices with mode := .pulse, attn := false, pulseEnd := none }
    s.setNotices (if unmasked n ≠ 0 then beginPulse s.now n else n)
  | .pulse, .level =>
    let n := { s.notices with mode := .level, pulseEnd := none }
    s.setNotices { n with attn := decide (unmasked n ≠ 0) }
  | .level, .level => s
  | .pulse, .pulse => s

end Sys2Proof.Machine
end

