-- ==== Sys2Proof/Machine/Flags.lean ====
section
/-! DEFINITION. Flags and codes: detail flags, summary, and the codes under which states, results and reasons are written
into memory or read from the register window. -/

namespace Sys2Proof.Machine

/-- The detail flags of a line and those of another event, together. -/
def DetailFlags.union (a b : DetailFlags) : DetailFlags :=
  ⟨a.refMissed || b.refMissed, a.gapEcho || b.gapEcho, a.azError || b.azError, a.echoOverflow || b.echoOverflow,
   a.zoneSwitch || b.zoneSwitch, a.uncertain || b.uncertain, a.loss || b.loss⟩

/-- The detail-flag byte of a LINE TRAILER (R198), which the flag union shares (R195). -/
def DetailFlags.toByte (f : DetailFlags) : Nat :=
  flagBit f.refMissed 0 + flagBit f.gapEcho 1 + flagBit f.azError 2 + flagBit f.echoOverflow 3 +
  flagBit f.zoneSwitch 4 + flagBit f.uncertain 5 + flagBit f.loss 6

/-- Some detail flag is set. -/
def DetailFlags.any (f : DetailFlags) : Bool := decide (f ≠ DetailFlags.clear)

/-- The summary of a line: the first entry of R72's order that applies. -/
def summaryOf (marks : LineMarks) (flags : DetailFlags) : Summary :=
  if marks.aborted then .aborted
  else if marks.mirrorLost then .mirrorLost
  else if marks.emissionOff then .emissionOff
  else if marks.turntable then .turntable
  else if flags.loss then .loss
  else if flags.any then .flawed
  else .ok

/-- Summary codes (R198). -/
def Summary.code : Summary → Nat
  | .ok => 0 | .flawed => 1 | .loss => 2 | .turntable => 3 | .emissionOff => 4 | .mirrorLost => 5 | .aborted => 6

/-- Result codes (R193). -/
def ResultCode.code : ResultCode → Nat
  | .none => 0 | .badParam => 1 | .noProfile => 2 | .emissionOff => 3 | .notSpinning => 4 | .spinFail => 5
  | .turntableFault => 6 | .mirrorLost => 7 | .referenceLost => 8 | .memoryFault => 9 | .aborted => 10
  | .pageOpen => 11 | .badKind => 12 | .cameraFault => 13 | .noCamera => 14

/-- Block states as the device writes them (R171). -/
def blockTaken : Nat := 2
/-- DONE for the result code of DONE, FAILED for every other (R171, R175). -/
def ResultCode.blockState : ResultCode → Nat
  | .none => 3
  | _ => 4

/-- Seal reason codes (R196). -/
def sealCode : Option SealReason → Nat
  | none => 0
  | some .full => 1
  | some .highWater => 2
  | some .cut => 3
  | some .jobEnd => 4
  | some .abort => 5

/-- Station status codes (R195). -/
def StationStatus.code : StationStatus → Nat
  | .notReached => 0 | .done => 1 | .truncated => 2 | .missed => 3 | .fault => 4

/-- Mode codes (R195). -/
def PhotoMode.code : PhotoMode → Nat
  | .full => 0
  | .binned => 1

/-- Mirror state codes (R180). -/
def MirrorState.code : MirrorState → Nat
  | .parked => 0 | .spinningUp => 1 | .locked => 2 | .unlocked => 3 | .spinningDown => 4 | .fault => 5

/-- Turntable state codes (R180). -/
def TurntableState.code : TurntableState → Nat
  | .stopped => 0 | .slewing => 1 | .settling => 2 | .held => 3 | .tracking => 4 | .decelerating => 5 | .fault => 6

/-- Photo state codes (R180). -/
def PhotoState.code : PhotoState → Nat
  | .absent => 0 | .idle => 1 | .armed => 2 | .exposing => 3 | .readout => 4

/-- Presence state codes (R199). -/
def Presence.code : Presence → Nat
  | .wait => 0 | .absent => 1 | .check => 2 | .present => 3

/-- Reader state codes (R180). -/
def ReaderState.code : ReaderState → Nat
  | .unset => 0 | .waitReady => 1 | .running => 2 | .waitLink => 3 | .halted => 4

/-- Halt cause codes (R180). -/
def haltCode : Option HaltCause → Nat
  | none => 0
  | some .staleBlock => 1
  | some .halt => 2
  | some .writeBackLost => 3

/-- Requester codes of the FAULT register (R180). -/
def requesterCode : Option Requester → Nat
  | none => 0
  | some .chain => 1
  | some .descriptor => 2
  | some .record => 3
  | some .photo => 4

/-- The mirror drive is on in this state (section 1.1). -/
def MirrorState.driveOn : MirrorState → Bool
  | .spinningUp | .locked | .unlocked => true
  | .parked | .spinningDown | .fault => false

/-- The turntable drive is on in this state (section 1.3). -/
def TurntableState.driveOn : TurntableState → Bool
  | .slewing | .settling | .held | .tracking | .decelerating => true
  | .stopped | .fault => false

/-- The kind of a block, none if unknown (R171). -/
def JobKind.ofCode : Nat → Option JobKind
  | 1 => some .setup
  | 2 => some .spin
  | 3 => some .park
  | 4 => some .turn
  | 5 => some .profile
  | 6 => some .report
  | 7 => some .scan
  | 8 => some .photo
  | 9 => some .mark
  | _ => none

end Sys2Proof.Machine
end

