-- ==== Sys2Proof/Machine/Operands.lean ====
section
/-! DEFINITION. What the block reads out of the bytes it is given: job blocks (R193 to R195), page descriptors (R196),
profile sources (R197). -/

namespace Sys2Proof.Machine

/-! ## Job block (R193) -/

/-- State field of a block. -/
def blockState (b : List Byte) : Nat := field b 0x00 1
/-- Link field of a block. -/
def blockLink (b : List Byte) : Nat := field b 0x08 8
/-- Kind field of a block. -/
def blockKind (b : List Byte) : Nat := field b 0x10 1
/-- Notify flag of a block. -/
def blockNotify (b : List Byte) : Bool := (field b 0x11 1).testBit 0
/-- Seal-at-end flag of a block. -/
def blockSeals (b : List Byte) : Bool := (field b 0x11 1).testBit 1
/-- Tag of a block. -/
def blockTag (b : List Byte) : Nat := field b 0x14 4

/-! ## Short bodies (R194) -/

/-- SETUP: page table address. -/
def setupAddress (b : List Byte) : Nat := field b 0x20 8
/-- SETUP: descriptor count. -/
def setupCount (b : List Byte) : Nat := field b 0x28 2
/-- SETUP: attention mode. -/
def setupMode (b : List Byte) : Nat := field b 0x2A 1
/-- SETUP: poll interval in ms. -/
def setupPoll (b : List Byte) : Nat := field b 0x2C 2
/-- SPIN: rate. -/
def spinRate (b : List Byte) : Nat := field b 0x20 2
/-- SPIN: wait-for-lock. -/
def spinWaits (b : List Byte) : Bool := (field b 0x22 1).testBit 0
/-- TURN: azimuth. -/
def turnAzimuth (b : List Byte) : Nat := field b 0x20 4
/-- TURN: profile slot. -/
def turnSlot (b : List Byte) : Nat := field b 0x24 1
/-- PROFILE: slot. -/
def profileSlot (b : List Byte) : Nat := field b 0x20 1
/-- PROFILE: source address. -/
def profileSource (b : List Byte) : Nat := field b 0x28 8
/-- REPORT: destination address. -/
def reportDest (b : List Byte) : Nat := field b 0x20 8

/-! ## SCAN and PHOTO bodies (R195) -/

/-- Station entry `i`. -/
def stationAt (b : List Byte) (i : Nat) : Station :=
  let e := b.drop (0x80 + 24 * i)
  { buffer := field e 0x00 8, size := field e 0x08 4, azimuth := field e 0x0C 4, exposure := field e 0x10 4,
    mode := field e 0x14 1 }

/-- The station entries of a list of `n`, of which a block holds 16 at most. -/
def stationsOf (b : List Byte) (n : Nat) : List Station := (List.range (min n 16)).map (stationAt b)

/-- The parameters of a SCAN block. -/
def scanParams (b : List Byte) : ScanParams :=
  { slot := field b 0x20 1, echoLimit := field b 0x21 1, startZone := field b 0x22 1,
    keepEmpties := (field b 0x23 1).testBit 0, count := field b 0x24 1, stations := stationsOf b (field b 0x24 1),
    startAz := field b 0x28 4, step := field b 0x2C 4, lines := field b 0x30 4, sectorStart := field b 0x38 4,
    sectorStop := field b 0x3C 4 }

/-- PHOTO: profile slot. -/
def photoSlot (b : List Byte) : Nat := field b 0x20 1
/-- PHOTO: station count. -/
def photoCount (b : List Byte) : Nat := field b 0x21 1

/-- A station has a field out of range (R108, R139), with the longest exposure its job allows. An address above 48 bits
is out of range (R192). -/
def Station.outOfRange (st : Station) (longest : Nat) : Bool :=
  !(decide (st.azimuth < revolution) && decide (st.buffer % 64 = 0) && decide (st.buffer < 2 ^ 48) &&
    decide (64 ≤ st.size) && decide (st.mode ≤ 1) && decide (50 ≤ st.exposure) && decide (st.exposure ≤ longest))

/-- The index of the first station that is out of range, counted from `i`. -/
def firstBadStation (longest : Nat) : Nat → List Station → Option Nat
  | _, [] => none
  | i, st :: rest => if st.outOfRange longest then some i else firstBadStation longest (i + 1) rest

/-- The mode a station's field gives (R195). -/
def modeOf (code : Nat) : PhotoMode := if code = 0 then .full else .binned

/-- Bytes in a row of a mode (R130). -/
def PhotoMode.rowSize : PhotoMode → Nat
  | .full => 9216
  | .binned => 4608

/-- Rows of an image of a mode (R130). -/
def PhotoMode.rowsExpected : PhotoMode → Nat
  | .full => 2048
  | .binned => 1024

/-! ## Page descriptor (R196) -/

/-- State field of a descriptor. -/
def descState (d : List Byte) : Nat := field d 0x00 1
/-- Auto-seal flag of a descriptor. -/
def descAutoSeal (d : List Byte) : Bool := (field d 0x08 1).testBit 0
/-- Notify flag of a descriptor. -/
def descNotify (d : List Byte) : Bool := (field d 0x08 1).testBit 1
/-- High-water field of a descriptor. -/
def descHighWater (d : List Byte) : Nat := field d 0x0C 4
/-- Base field of a descriptor. -/
def descBase (d : List Byte) : Nat := field d 0x10 8
/-- Size field of a descriptor. -/
def descSize (d : List Byte) : Nat := field d 0x18 4

/-- A FREE descriptor's base and size are valid for a take (R92). -/
def descValid (d : List Byte) : Bool :=
  decide (65536 ≤ descSize d) && decide (descSize d ≤ 16777216) && decide (descSize d % 4096 = 0) &&
  decide (descBase d % 8 = 0) && decide (descBase d + descSize d ≤ 2 ^ 48)

/-! ## Profile source (R197) -/

/-- The profile an image holds. -/
def profileOf (b : List Byte) : Profile :=
  { base := field b 0x00 4, window := field b 0x04 4, blanking := field b 0x08 4, refInterval := field b 0x0C 4,
    refConstant := field b 0x10 4, zeroOffset := signedField b 0x14 4, factor := field b 0x18 4, gate := field b 0x1C 2,
    switchCount := field b 0x1E 1, blindStart := field b 0x20 4, blindStop := field b 0x24 4, settleMs := field b 0x28 2,
    cameraOffset := field b 0x2C 4,
    jitter := (List.range 16).map (fun i => field b (0x30 + 2 * i) 2),
    correction := (List.range 32).map (fun i => signedField b (0x50 + 2 * i) 2) }

/-- The smallest jitter entry. -/
def Profile.minJitter (p : Profile) : Nat := p.jitter.foldl min 16383

/-- The in-flight bound of a profile (R108, R153). -/
def Profile.inFlightBound (p : Profile) : Nat := ceilDiv (p.window + 128000) (p.base + p.minJitter)

/-- The checks of R153 in the order of their detail numbers: detail number, and whether the profile passes. -/
def Profile.checks (p : Profile) : List (Nat × Bool) :=
  [(3, decide (32000 ≤ p.base ∧ p.base ≤ 1280000)),
   (4, p.jitter.all (fun j => decide (j ≤ 16383))),
   (5, decide (64000 ≤ p.window ∧ p.window ≤ 2560000)),
   (6, decide (640 ≤ p.blanking ∧ p.blanking ≤ 128000)),
   (7, decide (p.refInterval = 0 ∨ (256 ≤ p.refInterval ∧ p.refInterval ≤ 65536))),
   (8, decide (p.refConstant ≤ 32000)),
   (9, decide (-32000 ≤ p.zeroOffset ∧ p.zeroOffset ≤ 32000)),
   (10, decide (80000 ≤ p.factor ∧ p.factor ≤ 100000)),
   (11, decide (1 ≤ p.gate ∧ p.gate ≤ 65535)),
   (12, decide (1 ≤ p.switchCount ∧ p.switchCount ≤ 15)),
   (13, decide (p.blindStart < revolution)),
   (14, decide (p.blindStop < revolution)),
   (15, decide (100 ≤ p.settleMs ∧ p.settleMs ≤ 5000)),
   (16, decide (p.cameraOffset < revolution)),
   (17, decide (p.blanking < p.window)),
   (18, decide (p.inFlightBound ≤ 32))]

/-- The detail number of the first check of a list that fails. -/
def firstFailure : List (Nat × Bool) → Option Nat
  | [] => none
  | (n, ok) :: rest => if ok then firstFailure rest else some n

/-- The slot a load makes of a profile (R154). -/
def Profile.load (p : Profile) : Slot := { profile := p, bound := p.inFlightBound, offset := p.zeroOffset }

/-- A slot of the store, none where it is invalid or there is no such slot (R147). -/
def Slots.get (sl : Slots) : Nat → Option Slot
  | 0 => sl.slot0
  | 1 => sl.slot1
  | 2 => sl.slot2
  | 3 => sl.slot3
  | _ => none

/-- The store with a slot replaced. -/
def Slots.set (sl : Slots) (i : Nat) (x : Slot) : Slots :=
  match i with
  | 0 => { sl with slot0 := some x }
  | 1 => { sl with slot1 := some x }
  | 2 => { sl with slot2 := some x }
  | 3 => { sl with slot3 := some x }
  | _ => sl

/-- The amplitude band of an echo (R45). -/
def amplitudeBand (amplitude : Nat) : Nat := amplitude / 2048

/-- The range of a flight time under a slot (R52, R74, R149): the exact product by the factor in ten-thousandths, the
correction of the amplitude's band added, rounded to the nearest whole range unit, a half upward, and clamped at 0. -/
def Slot.range (sl : Slot) (flight : Int) (amplitude : Nat) : Nat :=
  let corr := sl.profile.correction.getD (amplitudeBand amplitude) 0
  ((2 * ((flight - sl.offset) * sl.profile.factor) + 20000 * corr + 10000) / 20000).toNat

end Sys2Proof.Machine
end

