-- ==== Sys2Proof/Machine/Formats.lean ====
section
/-! DEFINITION. What the block writes into shared memory: stream records (R198), photo buffer header (R198), REPORT
snapshot (R199), and fields written under a byte mask (R162, R193, R196). -/

namespace Sys2Proof.Machine

/-! ## Stream records (R79, R198) -/

/-- The size of a record in bytes (R79). -/
def Rec.size : Rec → Nat
  | .header _ => 48
  | .shot r => 32 + 16 * r.echoes.length
  | .trailer _ => 64
  | .gap _ => 32
  | .photo _ => 64
  | .mark _ _ => 24

/-- LINE HEADER and SHOT records are of the point class, all others of the reserve class (R79). -/
def Rec.isPoint : Rec → Bool
  | .header _ | .shot _ => true
  | .trailer _ | .gap _ | .photo _ | .mark _ _ => false

/-- A record that bears a line: LINE HEADER, SHOT or LINE TRAILER (R88), with its line number. -/
def Rec.line? : Rec → Option Nat
  | .header h => some h.line
  | .shot r => some r.line
  | .trailer t => some t.line
  | .gap _ | .photo _ | .mark _ _ => none

/-- The values of a LINE HEADER. -/
def Rec.header? : Rec → Option HeaderRec
  | .header h => some h
  | .shot _ | .trailer _ | .gap _ | .photo _ | .mark _ _ => none

/-- The shot number of a SHOT record. -/
def Rec.shot? : Rec → Option Nat
  | .shot r => some r.number
  | .header _ | .trailer _ | .gap _ | .photo _ | .mark _ _ => none

/-- The 48 bytes of a LINE HEADER; a continuation header has 1 in its continuation field (R97, R198). -/
def headerBytes (continuation : Bool) (h : HeaderRec) : List Byte :=
  leBytes 1 1 ++ leBytes 1 (flagBit continuation 0) ++ leBytes 2 48 ++ leBytes 4 h.tag ++ leBytes 4 h.line ++
  leBytes 4 h.azimuth ++ leBytes 8 h.firstShot ++ leBytes 8 h.lineTime ++ leBytes 2 h.rate ++ leBytes 1 h.zone ++ zeros 13

/-- The 16 bytes of an echo entry. -/
def echoBytes (e : EchoEntry) : List Byte :=
  leBytes 4 e.range ++ leBytes 2 e.amplitude ++ leBytes 2 e.width ++
  leBytes 1 (flagBit e.saturated 0 + flagBit e.uncertain 1) ++ zeros 7

/-- The echo entries of a SHOT record. -/
def echoesBytes : List EchoEntry → List Byte
  | [] => []
  | e :: es => echoBytes e ++ echoesBytes es

/-- The bytes of a SHOT record. -/
def shotBytes (r : ShotRec) : List Byte :=
  leBytes 1 2 ++ leBytes 1 (flagBit r.overflow 0 + flagBit r.zoneSwitch 1) ++ leBytes 2 (32 + 16 * r.echoes.length) ++
  leBytes 1 r.echoes.length ++ leOption 1 r.zone ++ zeros 2 ++ leBytes 8 r.number ++ leBytes 4 r.angle ++
  leBytes 4 r.azimuth ++ leBytes 4 r.line ++ zeros 4 ++ echoesBytes r.echoes

/-- The 64 bytes of a LINE TRAILER. -/
def trailerBytes (t : TrailerRec) : List Byte :=
  leBytes 1 3 ++ leBytes 1 t.summary.code ++ leBytes 2 64 ++ leBytes 1 t.flags.toByte ++ leBytes 1 t.zone ++ zeros 2 ++
  leBytes 4 t.line ++ leBytes 4 t.shots ++ leBytes 4 t.targets ++ leBytes 4 t.stored ++ leBytes 4 t.shotsLost ++
  leBytes 4 t.attached ++ leBytes 4 t.dropped ++ leBytes 4 t.blanked ++ leBytes 4 t.strays ++ leBytes 4 t.straysBefore ++
  leBytes 4 t.refMisses ++ zeros 12

/-- The 32 bytes of a GAP record. -/
def gapBytes (l : Loss) : List Byte :=
  leBytes 1 4 ++ zeros 1 ++ leBytes 2 32 ++ leOption 4 (l.first.map (·.2)) ++ leOption 4 (l.first.map (·.1)) ++
  leBytes 4 l.lines ++ leBytes 4 l.shots ++ leBytes 4 l.others ++ zeros 8

/-- The 64 bytes of a PHOTO record. -/
def photoBytes (p : PhotoRec) : List Byte :=
  leBytes 1 5 ++ leBytes 1 p.status.code ++ leBytes 2 64 ++ leBytes 4 p.tag ++ leBytes 1 p.station ++
  leBytes 1 p.mode.code ++ zeros 2 ++ leBytes 4 p.rowsStored ++ leBytes 8 p.buffer ++ leBytes 8 p.lineTime ++
  leOption 8 p.shot ++ leBytes 4 p.azimuth ++ leOption 4 p.line ++ zeros 16

/-- The 24 bytes of a MARK record. -/
def markBytes (tag time : Nat) : List Byte :=
  leBytes 1 6 ++ zeros 1 ++ leBytes 2 24 ++ leBytes 4 tag ++ leBytes 8 time ++ zeros 8

/-- The bytes of a record as it is written into a page (R198). -/
def Rec.bytes : Rec → List Byte
  | .header h => headerBytes false h
  | .shot r => shotBytes r
  | .trailer t => trailerBytes t
  | .gap l => gapBytes l
  | .photo p => photoBytes p
  | .mark tag time => markBytes tag time

/-- The 64 bytes of a photo buffer header (R138, R198). -/
def photoHeaderBytes (p : Photograph) (status : StationStatus) (azimuth : Nat) : List Byte :=
  leBytes 1 status.code ++ leBytes 1 p.mode.code ++ leBytes 1 p.station ++ zeros 1 ++ leBytes 4 p.tag ++
  leBytes 4 p.exposure ++ leBytes 4 p.mode.rowSize ++ leBytes 4 p.mode.rowsExpected ++ leBytes 4 p.rowsStored ++
  leBytes 8 (lineTime p.trigger) ++ leOption 8 p.midShot ++ leBytes 4 azimuth ++ leOption 4 p.line ++ zeros 16

/-! ## Fields under a mask (R162) -/

/-- Fields to write, each an offset with its bytes. -/
abbrev Fields := List (Nat × List Byte)

/-- The byte that fields put at an offset, none where they put none. -/
def Fields.byteAt : Fields → Nat → Option Byte
  | [], _ => none
  | (off, bs) :: rest, i => if off ≤ i ∧ i < off + bs.length then bs[i - off]? else Fields.byteAt rest i

/-- The first offset fields touch, down to an 8-byte unit. -/
def Fields.low (fs : Fields) : Nat := (fs.foldl (fun a f => min a f.1) 512) / 8 * 8

/-- The end of the fields, up to an 8-byte unit. -/
def Fields.high (fs : Fields) : Nat := ceilDiv (fs.foldl (fun a f => max a (f.1 + f.2.length)) 0) 8 * 8

/-- The data of a write that spans fields, 0 where none of them lies. -/
def Fields.data (fs : Fields) : List Byte :=
  (List.range (fs.high - fs.low)).map (fun k => (fs.byteAt (fs.low + k)).getD 0)

/-- The byte mask of a write that spans fields: exactly their bytes are written. -/
def Fields.mask (fs : Fields) : List Bool :=
  (List.range (fs.high - fs.low)).map (fun k => (fs.byteAt (fs.low + k)).isSome)

/-- The fields of one half of a 512-byte block. -/
def Fields.half (fs : Fields) (h : Nat) : Fields := fs.filter (fun f => f.1 / 256 == h)

/-- Fields as one write. -/
def Fields.toWrite (fs : Fields) : BlockWrite := { offset := fs.low, data := fs.data, mask := fs.mask }

/-- Fields of a block as writes of at most 256 bytes: one for each half of the block that holds some of them (log 30). -/
def Fields.toWrites (fs : Fields) : List BlockWrite :=
  (if fs.half 0 = [] then [] else [Fields.toWrite (fs.half 0)]) ++
  (if fs.half 1 = [] then [] else [Fields.toWrite (fs.half 1)])

/-! ## REPORT snapshot (R158, R199) -/

/-- Eight bytes for slot `i` in the snapshot. -/
def slotBytes (sl : Option Slot) : List Byte :=
  match sl with
  | none => zeros 8
  | some x => leBytes 1 1 ++ leBytes 1 x.bound ++ zeros 2 ++ leSigned 4 x.offset

/-- The family code that IDENT returns (R180). -/
def familyCode : Nat := 2401
/-- The revision that IDENT returns (R180). -/
def revisionCode : Nat := 1

/-- The 256 bytes of the snapshot, sampled from the state of one event (R157, R158, R199). -/
def snapshotBytes (s : State) : List Byte :=
  leBytes 2 familyCode ++ leBytes 2 revisionCode ++ zeros 4 ++ leBytes 8 (lineTime s.now) ++
  leBytes 1 s.mirror.state.code ++ leBytes 1 s.turntable.state.code ++ leBytes 1 (flagBit s.emission.asserted 0) ++
  leBytes 1 s.camera.presence.code ++ leBytes 2 s.mirror.target ++ leBytes 2 s.mirror.rate ++
  leBytes 4 s.azimuth.toNat ++ zeros 4 ++
  slotBytes s.slots.slot0 ++ slotBytes s.slots.slot1 ++ slotBytes s.slots.slot2 ++ slotBytes s.slots.slot3 ++
  leBytes 2 (match s.pages.table with | none => 0 | some t => t.2) ++ leBytes 2 s.pages.nextExamine ++
  leBytes 1 (flagBit s.pages.wait 0 + flagBit s.pages.fault 1) ++ zeros 3 ++ leBytes 4 s.pages.sequence ++ zeros 4 ++
  leBytes 8 s.counters.shots ++ leBytes 8 s.counters.echoes ++ leBytes 8 s.counters.strays ++
  leBytes 8 s.counters.outside ++ zeros 144

/-! ## Register window reads (R168, R180, R187) -/

/-- IDENT. -/
def identValue : Word := BitVec.ofNat 64 (familyCode * 65536 + revisionCode)

/-- CONTROL as read (R180). -/
def controlValue (s : State) : Word :=
  BitVec.ofNat 64 (s.reader.state.code + haltCode s.reader.haltCause * 16 + flagBit s.reader.haltPending 6 +
    s.mirror.state.code * 256 + s.turntable.state.code * 4096 + s.photo.state.code * 65536 +
    flagBit s.pages.wait 20 + flagBit s.pages.fault 21 + flagBit s.pages.bad 22)

/-- FAULT as read (R180). -/
def faultValue (s : State) : Word :=
  BitVec.ofNat 64 (requesterCode s.port.fault.requester + flagBit s.port.fault.write 3 + flagBit s.port.fault.timeout 4 +
    s.port.fault.addr.toNat * 65536)

/-- What an 8-byte read of a register returns (R180); a NOTICE read also clears (R187), which its own command does. -/
def registerValue (s : State) : Nat → Word
  | 0x00 => identValue
  | 0x18 => controlValue s
  | 0x20 => s.notices.pending.setWidth 64
  | 0x28 => s.notices.pending.setWidth 64
  | 0x30 => s.notices.mask.setWidth 64
  | 0x38 => faultValue s
  | _ => 0

/-- What a read of `count` bytes at an offset of the window returns: the bytes addressed, in the low bytes (R180, R187). A
NOTICE read returns this too and may clear, which its own command does. Bytes addressed past the end of the register that
the offset falls in, or past 3Fh, read 0 (the model's choice, log 73). -/
def registerRead (s : State) (offset count : Nat) : Word :=
  BitVec.ofNat 64 ((registerValue s (offset / 8 * 8)).toNat / 2 ^ (8 * (offset % 8)) % 2 ^ (8 * count))

end Sys2Proof.Machine
end

