-- ==== Sys2Proof/Machine/Port.lean ====
section
/-! DEFINITION. The Store Port's own operations (file 09): requests, withdrawal, grants, answers, and the latching of a
memory fault. What a reported outcome does stands with the requesters. -/

namespace Sys2Proof.Machine

/-- A start address; one past the address space is open (log 17). -/
def addrOf (n : Nat) : Addr := if n < 2 ^ 48 then BitVec.ofNat 48 n else Config.addressPast n

/-- A read of `len` bytes. -/
def readTransfer (r : Requester) (p : Purpose) (addr len : Nat) : Transfer :=
  { requester := r, purpose := p, write := false, addr := addrOf addr, len := len, data := [], mask := [], live := true }

/-- A write of bytes under a mask. -/
def maskedTransfer (r : Requester) (p : Purpose) (addr : Nat) (data : List Byte) (mask : List Bool) : Transfer :=
  { requester := r, purpose := p, write := true, addr := addrOf addr, len := data.length, data := data, mask := mask,
    live := true }

/-- A write of every byte of its data. -/
def writeTransfer (r : Requester) (p : Purpose) (addr : Nat) (data : List Byte) : Transfer :=
  maskedTransfer r p addr data (List.replicate data.length true)

/-- Microseconds after which an outstanding transfer faults (R167), in fine units. -/
def transferTimeout : Nat := 50 * fineUs

/-- Transfers a requester may have outstanding: 4 (R161), and of the descriptor requester, which issues one access at a time,
1 (R90, R164). -/
def maxOutstanding : Requester → Nat
  | .descriptor => 1
  | .chain | .record | .photo => 4

/-- The outstanding transfers of a requester, oldest first. -/
def Port.outOf (p : Port) : Requester → List Outstanding
  | .chain => p.chainOut
  | .descriptor => p.descOut
  | .record => p.recordOut
  | .photo => p.photoOut

/-- The port with a requester's outstanding transfers replaced. -/
def Port.setOut (p : Port) (r : Requester) (l : List Outstanding) : Port :=
  match r with
  | .chain => { p with chainOut := l }
  | .descriptor => { p with descOut := l }
  | .record => { p with recordOut := l }
  | .photo => { p with photoOut := l }

/-- A request is taken: a control-class transfer joins the end of the control order (R163), a data-class one waits behind
its requester's earlier ones. -/
def Port.request (p : Port) (t : Transfer) : Port :=
  match t.requester with
  | .chain | .descriptor => { p with control := p.control ++ [t] }
  | .record => { p with recordWait := p.recordWait ++ [t] }
  | .photo => { p with photoWait := p.photoWait ++ [t] }

/-- Waiting transfers that their requester no longer asks for are not issued (R161). -/
def Port.withdraw (p : Port) (gone : Transfer → Bool) : Port :=
  { p with control := p.control.filter (fun t => !gone t), recordWait := p.recordWait.filter (fun t => !gone t),
           photoWait := p.photoWait.filter (fun t => !gone t) }

/-- A transfer whose requester has come to ignore its outcome. -/
def Transfer.ignoreIf (which : Transfer → Bool) (t : Transfer) : Transfer := if which t then { t with live := false } else t

/-- Outstanding transfers whose requester has come to ignore their outcome. -/
def ignoreOut (which : Transfer → Bool) (l : List Outstanding) : List Outstanding :=
  l.map (fun o => { o with transfer := o.transfer.ignoreIf which })

/-- The requester will ignore the outcome of the transfers named, waiting ones included. -/
def Port.ignore (p : Port) (which : Transfer → Bool) : Port :=
  { p with control := p.control.map (·.ignoreIf which), recordWait := p.recordWait.map (·.ignoreIf which),
           photoWait := p.photoWait.map (·.ignoreIf which), chainOut := ignoreOut which p.chainOut,
           descOut := ignoreOut which p.descOut, recordOut := ignoreOut which p.recordOut,
           photoOut := ignoreOut which p.photoOut }

/-- Ask the port for a transfer. -/
def request (t : Transfer) (s : State) : State := s.setPort (s.port.request t)

/-- Withdraw waiting transfers. -/
def withdraw (gone : Transfer → Bool) (s : State) : State := s.setPort (s.port.withdraw gone)

/-- Ignore the outcome of transfers. -/
def ignore (which : Transfer → Bool) (s : State) : State := s.setPort (s.port.ignore which)

/-- The purposes of the reader's own accesses to blocks and links. -/
def Purpose.isReaderRead : Purpose → Bool
  | .examination _ | .link => true
  | _ => false

/-! ## Arbitration (R163, R164) -/

/-- A requester may be granted another transfer (R161, R164). -/
def Port.hasRoom (p : Port) (r : Requester) : Bool := decide ((p.outOf r).length < maxOutstanding r)

/-- The first transfer of the control order whose requester has room, with the order it leaves. -/
def firstReady (p : Port) : List Transfer → Option (Transfer × List Transfer)
  | [] => none
  | t :: rest =>
    if p.hasRoom t.requester then some (t, rest)
    else (firstReady p rest).map (fun x => (x.1, t :: x.2))

/-- The record path waits (R161). -/
def Port.recordWaits (p : Port) : Bool := !p.recordWait.isEmpty && p.hasRoom .record
/-- The photo path waits (R161). -/
def Port.photoWaits (p : Port) : Bool := !p.photoWait.isEmpty && p.hasRoom .photo

/-- Occupancy at which the record path is served ahead of the photo path (R80, R164). -/
def recordPriority : Nat := 24576

/-- The data requester to be granted, when no control-class transfer is (R164, steps 2 to 4). -/
def Port.chooseData (p : Port) (occupancy : Nat) : Option DataPath :=
  if p.recordWaits && decide (recordPriority ≤ occupancy) then some .record
  else if p.recordWaits && p.photoWaits then
    (match p.lastData with
     | .record => some .photo
     | .photo => some .record)
  else if p.recordWaits then some .record
  else if p.photoWaits then some .photo
  else none

/-- Issue a transfer: it is outstanding from now on under the next number, and its timeout starts (R161, R167, log 64). -/
def Port.issue (p : Port) (now : Nat) (t : Transfer) : Port :=
  { p.setOut t.requester (p.outOf t.requester ++ [⟨p.nextId, t, some (now + transferTimeout), .awaited⟩]) with
    nextId := p.nextId + 1 }

/-- One decision of the arbiter: the port after it and the transfer granted, none when no requester waits (R164). -/
def Port.grant (p : Port) (now occupancy : Nat) : Port × Option Transfer :=
  match firstReady p p.control with
  | some (t, rest) => (({ p with control := rest }).issue now t, some t)
  | none =>
    match p.chooseData occupancy with
    | some .record =>
      (match p.recordWait with
       | [] => (p, none)
       | t :: rest => (({ p with recordWait := rest, lastData := .record }).issue now t, some t))
    | some .photo =>
      (match p.photoWait with
       | [] => (p, none)
       | t :: rest => (({ p with photoWait := rest, lastData := .photo }).issue now t, some t))
    | none => (p, none)

/-! ## Answers and faults (R165, R167, R168) -/

/-- The place of the outstanding transfer of a number among its requester's, none where it is no longer outstanding: an
answer to it is then ignored (R167, R170, log 64). -/
def Port.placeOf (p : Port) (r : Requester) (id : Nat) : Option Nat :=
  (p.outOf r).findIdx? (fun o => decide (o.id = id))

/-- The transfer at a place among a requester's outstanding ones has had no answer yet. -/
def Port.awaitsAt (p : Port) (r : Requester) (place : Nat) : Option Outstanding :=
  match (p.outOf r)[place]? with
  | some o => if o.answer = .awaited then some o else none
  | none => none

/-- Set what is known of the transfer at a place; its timeout stops. -/
def Port.answerAt (p : Port) (r : Requester) (place : Nat) (a : Answer) : Port :=
  p.setOut r ((p.outOf r).modify place (fun o => { o with timeout := none, answer := a }))

/-- A memory fault is latched: the FAULT register takes its particulars and FAULT is raised (R168). -/
def latchFault (t : Transfer) (timeout : Bool) (s : State) : State :=
  raise .fault (s.setPort { s.port with
    fault := { requester := some t.requester, write := t.write, timeout := timeout, addr := t.addr } })

/-- The Store Port at either reset; the FAULT register is kept by a soft reset (R163, R168, R170), and the transfers' numbers
go on, so that no answer to a forgotten transfer finds another (log 64). -/
def Port.clear (p : Port) : Port :=
  { control := [], recordWait := [], photoWait := [], chainOut := [], descOut := [], recordOut := [], photoOut := [],
    lastData := .photo, nextId := p.nextId, fault := p.fault }

end Sys2Proof.Machine
end

