-- ==== Sys2Proof/Machine/Reader.lean ====
section
/-! DEFINITION. The Chain Reader's own operations (file 10): examinations, link reads, halts, the block write list, and
handing back a result. -/

namespace Sys2Proof.Machine

/-- Address of the block the reader is on. -/
def State.blockAddr (s : State) : Nat := s.reader.cursor.getD 0

/-- The kind of the block as read. -/
def State.blockJob (s : State) : Option JobKind := JobKind.ofCode (blockKind s.reader.block)

/-- The seal-at-end flag of the running job's block. -/
def State.seals (s : State) : Bool := blockSeals s.reader.block

/-- The tag of the running job's block. -/
def State.tag (s : State) : Nat := blockTag s.reader.block

/-- An examination of the cursor block begins: its two reads are asked for, in order (R173). -/
def beginExamination (s : State) : State :=
  request (readTransfer .chain (.examination 1) (s.blockAddr + 256) 256)
    (request (readTransfer .chain (.examination 0) s.blockAddr 256)
      (s.setReader { s.reader with activity := .examining none }))

/-- The link of the last finished block is read: one transfer of the unit that holds it (R176). -/
def beginLinkRead (s : State) : State :=
  request (readTransfer .chain .link (s.reader.lastFinished.getD 0 + 8) 8)
    (s.setReader { s.reader with activity := .link })

/-- The reader enters HALTED with a cause and HALTED is raised (R172). What it had under way is over, and the outcome of
its reads still asked for will be ignored (R182). One of them that still waits for its grant, such as an examination's second
read behind a faulted first one, is not withdrawn and is issued in its turn (R161, R183; the model's choice, log 66). -/
def enterHalted (c : HaltCause) (s : State) : State :=
  raise .halted (ignore (fun t => t.purpose.isReaderRead)
    (s.setReader { s.reader with state := .halted, haltCause := some c, activity := .idle, lookAgain := false }))

/-- The reader halts because halt pending was set; halt pending becomes clear (R175, R176, R182). -/
def haltOnPending (s : State) : State :=
  enterHalted .halt (s.setReader { s.reader with haltPending := false })

/-- The reader halts because a write-back or a read of its own was lost (R183): the taken block is released, what was
still to be written is discarded, halt pending and write-back lost become clear. -/
def haltOnLoss (s : State) : State :=
  enterHalted .writeBackLost (s.setReader { s.reader with
    taken := none, haltPending := false, writeBackLost := false, writeList := [], writeBusy := false, result := none })

/-- The reader enters a wait state; CHAIN-WAIT is raised when it comes from another state (R172). -/
def enterWait (w : ReaderState) (s : State) : State :=
  let s1 := s.setReader { s.reader with state := w, activity := .idle }
  if s.reader.state = w then s1 else raise .chainWait s1

/-- The write of result code and detail (R175, R193). -/
def resultCodeFields (r : JobResult) : Fields := [(0x18, leBytes 2 r.code.code), (0x1C, leBytes 4 r.detail)]

/-- A write of fields of the block the reader is on. -/
def blockTransfer (p : Purpose) (w : BlockWrite) (s : State) : Transfer :=
  maskedTransfer .chain p (s.blockAddr + w.offset) w.data w.mask

/-- The write of a block's state field: alone, one byte of its unit (R175, R193). -/
def stateTransfer (p : Purpose) (code : Nat) (s : State) : Transfer :=
  blockTransfer p (Fields.toWrite [(0, leBytes 1 code)]) s

/-- The next write to the block is issued once the one before it has completed: the writes of the list in order, and
behind them the result code write (R174, R175). -/
def nextBlockWrite (s : State) : State :=
  if s.reader.writeBusy then s
  else match s.reader.writeList with
    | w :: rest =>
      request (blockTransfer .blockWrite w s) (s.setReader { s.reader with writeList := rest, writeBusy := true })
    | [] =>
      match s.reader.result with
      | some r =>
        request (blockTransfer .resultCode (Fields.toWrite (resultCodeFields r)) s)
          (s.setReader { s.reader with writeBusy := true })
      | none => s

/-- A progress write-back joins the tail of the block write list (R174); once a write-back is lost it is discarded
(R183). -/
def pushProgress (fs : Fields) (s : State) : State :=
  if s.reader.writeBackLost then s
  else nextBlockWrite (s.setReader { s.reader with writeList := s.reader.writeList ++ fs.toWrites })

/-- The running job hands its result back (R175): no job runs any more, its job-end fields join the list, result code and
state follow. After the loss of a write-back the result is discarded and the reader halts (R183). -/
def handResult (r : JobResult) (s : State) : State :=
  let s1 := s.setJob none
  if s.reader.writeBackLost then haltOnLoss s1
  else nextBlockWrite (s1.setReader { s1.reader with
    activity := .result, result := some r, writeList := s1.reader.writeList ++ Fields.toWrites r.fields })

/-- A result with no job-end fields. -/
def plainResult (c : ResultCode) (detail : Nat) : JobResult := ⟨c, detail, []⟩

/-- LOOK and poll ticks at the reader (R177). -/
def lookAtChain (s : State) : State :=
  match s.reader.state with
  | .waitReady =>
    if s.reader.activity = .idle then beginExamination s else s.setReader { s.reader with lookAgain := true }
  | .waitLink =>
    if s.reader.activity = .idle then beginLinkRead s else s.setReader { s.reader with lookAgain := true }
  | .unset | .running | .halted => s

/-- A READY block of known kind is taken: one write of state TAKEN is issued (R173). -/
def takeBlock (s : State) : State :=
  let s1 := s.setReader { s.reader with
    state := .running, taken := s.reader.cursor, lookAgain := false, activity := .taking }
  request (stateTransfer .takenWrite blockTaken s1) s1

/-- A READY block of unknown kind: BAD-KIND with the kind as detail is written as any result (R173). -/
def rejectKind (s : State) : State :=
  nextBlockWrite (s.setReader { s.reader with
    state := .running, lookAgain := false, activity := .result,
    result := some (plainResult .badKind (blockKind s.reader.block)) })

/-- The cursor block was read EMPTY (R173, R177, R182). -/
def blockEmpty (s : State) : State :=
  if s.reader.state = .running ∧ s.reader.haltPending then haltOnPending s
  else if s.reader.state = .waitReady ∧ s.reader.lookAgain then
    beginExamination (s.setReader { s.reader with lookAgain := false })
  else enterWait .waitReady (s.setReader { s.reader with lookAgain := false })

/-- An examination is complete: its header is classified (R173). -/
def classifyBlock (s : State) : State :=
  let b := s.reader.block
  if blockState b = 1 then (if (s.blockJob).isSome then takeBlock s else rejectKind s)
  else if blockState b = 0 then blockEmpty s
  else enterHalted .staleBlock s

/-- One half of the cursor block has been read; with the second the block is classified (R173). -/
def examinationRead (half : Nat) (data : List Byte) (s : State) : State :=
  match s.reader.activity with
  | .examining first =>
    if half = 0 then s.setReader { s.reader with activity := .examining (some data) }
    else classifyBlock (s.setReader { s.reader with block := first.getD [] ++ data })
  | _ => s

/-- A link is a block address a cursor may take (R176, R180). -/
def validBlockAddr (a : Nat) : Bool := decide (a ≠ 0) && decide (a % 64 = 0) && decide (a ≤ 2 ^ 48 - 512)

/-- A link read is complete (R176, R177, R182). With link 0, and with an invalid link, the cursor stays where it is: on the
finished block, or, where a RESUME reads the link with the cursor on another block, on that one (the model's choice, log 63). -/
def linkRead (data : List Byte) (s : State) : State :=
  let link := field data 0 8
  if link = 0 then
    (if s.reader.haltPending then haltOnPending s
     else if s.reader.state = .waitLink ∧ s.reader.lookAgain then
       beginLinkRead (s.setReader { s.reader with lookAgain := false })
     else enterWait .waitLink (s.setReader { s.reader with lookAgain := false }))
  else if validBlockAddr link then
    let s1 := s.setReader { s.reader with cursor := some link, lookAgain := false }
    (if s.reader.haltPending then haltOnPending s1
     else beginExamination (s1.setReader { s1.reader with state := .running }))
  else enterHalted .staleBlock s

/-- The result code write is complete: the state write is issued alone (R175). -/
def resultCodeWritten (s : State) : State :=
  match s.reader.result with
  | some r => request (stateTransfer .resultState r.code.blockState s) s
  | none => s

/-- The result state write is complete: the block is released and finished, JOB-END may be raised, and the reader halts or
reads the link (R175). -/
def resultStateWritten (s : State) : State :=
  match s.reader.result with
  | none => s
  | some r =>
    let s1 := s.setReader { s.reader with
      taken := none, lastFinished := s.reader.cursor, writeBusy := false, result := none, activity := .idle }
    let s2 := if blockNotify s.reader.block || decide (r.code ≠ .none) then raise .jobEnd s1 else s1
    if s2.reader.haltPending then haltOnPending s2 else beginLinkRead s2

/-- A write of the block write list is complete: the next is issued (R174). -/
def blockWritten (s : State) : State := nextBlockWrite (s.setReader { s.reader with writeBusy := false })

/-- The reader at either reset (R172, R184); the poll interval is the one given. -/
def Reader.clear (pollMs : Nat) : Reader :=
  { state := .unset, cursor := none, taken := none, lastFinished := none, haltCause := none, haltPending := false,
    lookAgain := false, writeBackLost := false, writeList := [], writeBusy := false, pollMs := pollMs, pollFrom := 0,
    activity := .idle, block := [], result := none }

end Sys2Proof.Machine
end

