-- ==== Sys2Proof/Machine/Turntable.lean ====
section
/-! DEFINITION. The turntable's requests and state changes (file 01, section 1.3). How a job takes an answer stands with
the jobs. -/

namespace Sys2Proof.Machine

/-- Half width of the hold band (R12). -/
def holdBand : Nat := 64
/-- Slew limit, 60 s (section 1.3). -/
def slewLimit : Nat := 60 * fineSec
/-- Top speed in counts per second (R13). -/
def topSpeed : Nat := 349525

/-- The azimuth lies in the hold band of the target (R12). -/
def State.inHoldBand (s : State) : Bool :=
  match s.turntable.target with
  | none => false
  | some t => decide (circleDistance s.azimuth t ≤ holdBand)

/-- What a request is answered with at once. -/
inductive Reply where
  | nothing | arrived | fault
deriving DecidableEq, Repr

/-- A slew toward a target begins with a fresh slew limit (R12, R14). -/
def beginSlew (target : Angle) (settleMs : Nat) (errors : Nat) (s : State) : State :=
  s.setTurntable { s.turntable with
    state := .slewing, target := some target, settleMs := settleMs, settleEnd := none,
    slewEnd := some (s.now + slewLimit), errorCount := errors, requester := some s.jobSerial, answered := false }

/-- A move request of the running job (R12). -/
def moveRequest (target : Angle) (settleMs : Nat) (s : State) : State × Reply :=
  if s.turntable.state = .held ∧ s.turntable.target = some target ∧ s.inHoldBand then
    (s.setTurntable { s.turntable with requester := some s.jobSerial, answered := true }, .arrived)
  else if s.turntable.state = .fault then (beginSlew target settleMs 0 s, .nothing)
  else (beginSlew target settleMs s.turntable.errorCount s, .nothing)

/-- A track request of the running job, its rate in hundredths of a count per second (R15). -/
def trackRequest (rate : Nat) (s : State) : State × Reply :=
  if s.turntable.state = .fault then (s, .fault)
  else (s.setTurntable { s.turntable with
    state := .tracking, trackRate := rate, target := none, settleEnd := none, slewEnd := none, errorCount := 0,
    requester := some s.jobSerial, answered := false }, .nothing)

/-- A decelerate request (R18). -/
def decelerate (s : State) : State :=
  match s.turntable.state with
  | .held => s.setTurntable { s.turntable with state := .stopped, target := none }
  | .slewing | .settling =>
    s.setTurntable { s.turntable with state := .decelerating, target := none, slewEnd := none, settleEnd := none }
  | .tracking => s.setTurntable { s.turntable with state := .decelerating }
  | .stopped | .decelerating | .fault => s

/-- The turntable enters FAULT and FAULT is raised (R17). -/
def enterTurntableFault (s : State) : State :=
  raise .fault (s.setTurntable { s.turntable with state := .fault, target := none, settleEnd := none, slewEnd := none })

/-- The running job issued the request in force (R17). -/
def State.requestIsOurs (s : State) : Bool := decide (s.turntable.requester = some s.jobSerial)

/-- The turntable at soft reset (R18). -/
def Turntable.softReset (t : Turntable) : Turntable :=
  { t with
    state := (match t.state with
      | .stopped | .held => .stopped
      | .slewing | .settling | .tracking | .fault | .decelerating => .decelerating),
    target := none, slewEnd := none, settleEnd := none, errorCount := 0, requester := none, answered := false }

end Sys2Proof.Machine
end

