-- ==== Sys2Proof/Machine/Queue.lean ====
section
/-! DEFINITION. The staging queue and the pending loss counts (file 04, sections 4.5 and 4.6). -/

namespace Sys2Proof.Machine

/-- Capacity of the staging queue (R79). -/
def queueCapacity : Nat := 32768
/-- Limit of the point class: the capacity less the reserve (R79). -/
def pointLimit : Nat := 32512
/-- Size of a GAP record (R79). -/
def gapSize : Nat := 32

/-- The bytes of a list of queued records. -/
def entriesSize : List Entry → Nat
  | [] => 0
  | e :: es => e.record.size + entriesSize es

/-- The bytes of LINE HEADER and SHOT records among queued records. -/
def pointSize : List Entry → Nat
  | [] => 0
  | e :: es => (if e.record.isPoint then e.record.size else 0) + pointSize es

/-- The queue's occupancy (R80). -/
def State.occupancy (s : State) : Nat := entriesSize s.staging.entries

/-- The limit of a record's class (R79). -/
def Rec.limit (r : Rec) : Nat := if r.isPoint then pointLimit else queueCapacity

/-- Some loss is pending (R84). -/
def Loss.pending (l : Loss) : Bool := decide (l ≠ Loss.zero)

/-- Bytes to be added for a record: its own and, while losses are pending, those of the GAP ahead of it (R79, R84). -/
def State.bytesFor (s : State) (r : Rec) : Nat := r.size + (if s.loss.pending then gapSize else 0)

/-- The record would be taken into the queue (R79, R84). -/
def State.hasRoomFor (s : State) (r : Rec) : Bool := decide (s.occupancy + s.bytesFor r ≤ r.limit)

/-- Add a record at the tail, with the identity of the job that offers it (R79). -/
def Staging.append (q : Staging) (job : Nat) (r : Rec) : Staging :=
  { entries := q.entries ++ [⟨q.nextSeq, job, r, false⟩], nextSeq := q.nextSeq + 1 }

/-- Offer a record of the running job: admitted behind the GAP that is due, or not at all (R79, R84). What follows from a
refusal is the offerer's (R68, R81, R82). -/
def offer (r : Rec) (s : State) : State × Bool :=
  if s.hasRoomFor r then
    (if s.loss.pending then
      ((s.setStaging ((s.staging.append s.jobSerial (.gap s.loss)).append s.jobSerial r)).setLoss .zero, true)
     else (s.setStaging (s.staging.append s.jobSerial r), true))
  else (s, false)

/-- A record of another kind is lost (R82, R83). -/
def Loss.addOther (l : Loss) : Loss := { l with others := satAdd 32 l.others 1 }
/-- A SHOT record is lost (R81, R83). -/
def Loss.addShot (l : Loss) : Loss := { l with shots := satAdd 32 l.shots 1 }
/-- A line is lost (R68, R83): it becomes the first lost line if none is held. -/
def Loss.addLine (l : Loss) (line tag : Nat) : Loss :=
  { l with first := (match l.first with | none => some (line, tag) | some f => some f), lines := satAdd 32 l.lines 1 }
/-- The counts of a GAP record that did not reach its page are added back (R105). -/
def Loss.addBack (l g : Loss) : Loss :=
  { first := (match l.first with | none => g.first | some f => some f), lines := satAdd 32 l.lines g.lines,
    shots := satAdd 32 l.shots g.shots, others := satAdd 32 l.others g.others }

/-- Offer a record of the reserve class; one that is not admitted counts as another record lost (R82). -/
def offerReserve (r : Rec) (s : State) : State × Bool :=
  let (s1, ok) := offer r s
  if ok then (s1, true) else (s1.setLoss s1.loss.addOther, false)

/-- Some record waits: the queue holds one whose write has not been issued (R90). -/
def State.recordWaits (s : State) : Bool := s.staging.entries.any (fun e => !e.issued)

/-- The record at the head of the unissued ones. -/
def State.firstUnissued (s : State) : Option Entry := s.staging.entries.find? (fun e => !e.issued)

/-- Every record with an order number below a bound has been written or removed (R101). -/
def State.reached (s : State) (bound : Nat) : Bool := s.staging.entries.all (fun e => decide (bound ≤ e.seq))

/-- A queued record is a LINE HEADER, SHOT or LINE TRAILER that its job may have discarded: its write has not begun
(R85). -/
def Entry.discardable (job : Nat) (e : Entry) : Bool := decide (e.job = job) && !e.issued && e.record.line?.isSome

/-- SHOT records among queued records. -/
def shotCount (es : List Entry) : Nat := (es.filter (fun e => e.record.shot?.isSome)).length

/-- The numbers of lines lost and shots lost that a discard answers with: each line with at least one record removed
counts once, and each SHOT record (R85). -/
structure Discarded where
  lines : Nat
  shots : Nat
deriving DecidableEq, Repr

/-- The counts of removed records (R85). -/
def discardedOf (es : List Entry) : Discarded :=
  { lines := (es.filterMap (fun e => e.record.line?)).eraseDups.length, shots := shotCount es }

/-- A queued record is the trailer of a line, the line named with its job (R105). -/
def Entry.isTrailerOf (line : Option (Nat × Nat)) (e : Entry) : Bool :=
  match e.record with
  | .trailer t => decide (line = some (e.job, t.line))
  | .header _ | .shot _ | .gap _ | .photo _ | .mark _ _ => false

/-- The discarding line after records have been removed: none once its trailer is among them (R105). -/
def discardingWithout (line : Option (Nat × Nat)) (gone : List Entry) : Option (Nat × Nat) :=
  if gone.any (·.isTrailerOf line) then none else line

/-- The running job has its queued records discarded, and is answered with the counts (R85); with its trailer removed the
discarding line becomes none (R105). -/
def discardQueued (s : State) : State × Discarded :=
  let es := s.staging.entries
  let gone := es.filter (fun e => e.discardable s.jobSerial)
  ((s.setStaging { s.staging with entries := es.filter (fun e => !e.discardable s.jobSerial) }).setPages
     { s.pages with discarding := discardingWithout s.pages.discarding gone },
   discardedOf gone)

end Sys2Proof.Machine
end

