-- ==== Sys2Proof/Machine/JobEnd.lean ====
section
/-! DEFINITION. How jobs end: the job-end mark (R101), the seal wait of the short jobs (R87, R160, R179), the end of a
SCAN (R116, R126, R127) and of a PHOTO job (R143), and a job being told that its seal is done. -/

namespace Sys2Proof.Machine

/-- A job-end mark is placed at the tail of the staging queue (R101). -/
def placeMark (reason : SealReason) (s : State) : State :=
  s.setPages { s.pages with mark := some { bound := s.staging.nextSeq, reason := reason, begun := false } }

/-- A drain point is placed at the tail of the staging queue (R101, R126). -/
def placeDrain (s : State) : State := s.setPages { s.pages with drain := some s.staging.nextSeq }

/-- A job-end mark or drain point is withdrawn, or ended (R101, R104). -/
def clearMark (s : State) : State := s.setPages { s.pages with mark := none, drain := none }

/-- The seal of the job's mark has begun (R87, R124, R143, R160, R179). -/
def State.sealBegun (s : State) : Bool :=
  match s.pages.mark with
  | some m => m.begun
  | none => false

/-- A short job reaches its outcome: with the seal-at-end flag it places its mark and waits, otherwise it hands its result
back (R87, R160, R179). -/
def finishJob (kind : JobKind) (r : JobResult) (s : State) : State :=
  if s.seals then
    placeMark (if r.code = .none then .jobEnd else .abort) (s.setJob (some (.sealWait kind r)))
  else handResult r s

/-- A short job ends with a result for which the spec states no detail (log 15). -/
def finishOpen (kind : JobKind) (c : ResultCode) (s : State) : State :=
  finishJob kind (plainResult c (openDetail s)) s.spendFree

/-- Write back the statuses of stations from entry `i` on (R127, R143, R195). -/
def statusFields : Nat → List StationSlot → Fields
  | _, [] => []
  | i, st :: rest => (0x80 + 24 * i + 0x15, leBytes 1 st.status.code) :: statusFields (i + 1) rest

/-- The station list is released (R143, R145). -/
def releaseStations (s : State) : State := s.setPhoto { s.photo with stations := [], inlineBase := none }

/-- Replace the running SCAN job's values. -/
def putScan (j : ScanJob) (s : State) : State := s.setJob (some (.scan j))

/-- Replace the running PHOTO job's values. -/
def putPhoto (p : PhotoJob) (s : State) : State := s.setJob (some (.photo p))

/-- The job-end write-back fields of a SCAN job (R127, R195). -/
def scanEndFields (j : ScanJob) (azimuth : Angle) (stations : List StationSlot) : Fields :=
  [(0x60, leBytes 4 (j.linesCompleted - j.linesStored)), (0x64, leBytes 4 j.shotsLost), (0x68, leBytes 8 j.shotsStored),
   (0x70, leBytes 8 j.echoesStored), (0x78, leBytes 4 azimuth.toNat)] ++ statusFields 0 stations

/-- The result of a SCAN job (R127). -/
def scanResult (j : ScanJob) (azimuth : Angle) (stations : List StationSlot) : JobResult :=
  match j.cause with
  | none => ⟨.none, 0, scanEndFields j azimuth stations⟩
  | some c => ⟨c, j.linesCompleted, scanEndFields j azimuth stations⟩

/-- A SCAN job ends: the turntable decelerates, the azimuth is sampled, the station statuses are asked for, and write-back
and result are handed over (R126, R127). -/
def endScan (j : ScanJob) (s : State) : State :=
  handResult (scanResult j s.azimuth s.photo.stations) (releaseStations (decelerate s))

/-- The detail of a PHOTO job that has failed: the index of the station at which it failed or to which it was moving
(R143). For a cause that came in the seal wait, when every station had ended and none was being moved to, the spec states
none: it is open (log 15, 34). -/
def photoDetail (p : PhotoJob) (s : State) : Nat := if p.lateCause then openDetail s else p.index

/-- The result of a PHOTO job: DONE with detail 0, or FAILED with its cause and a detail (R143). -/
def photoResult (p : PhotoJob) (detail : Nat) (stations : List StationSlot) : JobResult :=
  let fields := (0x28, leBytes 4 p.done) :: statusFields 0 stations
  match p.cause with
  | none => ⟨.none, 0, fields⟩
  | some c => ⟨c, detail, fields⟩

/-- A PHOTO job hands back its result and its station list is released (R143, steps 2 and 3). -/
def handPhoto (p : PhotoJob) (s : State) : State :=
  handResult (photoResult p (photoDetail p s) s.photo.stations)
    (releaseStations (if p.lateCause then s.spendFree else s))

/-- A PHOTO job comes to its end (R143, step 1). In the event that reports a descriptor fault it hands its result back
instead (R143, log 33). -/
def endPhotoJob (p : PhotoJob) (s : State) : State :=
  if s.seals then
    placeMark (if p.cause = none then .jobEnd else .abort) (putPhoto { p with sealWait := true } s)
  else handPhoto p s

/-- A job that waits on its mark or drain point is told that it is done: the seal has completed, there was nothing to
seal, or the drain point is reached (R101). -/
def jobTold (s : State) : State :=
  match s.job with
  | some (.sealWait _ r) => handResult r s
  | some (.scan j) => if j.endWait = .none then s else endScan j s
  | some (.photo p) => if p.sealWait then handPhoto p s else s
  | _ => s

/-- The discard of a SCAN job: its mark or drain point is withdrawn, its queued records are discarded and the shots
counted, and it ends without a seal (R124). -/
def discardScan (j : ScanJob) (s : State) : State :=
  let (s1, gone) := discardQueued (clearMark s)
  endScan { j with shotsLost := satAdd 32 j.shotsLost gone.shots } s1

end Sys2Proof.Machine
end

