-- ==== Sys2Proof/Machine/Pages.lean ====
section
/-! DEFINITION. The Page Manager (file 05): passes, takes, record writes, seals, the job-end mark, and what it does at the
end of every event that may have moved it. -/

namespace Sys2Proof.Machine

/-! ## Exhaustion (R93) -/

/-- A SCAN that drains after an ABORT is discarded when PAGE-WAIT is set (R124, R126). -/
def discardOnPageWait (s : State) : State :=
  match s.job with
  | some (.scan j) =>
    if j.phase = .ending ∧ j.endWait ≠ .none ∧ j.abortTaken ∧ s.pages.wait then discardScan j s else s
  | _ => s

/-- PAGE-WAIT becomes set, with its notice if it was clear (R93). -/
def setPageWait (s : State) : State :=
  if s.pages.wait then s else raise .pageWait (s.setPages { s.pages with wait := true })

/-- Exhaustion (R93), and what it brings to a draining scan. -/
def exhaust (s : State) : State := discardOnPageWait (setPageWait s)

/-! ## Passes (R90, R94) -/

/-- Address of descriptor `i` of a table (R88). -/
def descriptorAddr (table : Nat × Nat) (i : Nat) : Nat := table.1 + 64 * i

/-- The index of the `k`-th descriptor of a pass (R90). -/
def passIndex (p : Pages) (count k : Nat) : Nat := (p.nextExamine + k) % count

/-- Read the `k`-th descriptor of the pass (R90). -/
def readDescriptor (table : Nat × Nat) (k : Nat) (s : State) : State :=
  request (readTransfer .descriptor .descriptorRead (descriptorAddr table (passIndex s.pages table.2 k)) 64)
    (s.setPages { s.pages with pass := some k })

/-- A pass may begin: a record waits, no page is current and no pass is in progress (R90). -/
def State.passDue (s : State) : Bool := s.recordWaits && s.pages.current.isNone && s.pages.pass.isNone

/-- An event of R90: a pass begins when one is due; with no table, or in PAGE-FAULT, exhaustion is entered instead
(R90, R93). -/
def openPass (s : State) : State :=
  if s.passDue then
    (if s.pages.fault then exhaust s
     else match s.pages.table with
       | none => exhaust s
       | some t => readDescriptor t 0 s)
  else s

/-- An event of R94: an index while a SCAN runs, a LOOK, a poll tick. During a pass it sets look-again. -/
def wakePages (s : State) : State :=
  if s.pages.pass.isSome then s.setPages { s.pages with lookAgain := true } else openPass s

/-- A pass ends without a page: exhaustion, and at once a new pass if look-again was set (R90, R93, R94). -/
def passEnds (s : State) : State :=
  let s1 := exhaust (s.setPages { s.pages with pass := none, lookAgain := false })
  if s.pages.lookAgain then openPass s1 else s1

/-! ## Taking a page (R91) -/

/-- The device-written fields of a descriptor, as take and seal write them (R91, R98, R196). -/
def pageFields (p : Page) : Fields :=
  [(0x1C, leBytes 4 p.fill), (0x20, leBytes 4 p.sequence), (0x24, leBytes 1 (sealCode p.sealing)),
   (0x28, leOption 4 p.firstLine), (0x30, leOption 8 p.firstShot)]

/-- A write into the current page's descriptor. It spans its fields down and up to whole 8-byte units, so that a take or seal
field write is the 32 bytes from 18h on and a state write the 8 bytes from 00h on (the model's choice, log 71). -/
def descriptorWrite (purpose : Purpose) (p : Page) (fs : Fields) (s : State) : State :=
  let w := fs.toWrite
  request (maskedTransfer .descriptor purpose
    (descriptorAddr (s.pages.table.getD (0, 0)) p.index + w.offset) w.data w.mask) s

/-- The write of a descriptor's state field (R91, R98, R196). -/
def descriptorState (purpose : Purpose) (p : Page) (code : Nat) (s : State) : State :=
  descriptorWrite purpose p [(0, leBytes 1 code)] s

/-- The next value of the sequence counter (R91). -/
def nextSequence (n : Nat) : Nat := if n = 2 ^ 32 - 1 then 1 else n + 1

/-- The page record a take forms (R91). -/
def takenPage (i : Nat) (d : List Byte) (s : State) : Page :=
  { index := i, autoSeal := descAutoSeal d, notify := descNotify d, highWater := descHighWater d, base := descBase d,
    size := descSize d, sequence := nextSequence s.pages.sequence, fill := 0, issue := 0,
    firstLine := s.firstUnissued.bind (fun e => e.record.line?),
    firstShot := s.firstUnissued.bind (fun e => e.record.shot?),
    holdsHeader := false, contIssued := false, sealing := none, stage := .takeField }

/-- The page of descriptor `i` is taken (R91). -/
def takePage (i : Nat) (d : List Byte) (count : Nat) (s : State) : State :=
  let p := takenPage i d s
  descriptorWrite .takeField p (pageFields p) (s.setPages { s.pages with
    sequence := p.sequence, current := some p, nextExamine := (if i + 1 = count then 0 else i + 1), wait := false,
    pass := none, lookAgain := false })

/-- A descriptor has been read in a pass: it is classified (R90, R92). -/
def descriptorRead (d : List Byte) (s : State) : State :=
  match s.pages.pass, s.pages.table with
  | some k, some t =>
    let i := passIndex s.pages t.2 k
    if descState d = 1 ∧ descValid d then takePage i d t.2 s
    else
      let s1 := if descState d = 1 ∨ 3 < descState d then s.setPages { s.pages with bad := true } else s
      if k + 1 < t.2 then readDescriptor t (k + 1) s1 else passEnds s1
  | _, _ => s

/-- Replace the current page. -/
def putPage (p : Page) (s : State) : State := s.setPages { s.pages with current := some p }

/-- The take field write is complete: the state write OPEN follows (R91). -/
def takeFieldWritten (s : State) : State :=
  match s.pages.current with
  | some p => descriptorState .takeState p 2 (putPage { p with stage := .takeState } s)
  | none => s

/-- The state write OPEN is complete: record writes may be issued (R91). -/
def takeStateWritten (s : State) : State :=
  match s.pages.current with
  | some p => putPage { p with stage := .ready } s
  | none => s

/-! ## Seals (R98, R101) -/

/-- The seal of the current page begins with a reason (R98, step 1). -/
def beginSeal (r : SealReason) (p : Page) (s : State) : State := putPage { p with sealing := some r } s

/-- No record write is outstanding to the current page (R98, step 2). -/
def State.drained (s : State) : Bool := s.port.recordWait.isEmpty && s.port.recordOut.isEmpty

/-- A seal begun on a drained page writes its fields (R98, step 3); its take writes come first (log 24). -/
def sealProgress (s : State) : State :=
  match s.pages.current with
  | some p =>
    if p.sealing.isSome ∧ p.stage = .ready ∧ s.drained then
      descriptorWrite .sealField p (pageFields p) (putPage { p with stage := .sealField } s)
    else s
  | none => s

/-- The seal field write is complete: the state write SEALED follows (R98). -/
def sealFieldWritten (s : State) : State :=
  match s.pages.current with
  | some p => descriptorState .sealState p 3 (putPage { p with stage := .sealState } s)
  | none => s

/-- The SEALED write is complete: no page is current, PAGE-SEALED may be raised, and the job that waits on the seal is
told (R98). -/
def sealStateWritten (s : State) : State :=
  match s.pages.current with
  | some p =>
    let s1 := s.setPages { s.pages with current := none }
    let s2 := if p.notify then raise .pageSealed s1 else s1
    if s.sealBegun then jobTold (clearMark s2) else s2
  | none => s

/-- The job-end mark, once reached: the seal begins, or the mark joins a seal that has begun, or with no page current
there is nothing to seal (R101). While a page is being abandoned nothing is decided (R104). -/
def markReached (m : EndMark) (s : State) : State :=
  match s.pages.current with
  | none => jobTold (clearMark s)
  | some p =>
    if p.stage = .abandoned then s
    else
      let s1 := s.setPages { s.pages with mark := some { m with begun := true } }
      match p.sealing with
      | none => beginSeal m.reason p s1
      | some _ => s1

/-- Look whether the job-end mark or drain point has been reached (R101). -/
def checkMark (s : State) : State :=
  match s.pages.mark, s.pages.drain with
  | some m, _ => if !m.begun && s.reached m.bound then markReached m s else s
  | none, some b => if s.reached b then jobTold (clearMark s) else s
  | none, none => s

/-! ## Record writes (R95 to R99) -/

/-- Record transfers that may be outstanding at once (R95). -/
def maxRecordTransfers : Nat := 4

/-- Record transfers issued by the Page Manager and not completed. -/
def State.recordsInFlight (s : State) : Nat := s.port.recordWait.length + s.port.recordOut.length

/-- The line a queued record belongs to, with its job (log 29). -/
def Entry.lineId (e : Entry) : Option (Nat × Nat) := e.record.line?.map (fun l => (e.job, l))

/-- The record is a SHOT or LINE TRAILER (R97). -/
def Rec.followsHeader : Rec → Bool
  | .shot _ | .trailer _ => true
  | .header _ | .gap _ | .photo _ | .mark _ _ => false

/-- A record of the line in progress goes into a page that holds no header of that line: a continuation header is due
(R97). -/
def needsContinuation (line : Option (Nat × HeaderRec)) (p : Page) (e : Entry) : Bool :=
  match line with
  | none => false
  | some (job, h) =>
    !p.holdsHeader && !p.contIssued && e.record.followsHeader && decide (e.lineId = some (job, h.line))

/-- Size of a continuation header (R97). -/
def contSize : Nat := 48

/-- Bytes a queued record needs in the page (R95). -/
def bytesNeeded (line : Option (Nat × HeaderRec)) (p : Page) (e : Entry) : Nat :=
  e.record.size + (if needsContinuation line p e then contSize else 0)

/-- The record fits into the rest of the page (R95). -/
def fits (line : Option (Nat × HeaderRec)) (p : Page) (e : Entry) : Bool :=
  decide (p.issue + bytesNeeded line p e ≤ p.size)

/-- The page takes records: open, its seal not begun (R95). -/
def Page.takesRecords (p : Page) : Bool := decide (p.stage = .ready) && p.sealing.isNone

/-- Mark a queued record's write as issued. -/
def markIssued (seq : Nat) (es : List Entry) : List Entry :=
  es.map (fun e => if e.seq = seq then { e with issued := true } else e)

/-- The continuation header of the line in progress is issued (R97). -/
def issueContinuation (h : HeaderRec) (p : Page) (s : State) : State :=
  request (writeTransfer .record .continuation (p.base + p.issue) (headerBytes true h))
    (putPage { p with issue := p.issue + contSize, contIssued := true } s)

/-- A trailer issued into an auto-seal page at or above its high-water begins the seal (R99). -/
def highWaterSeal (p : Page) (r : Rec) : Option SealReason :=
  match r with
  | .trailer _ => if p.autoSeal ∧ p.highWater ≤ p.issue then some .highWater else none
  | .header _ | .shot _ | .gap _ | .photo _ | .mark _ _ => none

/-- The discarding line once a record has been issued: a LINE HEADER of another line ends it (R105). -/
def discardingAfter (d : Option (Nat × Nat)) (r : Rec) : Option (Nat × Nat) :=
  match r with
  | .header _ => none
  | .shot _ | .trailer _ | .gap _ | .photo _ | .mark _ _ => d

/-- A queued record's write is issued (R95). -/
def issueRecord (e : Entry) (p : Page) (s : State) : State :=
  let p1 := { p with issue := p.issue + e.record.size }
  let s1 := s.setStaging { s.staging with entries := markIssued e.seq s.staging.entries }
  request (writeTransfer .record .record (p.base + p.issue) e.record.bytes)
    (s1.setPages { s1.pages with
      current := some { p1 with sealing := highWaterSeal p1 e.record },
      discarding := discardingAfter s1.pages.discarding e.record })

/-- The next write of the record path, if one may be issued now (R95, R97). -/
def issueStep (s : State) : Option State :=
  match s.pages.current, s.firstUnissued with
  | some p, some e =>
    if p.takesRecords && fits s.pages.line p e && decide (s.recordsInFlight < maxRecordTransfers) then
      (match s.pages.line with
       | some (_, h) => if needsContinuation s.pages.line p e then some (issueContinuation h p s) else some (issueRecord e p s)
       | none => some (issueRecord e p s))
    else none
  | _, _ => none

/-- The next record does not fit into the rest of the page: the seal begins with reason FULL (R96). -/
def sealIfFull (s : State) : State :=
  match s.pages.current, s.firstUnissued with
  | some p, some e => if p.takesRecords && !fits s.pages.line p e then beginSeal .full p s else s
  | _, _ => s

/-- Remove a queued record. -/
def removeEntry (seq : Nat) (s : State) : State :=
  s.setStaging { s.staging with entries := s.staging.entries.filter (fun e => decide (e.seq ≠ seq)) }

/-- What the removal of a record of a lost line counts, and whether it ends the discarding line (R105). -/
def countLost (e : Entry) (s : State) : State :=
  match e.record with
  | .shot _ => s.setLoss s.loss.addShot
  | .trailer t =>
    if s.pages.discarding = some (e.job, t.line) then s.setPages { s.pages with discarding := none } else s
  | .photo _ => s.setLoss s.loss.addOther
  | .mark _ _ => s.setLoss s.loss.addOther
  | .gap g => s.setLoss (s.loss.addBack g)
  | .header _ => s

/-- A record of the discarding line at the head of the unissued ones is removed (R105). -/
def dropStep (s : State) : Option State :=
  match s.firstUnissued, s.pages.discarding with
  | some e, some d => if e.lineId = some d then some (countLost e (removeEntry e.seq s)) else none
  | _, _ => none

/-- Remove the records of the discarding line from the head of the unissued ones. -/
def dropHeads : Nat → State → State
  | 0, s => s
  | n + 1, s =>
    match dropStep s with
    | some t => dropHeads n t
    | none => s

/-- Issue what may be issued, in queue order, until nothing more may be or the page is full (R95, R96). -/
def issueRecords : Nat → State → State
  | 0, s => s
  | n + 1, s =>
    match dropStep s with
    | some t => issueRecords n t
    | none =>
      match issueStep s with
      | some t => issueRecords n t
      | none => sealIfFull s

/-- What the Page Manager does at the end of an event: records of the discarding line go, the mark is looked at, records
are issued, a seal goes on, a record that has come to wait begins a pass or exhaustion (R90, R93, R95, R98, R101, R105;
log 25). -/
def advancePages (s : State) : State :=
  let n := s.staging.entries.length
  let s1 := checkMark (dropHeads n s)
  let s2 := sealProgress (issueRecords (n + 8) s1)
  discardOnPageWait (if s2.pages.wait then s2 else openPass s2)

/-! ## Completed record writes (R95, R119) -/

/-- A completed write raises the fill (R95). -/
def raiseFill (n : Nat) (s : State) : State :=
  match s.pages.current with
  | some p => putPage { p with fill := p.fill + n } s
  | none => s

/-- First line and first shot of the page, set at the first completed record that bears them (R95). -/
def setFirsts (r : Rec) (s : State) : State :=
  match s.pages.current with
  | some p =>
    putPage { p with
      firstLine := (match p.firstLine with | none => r.line? | some l => some l),
      firstShot := (match p.firstShot with | none => r.shot? | some n => some n) } s
  | none => s

/-- A scan's own SHOT record has been written (R119). -/
def scanShotStored (echoes : Nat) (j : ScanJob) (s : State) : State :=
  putScan { j with shotsStored := satAdd 64 j.shotsStored 1, echoesStored := satAdd 64 j.echoesStored echoes } s

/-- A scan's own LINE TRAILER has been written: progress write-back (R119). -/
def scanTrailerStored (line : Nat) (j : ScanJob) (s : State) : State :=
  pushProgress [(0x48, leBytes 4 (j.linesStored + 1)), (0x4C, leBytes 4 line)]
    (putScan { j with linesStored := j.linesStored + 1, lastStored := some line } s)

/-- The awaited MARK record has been written: its job reaches DONE with detail 0 (R87). -/
def markWritten (seq : Nat) (s : State) : State :=
  if s.markWait = some seq ∧ s.job = some .markWait then finishJob .mark (plainResult .none 0) (s.setMarkWait none) else s

/-- What the completion of a record brings beyond the fill (R95). -/
def recordReport (e : Entry) (s : State) : State :=
  match e.record with
  | .header h =>
    let s1 := s.setPages { s.pages with line := some (e.job, h) }
    (match s1.pages.current with
     | some p => putPage { p with holdsHeader := true } s1
     | none => s1)
  | .shot r =>
    (match s.job with
     | some (.scan j) => if e.job = s.jobSerial then scanShotStored r.echoes.length j s else s
     | _ => s)
  | .trailer t =>
    let s1 := if s.pages.line.map (fun x => (x.1, x.2.line)) = some (e.job, t.line)
      then s.setPages { s.pages with line := none } else s
    (match s1.job with
     | some (.scan j) => if e.job = s1.jobSerial then scanTrailerStored t.line j s1 else s1
     | _ => s1)
  | .mark _ _ => markWritten e.seq s
  | .gap _ => s
  | .photo _ => s

/-- A record's write is complete: the fill rises, the record leaves the head of the queue and is reported onward (R80,
R95). -/
def recordWritten (len : Nat) (s : State) : State :=
  match s.staging.entries with
  | e :: rest =>
    recordReport e (setFirsts e.record (raiseFill len (s.setStaging { s.staging with entries := rest })))
  | [] => s

/-- A continuation header's write is complete: the page holds a header of the line in progress (R97). -/
def continuationWritten (len : Nat) (s : State) : State :=
  let s1 := raiseFill len s
  match s1.pages.current with
  | some p =>
    putPage { p with
      contIssued := false, holdsHeader := true,
      firstLine := (match p.firstLine with | none => s1.pages.line.map (fun x => x.2.line) | some l => some l) } s1
  | none => s1

/-! ## Abandonment (R104, R105) -/

/-- Count every record whose write was issued into the abandoned page and had not completed (R105). -/
def countAll : List Entry → State → State
  | [], s => s
  | e :: es, s => countAll es (countLost e s)

/-- The abandonment ends once every outstanding write has: no page is current, and the records issued into it are removed
and counted (R104, step 3). -/
def endAbandon (s : State) : State :=
  match s.pages.current with
  | some p =>
    if p.stage = .abandoned ∧ s.drained then
      let es := s.staging.entries
      countAll (es.filter (fun e => e.issued))
        ((s.setPages { s.pages with current := none }).setStaging
          { s.staging with entries := es.filter (fun e => !e.issued) })
    else s
  | none => s

/-- The Page Manager at either reset (R89, R107). -/
def Pages.clear : Pages :=
  { table := none, nextExamine := 0, sequence := 0, current := none, pass := none, lookAgain := false, wait := false,
    fault := false, bad := false, line := none, discarding := none, mark := none, drain := none }

end Sys2Proof.Machine
end

