-- ==== Sys2Proof/Machine/Scan.lean ====
section
/-! DEFINITION. The SCAN job's own events (file 06): its take, the phases before the first line, a closed line, and
ENDING. What a failure does while SCANNING stands in Failures. -/

namespace Sys2Proof.Machine

/-! ## Take (R109, R110, R150) -/

/-- The active sector `[a, b)` and the blind sector `[p, q)` have some angle in common; a blind sector may pass through
angle 0, and one whose ends are equal is empty (R108, R150). -/
def sectorMeetsBlind (a b p q : Nat) : Bool :=
  if p < q then decide (a < q ∧ p < b)
  else if p = q then false
  else decide (p < b ∨ a < q)

/-- Item 5 of R109: the sector is in range and, under a valid profile, does not meet its blind sector. -/
def sectorAllowed (p : ScanParams) (sl : Option Slot) : Bool :=
  decide (1 ≤ p.sectorStart ∧ p.sectorStart < p.sectorStop ∧ p.sectorStop < revolution) &&
  (match sl with
   | none => true
   | some x => !sectorMeetsBlind p.sectorStart p.sectorStop x.profile.blindStart x.profile.blindStop)

/-- Item 7 of R109: the start zone is a zone and, under a valid profile, lies below its in-flight bound. -/
def zoneAllowed (p : ScanParams) (sl : Option Slot) : Bool :=
  decide (p.startZone ≤ 31) &&
  (match sl with
   | none => true
   | some x => decide (p.startZone < x.bound))

/-- Product of line step and mirror target rate that a scan may not exceed (R109, item 9). -/
def topProduct : Nat := 34952500

/-- Longest exposure of an inline station, in µs (R108). -/
def inlineExposure : Nat := 2000

/-- Items 1 to 9 of R109 in rising detail number. -/
def scanItems (p : ScanParams) (sl : Option Slot) (target : Nat) : List (Nat × Bool) :=
  [(1, decide (p.slot ≤ 3)),
   (2, decide (p.startAz < revolution)),
   (3, decide (1 ≤ p.step ∧ p.step ≤ 65536)),
   (4, decide (1 ≤ p.lines ∧ p.lines ≤ 1000000)),
   (5, sectorAllowed p sl),
   (6, decide (1 ≤ p.echoLimit ∧ p.echoLimit ≤ 8)),
   (7, zoneAllowed p sl),
   (8, decide (p.count ≤ 16)),
   (9, decide (p.step * target ≤ topProduct))]

/-- The first failing item of check 1 of R109; station `i` is item 16 + `i`. -/
def firstBadItem (p : ScanParams) (sl : Option Slot) (target : Nat) : Option Nat :=
  match firstFailure (scanItems p sl target) with
  | some n => some n
  | none => firstBadStation inlineExposure 16 p.stations

/-- The checks of R109 in order: the failure they give, none when all four pass. -/
def scanRefusal (p : ScanParams) (s : State) : Option JobResult :=
  let sl := s.slots.get p.slot
  match firstBadItem p sl s.mirror.target with
  | some n => some (plainResult .badParam n)
  | none =>
    if sl.isNone then some (plainResult .noProfile p.slot)
    else if !s.emission.asserted then some (plainResult .emissionOff 0)
    else if !s.mirror.state.driveOn then some (plainResult .notSpinning 0)
    else none

/-- A SCAN job at take (R111). The run-in values are 0 until POSITION and RUN-IN compute them, which R111 leaves open (the
model's choice, log 68). -/
def newScan (p : ScanParams) : ScanJob :=
  { params := p, phase := .hold, cause := none, stop := none, abortTaken := false, discardDue := false,
    linesCompleted := 0, lastClosed := none, linesStored := 0, lastStored := none, flags := .clear, zone := p.startZone,
    shotsLost := 0, shotsStored := 0, echoesStored := 0, runInPoint := 0, indexCount := 0, runInDelay := 0,
    entryDistance := 0, runInStage := .index, endWait := .none }

/-- The Shot Scheduler at SCAN take (R25). -/
def Scheduler.atTake (x : Scheduler) : Scheduler :=
  { x with nextShot := 0, lastFire := none, jitterIndex := 0, firing := .noLine }

/-- The Record Builder's line state at SCAN take and after either reset (R66). -/
def LineState.fresh : LineState :=
  { phase := .none, started := 0, number := none, lost := false, truncated := false, marks := .clear, flags := .clear,
    stored := 0, shotsLost := 0, refMisses := 0, report := none, stopTaken := false, missRun := 0 }

/-- A station list as it is handed over: every status NOT-REACHED (R110, R139). -/
def freshStations (l : List Station) : List StationSlot := l.map (fun st => { station := st, status := .notReached })

/-- A SCAN job starts: the values of the "At SCAN take" columns are set and the stations are handed over (R110, R144). -/
def startScan (p : ScanParams) (s : State) : State :=
  let offset := match s.slots.get p.slot with
    | none => 0
    | some x => x.profile.cameraOffset
  let s1 := (s.setSched s.sched.atTake).setLine LineState.fresh
  let s2 := s1.setTracker { zone := p.startZone, candidate := none, agree := 0, lastRange := none }
  let s3 := s2.setIntake { s.intake with pendingStrays := 0, jobStrays := 0 }
  let s4 := s3.setPhoto { s.photo with
    stations := freshStations p.stations, inlineBase := some { startAz := p.startAz, step := p.step, offset := offset } }
  putScan (newScan p) s4

/-! ## Before the first line (R112 to R116) -/

/-- A SCAN job fails in HOLD, POSITION or RUN-IN (R116). -/
def failPre (c : ResultCode) (j : ScanJob) (s : State) : State :=
  let j1 := { j with cause := some c }
  let s1 := decelerate s
  if s.seals then placeMark .abort (putScan { j1 with endWait := .mark } s1) else endScan j1 s1

/-- Counts of run-in (R113, R114). -/
def runInCounts : Nat := 16384

/-- The run-in point: the start azimuth less 16,384, modulo a revolution (R113). -/
def runInPointOf (p : ScanParams) : Angle := BitVec.ofNat 22 p.startAz - BitVec.ofNat 22 runInCounts

/-- The index count J = ceil(16,384 ÷ s) (R114). -/
def indexCountOf (step : Nat) : Nat := ceilDiv runInCounts step

/-- The lead J × s − 16,384 (R114). -/
def leadOf (step : Nat) : Nat := indexCountOf step * step - runInCounts

/-- The run-in delay (lead ÷ s) × P to the nearest fine unit, P the nominal period at a target rate in 0.01 rev/s
(R114, log 13). -/
def runInDelayOf (step target : Nat) : Nat :=
  roundDiv (leadOf step * (100 * fineSec)) (step * target) (Config.delayTieUp (leadOf step) step target)

/-- The entry distance: 16,384 less half the step, the difference rounded down (R115, log 55). -/
def entryDistanceOf (step : Nat) : Nat := (2 * runInCounts - step) / 2

/-- RUN-IN is entered (R114). -/
def enterRunIn (j : ScanJob) (s : State) : State :=
  putScan { j with
    phase := .runIn, indexCount := indexCountOf j.params.step,
    runInDelay := runInDelayOf j.params.step s.mirror.target, entryDistance := entryDistanceOf j.params.step,
    runInStage := .index } s

/-- POSITION is entered: the head is sent to the run-in point (R113). -/
def enterPosition (j : ScanJob) (s : State) : State :=
  let target := runInPointOf j.params
  let settle := match s.slots.get j.params.slot with
    | none => 0
    | some x => x.profile.settleMs
  let j1 := { j with phase := .position, runInPoint := target }
  let r := moveRequest target settle s
  match r.2 with
  | .nothing => putScan j1 r.1
  | .arrived => enterRunIn j1 r.1
  | .fault => failPre .turntableFault j1 r.1

/-- The track request of RUN-IN, its rate s × target ÷ 100 counts per second (R114). -/
def issueTrack (j : ScanJob) (s : State) : State :=
  let r := trackRequest (j.params.step * s.mirror.target) s
  match r.2 with
  | .fault => failPre .turntableFault j r.1
  | .nothing | .arrived => putScan { j with runInStage := .travel } r.1

/-- An index taken in RUN-IN: the first one starts the run-in delay, or with no lead issues the track request (R114). -/
def runInIndex (j : ScanJob) (s : State) : State :=
  match j.runInStage with
  | .index =>
    if leadOf j.params.step = 0 then issueTrack j s
    else putScan { j with runInStage := .delay (s.now + j.runInDelay) } s
  | .delay _ | .travel => s

/-- The travel of the run-in: the azimuth less the run-in point, modulo a revolution (R115). -/
def travelOf (j : ScanJob) (azimuth : Angle) : Nat := (azimuth - j.runInPoint).toNat

/-- The run-in is complete (R115). -/
def runInDone (j : ScanJob) (azimuth : Angle) : Bool :=
  decide (j.entryDistance ≤ travelOf j azimuth) && decide (travelOf j azimuth < 2097152)

/-- A SCAN block is dispatched: it fails a check and ends at once, or starts, and leaves HOLD at once if the mirror is
LOCKED (R109, R110). -/
def takeScan (s : State) : State :=
  let p := scanParams s.reader.block
  match scanRefusal p s with
  | some r => handResult r s
  | none =>
    let s1 := startScan p s
    if s.mirror.state = .locked then enterPosition (newScan p) s1 else s1

/-! ## Ending (R122, R125, R126) -/

/-- The drain begins: the first of R126's conditions that holds; a discard asked for in the photo wait comes first
(R124, log 53). -/
def beginDrain (j : ScanJob) (s : State) : State :=
  if j.discardDue ∨ (j.abortTaken ∧ s.pages.wait) then discardScan j s
  else if s.pages.fault then endScan j s
  else if s.seals ∨ j.cause.isSome then
    placeMark (if j.cause = none then .jobEnd else .abort) (putScan { j with endWait := .mark } s)
  else placeDrain (putScan { j with endWait := .drain } s)

/-- An inline photograph of the job is in progress (R125). -/
def State.inlinePhoto (s : State) : Bool :=
  match s.photo.current with
  | none => false
  | some p => p.isInline

/-- The job leaves SCANNING for ENDING: the sector is cleared, the permit falls, and the photo wait begins (R122, R125). -/
def enterEnding (j : ScanJob) (s : State) : State :=
  let j1 := { j with phase := .ending }
  let s1 := (s.setSector { bounds := none, inside := false }).setSched { s.sched with permit := false }
  if s.inlinePhoto then putScan j1 s1 else beginDrain j1 s1

/-- What a closed line reports to the running SCAN job (R73). -/
structure LineReport where
  line      : Nat
  flags     : DetailFlags
  shotsLost : Nat
  zone      : Nat
deriving DecidableEq, Repr

/-- The job's values after a closed line (R118). -/
def ScanJob.lineClosed (j : ScanJob) (r : LineReport) : ScanJob :=
  { j with linesCompleted := j.linesCompleted + 1, lastClosed := some r.line, flags := j.flags.union r.flags,
           zone := r.zone, shotsLost := satAdd 32 j.shotsLost r.shotsLost }

/-- The fields of the progress write-back of a closed line (R118, R195). -/
def closeFields (j : ScanJob) (shots strays : Nat) : Fields :=
  [(0x40, leBytes 4 j.linesCompleted), (0x44, leOption 4 j.lastClosed), (0x50, leBytes 8 shots),
   (0x58, leBytes 4 strays), (0x5C, leBytes 1 j.flags.toByte), (0x5D, leBytes 1 j.zone)]

/-- SCANNING ends with this closed line (R122). -/
def ScanJob.lastLineClosed (j : ScanJob) : Bool := decide (j.params.lines ≤ j.linesCompleted) || j.cause.isSome

/-- The running SCAN job takes a closed line: its values, a progress write-back, and the test for ENDING (R118, R122). -/
def scanLineClosed (r : LineReport) (s : State) : State :=
  match s.job with
  | some (.scan j) =>
    let j1 := j.lineClosed r
    let s1 := pushProgress (closeFields j1 s.sched.nextShot s.intake.jobStrays) (putScan j1 s)
    if j1.phase = .scanning ∧ j1.lastLineClosed then enterEnding j1 s1 else s1
  | _ => s

end Sys2Proof.Machine
end

