-- ==== Sys2Proof/Machine/Lines.lean ====
section
/-! DEFINITION. The Record Builder's lines and shots (file 04): a line's opening with the tracking check, its marks, its
close, and what a shot that closes gives. -/

namespace Sys2Proof.Machine

/-- The running SCAN job, if one runs. -/
def State.scanJob (s : State) : Option ScanJob :=
  match s.job with
  | some (.scan j) => some j
  | _ => none

/-- The slot of the running SCAN job (R26, R110). -/
def State.scanSlot (s : State) : Option Slot := s.scanJob.bind (fun j => s.slots.get j.params.slot)

/-- A SCAN job is SCANNING. -/
def State.scanning (s : State) : Bool :=
  match s.scanJob with
  | none => false
  | some j => decide (j.phase = .scanning)

/-! ## Opening (R16, R67, R68) -/

/-- Tolerance of the tracking check in counts (R16). -/
def trackTolerance : Nat := 600
/-- Consecutive out-of-tolerance lines that fault the turntable (R16). -/
def trackLimit : Nat := 3

/-- An index taken now opens a line (R67). -/
def lineMayOpen (j : ScanJob) (s : State) : Bool :=
  decide (j.phase = .scanning) && j.stop.isNone && decide (s.line.phase = .none) && decide (s.line.started < j.params.lines)

/-- The expected azimuth of a line (R16, R117). -/
def expectedAzimuth (p : ScanParams) (line : Nat) : Angle := BitVec.ofNat 22 (p.startAz + line * p.step)

/-- The tracking error of a line: the sampled azimuth less the expected one, the shorter way round (R16). -/
def trackError (p : ScanParams) (line : Nat) (s : State) : Int := circleError s.azimuth (expectedAzimuth p line)

/-- The running SCAN job takes a turntable fault while SCANNING: a failure cause, no stop request (R121). -/
def scanTrackFault (s : State) : State :=
  match s.job with
  | some (.scan j) =>
    if s.requestIsOurs then putScan { j with cause := (match j.cause with | none => some .turntableFault | some c => some c) } s
    else s
  | _ => s

/-- The tracking check of a line, with its report to the line: AZ-ERROR out of tolerance, the TURNTABLE mark at the third
in a row (R16, R17, R69). -/
def trackingCheck (p : ScanParams) (line : Nat) (s : State) : State :=
  if s.turntable.state ≠ .tracking then s
  else if (trackError p line s).natAbs ≤ trackTolerance then s.setTurntable { s.turntable with errorCount := 0 }
  else
    let n := s.turntable.errorCount + 1
    let s1 := (s.setTurntable { s.turntable with errorCount := n }).setLine
      { s.line with flags := { s.line.flags with azError := true } }
    if n < trackLimit then s1
    else scanTrackFault (enterTurntableFault (s1.setLine { s1.line with marks := { s1.line.marks with turntable := true } }))

/-- The LINE HEADER of the line just opened (R68). -/
def headerOf (line : Nat) (s : State) : HeaderRec :=
  { line := line, tag := s.tag, azimuth := s.azimuth.toNat, rate := s.mirror.rate, zone := s.tracker.zone,
    firstShot := s.sched.nextShot, lineTime := lineTime s.now }

/-- The LINE HEADER is offered; not admitted, the line is LOST (R68). -/
def offerHeader (line : Nat) (s : State) : State :=
  let r := offer (.header (headerOf line s)) s
  if r.2 then r.1
  else (r.1.setLine { r.1.line with lost := true, flags := { r.1.line.flags with loss := true } }).setLoss
    (r.1.loss.addLine line r.1.tag)

/-- The Return Matcher's counts at a line's opening (R49, R62). -/
def Intake.atOpen (x : Intake) : Intake :=
  { x with attached := 0, dropped := 0, blanked := 0, strays := 0, straysBefore := x.pendingStrays, pendingStrays := 0 }

/-- The Shot Scheduler at a line's opening (R27). -/
def Scheduler.atOpen (x : Scheduler) : Scheduler :=
  { x with firing := .waiting, lineShots := 0, lineTargets := 0, lineFirst := none, lineLast := none }

/-- The Record Builder's line at its opening (R67, steps 1 and 2). -/
def LineState.atOpen (x : LineState) : LineState :=
  { x with phase := .assembling, started := x.started + 1, number := some x.started, lost := false, truncated := false,
           marks := .clear, flags := .clear, stored := 0, shotsLost := 0, refMisses := 0, report := none,
           stopTaken := false }

/-- A line opens (R67). -/
def openLine (p : ScanParams) (s : State) : State :=
  let n := s.line.started
  let s1 := ((s.setLine s.line.atOpen).setIntake s.intake.atOpen).setSched s.sched.atOpen
  offerHeader n (trackingCheck p n s1)

/-! ## Close (R70 to R73) -/

/-- The detail flags at the close: GAP-ECHO is added (R64, R71). -/
def closingFlags (s : State) : DetailFlags :=
  { s.line.flags with gapEcho := s.line.flags.gapEcho || decide (s.intake.straysBefore ≠ 0) }

/-- The LINE TRAILER (R73). -/
def trailerOf (line : Nat) (r : EndReport) (s : State) : TrailerRec :=
  { line := line, shots := r.shots, targets := r.targets, stored := s.line.stored, shotsLost := s.line.shotsLost,
    attached := s.intake.attached, dropped := s.intake.dropped, blanked := s.intake.blanked, strays := s.intake.strays,
    straysBefore := s.intake.straysBefore, refMisses := s.line.refMisses, zone := s.tracker.zone,
    summary := summaryOf s.line.marks (closingFlags s), flags := closingFlags s }

/-- The line is over: phase NONE, and the Shot Scheduler is told (R27, R70). -/
def lineOver (s : State) : State :=
  (s.setLine { s.line with phase := .none, number := none }).setSched { s.sched with firing := .noLine }

/-- The line closes (R70). -/
def closeLine (line : Nat) (r : EndReport) (s : State) : State :=
  let report : LineReport :=
    { line := line, flags := closingFlags s, shotsLost := s.line.shotsLost, zone := s.tracker.zone }
  let s1 := if s.line.lost then s else (offerReserve (.trailer (trailerOf line r s)) s).1
  lineOver (scanLineClosed report (s1.setLine { s1.line with flags := closingFlags s }))

/-- Some entry of a line is in the open shot list (R64). -/
def State.lineHasShots (s : State) (line : Nat) : Bool := s.shots.any (fun o => decide (o.line = line))

/-- The line is closed if the conditions of R70 hold. -/
def closeCheck (s : State) : State :=
  match s.line.number, s.line.report with
  | some n, some r =>
    if s.line.phase = .draining ∧ ¬ s.lineHasShots n ∧ (r.cause = .permit → s.line.stopTaken = true) then closeLine n r s
    else s
  | _, _ => s

/-- The end-of-firing report is taken, and the line may close at once (R70). -/
def endReport (r : EndReport) (s : State) : State :=
  closeCheck (s.setLine { s.line with phase := .draining, report := some r })

/-- The mark that a stop reason sets (R69). -/
def LineMarks.withStop (m : LineMarks) : StopReason → LineMarks
  | .abort | .referenceLost | .memoryFault => { m with aborted := true }
  | .mirror => { m with mirrorLost := true }
  | .emission => { m with emissionOff := true }

/-- The Record Builder takes the scan's stop request; with no line open it marks none (R69). -/
def markStop (reason : StopReason) (s : State) : State :=
  if s.line.phase = .none then s
  else s.setLine { s.line with marks := s.line.marks.withStop reason, stopTaken := true }

/-! ## Shots that close (R74 to R78, R81) -/

/-- The echo entries of a SHOT record, with their ranges at the offset that stands (R74, R77). -/
def echoEntries (sl : Slot) (o : OpenShot) : List EchoEntry :=
  o.echoes.map (fun e =>
    { range := sl.range ((e.stamp : Int) - o.fire) e.amplitude, amplitude := e.amplitude, width := e.width,
      saturated := e.saturated, uncertain := e.uncertain })

/-- The SHOT record of a target shot (R77, R78). -/
def shotRecord (sl : Slot) (o : OpenShot) : ShotRec :=
  { number := o.number, zone := o.attachZone, angle := o.angle.toNat, azimuth := o.azimuth.toNat, line := o.line,
    overflow := o.overflow, zoneSwitch := o.zoneSwitch, echoes := echoEntries sl o }

/-- The flags a target shot brings to its line (R71). -/
def DetailFlags.withShot (f : DetailFlags) (o : OpenShot) : DetailFlags :=
  { f with echoOverflow := f.echoOverflow || o.overflow, zoneSwitch := f.zoneSwitch || o.zoneSwitch,
           uncertain := f.uncertain || o.echoes.any (fun e => e.uncertain) }

/-- A SHOT record is discarded for want of room (R81). -/
def shotLost (s : State) : State :=
  (s.setLine { s.line with truncated := true, flags := { s.line.flags with loss := true },
                           shotsLost := satAdd 32 s.line.shotsLost 1 }).setLoss s.loss.addShot

/-- A SHOT record is offered, unless the line is LOST; in a TRUNCATED line it is discarded untested (R68, R77, R81). -/
def offerShot (r : ShotRec) (s : State) : State :=
  if s.line.lost then s
  else if s.line.truncated then shotLost s
  else
    let x := offer (.shot r) s
    if x.2 then x.1.setLine { x.1.line with stored := satAdd 32 x.1.line.stored 1 } else shotLost x.1

/-- The running job keeps empty shots (R78). -/
def State.keepsEmpties (s : State) : Bool :=
  match s.scanJob with
  | none => false
  | some j => j.params.keepEmpties

/-- A target shot closes (R71, R77, R78). -/
def targetClosed (sl : Slot) (o : OpenShot) (s : State) : State :=
  let s1 := s.setLine { s.line with flags := s.line.flags.withShot o }
  if o.echoes ≠ [] ∨ s.keepsEmpties then offerShot (shotRecord sl o) s1 else s1

/-- The zero offset after a reference echo: three quarters of the old one and a quarter of the one seen, rounded toward
minus infinity (R75). -/
def newOffset (old seen : Int) : Int := (3 * old + seen) / 4

/-- Consecutive reference misses that lose the reference (R76). -/
def missLimit : Nat := 8

/-- A reference shot closes with an echo: the slot's running zero offset moves (R75). -/
def referenceSeen (slot : Nat) (sl : Slot) (o : OpenShot) (e : Echo) (s : State) : State :=
  let seen := ((e.stamp : Int) - o.fire) - sl.profile.refConstant
  (s.setSlots (s.slots.set slot { sl with offset := newOffset sl.offset seen })).setLine { s.line with missRun := 0 }

/-- A reference shot closes without an echo (R76). -/
def referenceMissed (s : State) : State :=
  s.setLine { s.line with
    flags := { s.line.flags with refMissed := true }, refMisses := satAdd 32 s.line.refMisses 1,
    missRun := min missLimit (s.line.missRun + 1) }

/-- A shot that has left the open shot list is handed to the Record Builder (R42, R74 to R78). -/
def shotClosed (o : OpenShot) (s : State) : State :=
  match s.scanJob, s.scanSlot with
  | some j, some sl =>
    (match o.kind with
     | .target => targetClosed sl o s
     | .reference =>
       match o.echoes with
       | e :: _ => referenceSeen j.params.slot sl o e s
       | [] => referenceMissed s)
  | _, _ => s

/-- This close makes the eighth reference miss in a row (R76). -/
def referenceLostAt (before after : State) : Bool :=
  decide (before.line.missRun < missLimit) && decide (after.line.missRun = missLimit)

end Sys2Proof.Machine
end

