-- ==== Sys2Proof/Machine/Scheduler.lean ====
section
/-! DEFINITION. The Shot Scheduler (file 02): the beam permit, the scheduling of shots, the fire event, and the end of a
line's firing. -/

namespace Sys2Proof.Machine

/-- The line firing state is WAITING or FIRING. -/
def Firing.live : Firing → Bool
  | .waiting | .firing => true
  | .noLine | .ended => false

/-- The report of the end of a line's firing (R37). -/
def firingReport (line : Nat) (cause : EndCause) (x : Scheduler) : EndReport :=
  { line := line, shots := x.lineShots, targets := x.lineTargets, first := x.lineFirst, last := x.lineLast, cause := cause }

/-- The Scheduler when a line's firing has ended (R22, R30). -/
def Scheduler.stopped (x : Scheduler) : Scheduler :=
  { x with firing := .ended, scheduled := none, shotWaits := false, permit := false }

/-- Firing for the open line ends with a cause; in NO-LINE and ENDED it has ended (R30, R36). -/
def endFiring (cause : EndCause) (s : State) : State :=
  if s.sched.firing.live then
    endReport (firingReport (s.line.number.getD 0) cause s.sched) (s.setSched s.sched.stopped)
  else s

/-- Spacing from one shot to shot `n`: the base interval and the jitter entry that `n` selects (R28, R29). -/
def Profile.spacing (p : Profile) (n : Nat) : Nat := p.base + p.jitter.getD (n % 16) 0

/-- Fire time of the first shot of a line, when the permit rises (R28). -/
def firstFireTime (p : Profile) (n now : Nat) : Option Nat → Nat
  | none => now
  | some f => max now (f + p.spacing n)

/-- The four conditions of the beam permit (R22). -/
def State.permitHolds (s : State) : Bool :=
  decide (s.mirror.state = .locked) && s.emission.asserted && s.scanning && s.sched.firing.live && s.sector.inside

/-- The permit rises in WAITING: the line's first shot is scheduled (R28). -/
def permitRises (s : State) : State :=
  match s.scanSlot with
  | none => s
  | some sl => s.setSched { s.sched with
      permit := true, firing := .firing,
      scheduled := some (firstFireTime sl.profile s.sched.nextShot s.now s.sched.lastFire) }

/-- The permit is computed anew at an event that changed one of its inputs (R22, R27, R30). -/
def recomputePermit (s : State) : State :=
  if s.permitHolds then
    (if s.sched.firing = .waiting then permitRises s else s)
  else if s.sched.permit ∧ s.sched.firing = .firing then endFiring .permit s
  else s.setSched { s.sched with permit := false }

/-- Kind of shot `n` under a reference interval (R32). -/
def shotKind (interval n : Nat) : ShotKind := if interval ≠ 0 ∧ n % interval = 0 then .reference else .target

/-- The receiver margin, 2 µs (R33). -/
def receiverMargin : Nat := 128000
/-- The reference window, 500 ns (R47). -/
def referenceWindow : Nat := 32000

/-- Time a shot of a kind stays in the open shot list (R33, R42). -/
def listening (window : Nat) : ShotKind → Nat
  | .target => window + receiverMargin
  | .reference => referenceWindow + receiverMargin

/-- The entry of shot `n` fired at `f` (R33). -/
def firedShot (p : Profile) (n f line : Nat) (angle azimuth : Angle) : OpenShot :=
  { number := n, kind := shotKind p.refInterval n, fire := f, expiry := f + listening p.window (shotKind p.refInterval n),
    angle := angle, azimuth := azimuth, line := line, echoes := [], overflow := false, zoneSwitch := false,
    attachZone := none }

/-- The Scheduler after shot `n` has fired at `f` (R29, R31, R32). -/
def Scheduler.afterFire (x : Scheduler) (p : Profile) (f : Nat) : Scheduler :=
  let n := x.nextShot
  { x with
    nextShot := n + 1, lastFire := some f, jitterIndex := (n + 1) % 16, scheduled := some (f + p.spacing (n + 1)),
    shotWaits := false, lineShots := satAdd 32 x.lineShots 1,
    lineTargets := (match shotKind p.refInterval n with
      | .target => satAdd 32 x.lineTargets 1
      | .reference => x.lineTargets),
    lineFirst := (match x.lineFirst with | none => some n | some k => some k), lineLast := some n,
    path := shotKind p.refInterval n }

/-- Shot `n` fires at `f` (R31 to R33, R38). -/
def fireShot (f : Nat) (s : State) : State :=
  match s.scanSlot with
  | none => s
  | some sl =>
    let o := firedShot sl.profile s.sched.nextShot f (s.line.number.getD 0) s.angle s.azimuth
    let s1 := emit (.laserTrig o.kind) (s.setShots (s.shots ++ [o]))
    (s1.setSched (s.sched.afterFire sl.profile f)).setCounters
      { s.counters with shots := satAdd 64 s.counters.shots 1 }

/-- Capacity of the open shot list (R40). -/
def shotCapacity : Nat := 32

/-- The permit holds in FIRING: the laser may fire (R22, R31; log 50). -/
def State.mayFire (s : State) : Bool := s.sched.permit && decide (s.sched.firing = .firing)

/-- The scheduled fire time has come: the shot fires at that time, or waits while the list is full (R31, R34). -/
def fireTimeComes (s : State) : State :=
  match s.sched.scheduled with
  | some f =>
    if s.mayFire ∧ s.sched.shotWaits = false ∧ f ≤ s.now then
      (if s.shots.length < shotCapacity then fireShot f s else s.setSched { s.sched with shotWaits := true })
    else s
  | none => s

/-- A place has come free in the open shot list: a waiting shot fires now (R34, R41, R42). -/
def placeFree (s : State) : State :=
  if s.sched.shotWaits ∧ s.mayFire ∧ s.shots.length < shotCapacity then fireShot s.now s else s

end Sys2Proof.Machine
end

