-- ==== Sys2Proof/Machine/Photograph.lean ====
section
/-! DEFINITION. The Photo Unit (file 07): the presence machine, one photograph from Expose to its end, the stations of a
PHOTO job and the inline stations of a scan. -/

namespace Sys2Proof.Machine

/-! ## Presence (R131, R132) -/

/-- Presence wait, 2 s (R131). -/
def presenceWait : Nat := 2 * fineSec
/-- Self-check, 500 ms (R132). -/
def checkTime : Nat := 500 * fineMs
/-- Row timeout, 100 ms (R134, R136). -/
def rowTimeLimit : Nat := 100 * fineMs

/-- CHECK is entered and the self-check begins; while Error is asserted its timer stands (R132, log 35). -/
def enterCheck (afterWait : Bool) (s : State) : State :=
  s.setCamera { s.camera with
    presence := .check, presenceEnd := none, checkAfterWait := afterWait, checkDue := false,
    checkEnd := (if s.camera.errorIn then none else some (s.now + checkTime)) }

/-- The photo machine's state with no photograph in hand (R133). -/
def restState (c : Camera) : PhotoState := if c.presence = .present then .idle else .absent

/-- The photo machine goes to rest: IDLE, or ABSENT when the presence machine is not PRESENT. -/
def restPhoto (s : State) : State := s.setPhoto { s.photo with state := restState s.camera }

/-! ## One photograph (R133 to R138) -/

/-- Rows that fit in a buffer (R133). -/
def rowsThatFit (mode : PhotoMode) (size : Nat) : Nat := min mode.rowsExpected ((size - 64) / mode.rowSize)

/-- The current photo record at the Expose (R133, R134). -/
def newPhotograph (index : Nat) (st : Station) (line : Option Nat) (isInline : Bool) (s : State) : Photograph :=
  { tag := s.tag, station := index, isInline := isInline, buffer := st.buffer, size := st.size, mode := modeOf st.mode,
    exposure := st.exposure, rowsFit := rowsThatFit (modeOf st.mode) st.size, rowsTaken := 0, rowsStored := 0,
    accepting := false, trigger := s.now, midAzimuth := none, midShot := none, line := line, endCause := none,
    midEnd := some (s.now + st.exposure * fineUs / 2), exposureEnd := some (s.now + st.exposure * fineUs),
    rowEnd := none, headerIssued := false }

/-- A photograph begins: Expose is sent and the timers start (R134). -/
def expose (index : Nat) (st : Station) (line : Option Nat) (isInline : Bool) (s : State) : State :=
  emit (.expose (modeOf st.mode) st.exposure)
    (s.setPhoto { s.photo with state := .exposing, current := some (newPhotograph index st line isInline s) })

/-- Replace the current photo record. -/
def putPhotograph (p : Photograph) (s : State) : State := s.setPhoto { s.photo with current := some p }

/-- The status an end cause gives (R138). -/
def endStatus : Option PhotoEnd → StationStatus
  | none => .done
  | some .overrun | some .shortBuffer | some .abort => .truncated
  | some .camera | some .memory => .fault

/-- The azimuth at mid-exposure as written; open where it was never sampled (R134, log 16). -/
def midAzimuthOf (p : Photograph) (s : State) : Nat :=
  match p.midAzimuth with
  | some a => a.toNat
  | none => (Config.unsampledAzimuth s.freeCount).toNat

/-- The photo buffer header is written at the front of the buffer (R138). -/
def writePhotoHeader (p : Photograph) (s : State) : State :=
  request (writeTransfer .photo .photoHeader p.buffer (photoHeaderBytes p (endStatus p.endCause) (midAzimuthOf p s)))
    ((s.setPhoto { s.photo with state := .readout, current := some { p with headerIssued := true } }).spendFree)

/-- The photograph's end, once no row is accepted and every row has been stored: the header write (R135, R138). The end of
one with a memory fault waits for its outstanding transfers instead (R137). -/
def photoProgress (s : State) : State :=
  match s.photo.current with
  | some p =>
    if p.accepting = false ∧ s.photo.rows = [] ∧ p.exposureEnd = none ∧ p.headerIssued = false ∧
        p.endCause ≠ some .memory then
      writePhotoHeader p s
    else s
  | none => s

/-- The PHOTO record (R138). -/
def photoRecord (p : Photograph) (s : State) : PhotoRec :=
  { tag := p.tag, station := p.station, status := endStatus p.endCause, mode := p.mode, buffer := p.buffer,
    rowsStored := p.rowsStored, lineTime := lineTime p.trigger, azimuth := midAzimuthOf p s, shot := p.midShot,
    line := p.line }

/-- The mid-exposure sample; the shot number only for an inline station (R134). -/
def midExposure (p : Photograph) (s : State) : State :=
  putPhotograph { p with
    midEnd := none, midAzimuth := some s.azimuth,
    midShot := (if p.isInline ∧ s.sched.nextShot ≠ 0 then some (s.sched.nextShot - 1) else none) } s

/-- The exposure is over: READOUT, with rows accepted, or none (R134). -/
def exposureOver (p : Photograph) (s : State) : State :=
  let s1 := s.setPhoto { s.photo with state := .readout }
  if 1 ≤ p.rowsFit ∧ p.endCause = none then
    putPhotograph { p with exposureEnd := none, accepting := true, rowEnd := some (s.now + rowTimeLimit) } s1
  else
    photoProgress (emit .cameraStop (putPhotograph { p with
      exposureEnd := none, endCause := (match p.endCause with | none => some .shortBuffer | some c => some c) } s1))

/-- Size of a row transfer (R135, R162). -/
def rowChunk : Nat := 256

/-- The writes of a row, `n` transfers from an address on (R135). -/
def rowWrites (addr : Nat) (data : List Byte) : Nat → List Transfer
  | 0 => []
  | n + 1 =>
    writeTransfer .photo (.row (decide (n = 0))) addr (data.take rowChunk) ::
      rowWrites (addr + rowChunk) (data.drop rowChunk) n

/-- Ask for several transfers in order. -/
def requestAll : List Transfer → State → State
  | [], s => s
  | t :: ts, s => requestAll ts (request t s)

/-- Accepting rows becomes clear with an end cause, and Stop is sent (R135). -/
def stopRows (cause : PhotoEnd) (p : Photograph) (s : State) : State :=
  emit .cameraStop (putPhotograph { p with endCause := some cause, accepting := false, rowEnd := none } s)

/-- Rows of the row buffer (R133). -/
def rowCapacity : Nat := 4

/-- A row is accepted and its writes are issued, and the count is checked (R135). -/
def acceptRow (data : List Byte) (p : Photograph) (s : State) : State :=
  let r := p.rowsTaken
  let p1 := { p with rowsTaken := r + 1, rowEnd := some (s.now + rowTimeLimit) }
  let s1 := requestAll (rowWrites (p.buffer + 64 + r * p.mode.rowSize) data (p.mode.rowSize / rowChunk))
    (s.setPhoto { s.photo with rows := s.photo.rows ++ [{ index := r, data := data }] })
  if r + 1 = p.mode.rowsExpected then putPhotograph { p1 with accepting := false, rowEnd := none } s1
  else if r + 1 = p.rowsFit then stopRows .shortBuffer p1 s1
  else putPhotograph p1 s1

/-- A Row arrives while rows are accepted (R135). -/
def rowArrives (data : List Byte) (p : Photograph) (s : State) : State :=
  if s.photo.rows.length < rowCapacity then acceptRow data p s else stopRows .overrun p s

/-- The last transfer of a row is complete: the row is stored, and the photograph may end (R135). -/
def rowStored (s : State) : State :=
  match s.photo.current with
  | some p =>
    photoProgress (putPhotograph { p with rowsStored := p.rowsStored + 1 }
      (s.setPhoto { s.photo with rows := s.photo.rows.tail }))
  | none => s

/-- The photo machine has a photograph in hand. -/
def PhotoState.busy : PhotoState → Bool
  | .exposing | .readout => true
  | .absent | .idle | .armed => false

/-- A camera fault (R136). Once rows are no longer accepted in READOUT the end cause stands; Stop is sent all the same
(log 37). -/
def cameraFault (s : State) : State :=
  match s.photo.current with
  | some p =>
    if s.photo.state = .exposing ∨ p.accepting then
      photoProgress (emit .cameraStop (putPhotograph { p with
        endCause := (if p.endCause = some .memory then some .memory else some .camera), accepting := false,
        midEnd := none, exposureEnd := none, rowEnd := none } s))
    else emit .cameraStop s
  | none => s

/-- An ABORT at the photograph in hand (R142, R145). -/
def abortPhotograph (s : State) : State :=
  match s.photo.current with
  | some p =>
    if s.photo.state = .exposing then putPhotograph { p with endCause := some .abort } s
    else if p.accepting then photoProgress (stopRows .abort p s)
    else s
  | none => s

/-! ## Stations (R140, R144) -/

/-- Set the status of a station. -/
def setStatus (i : Nat) (st : StationStatus) (l : List StationSlot) : List StationSlot :=
  l.modify i (fun x => { x with status := st })

/-- Camera azimuth offset and settle time of a slot (R148). -/
def State.cameraValues (s : State) (slot : Nat) : Nat × Nat :=
  match s.slots.get slot with
  | none => (0, 0)
  | some x => (x.profile.cameraOffset, x.profile.settleMs)

/-- The station in hand of a PHOTO job is exposed (R140, step 2). -/
def exposeStation (p : PhotoJob) (s : State) : State :=
  match s.photo.stations[p.index]? with
  | some x => expose p.index x.station none false s
  | none => s

/-- The camera is lost before a station of a PHOTO job is exposed: the station stays NOT-REACHED and the job goes to its
end (R141). -/
def cameraLost (p : PhotoJob) (s : State) : State :=
  endPhotoJob { p with cause := (match p.cause with | none => some .cameraFault | some c => some c) }
    (restPhoto (decelerate s))

/-- A station of a PHOTO job begins: ARMED, and a move request (R140, step 1). With no camera PRESENT it is lost at once
(log 56). -/
def beginStation (p : PhotoJob) (s : State) : State :=
  if s.camera.presence ≠ .present then cameraLost p s
  else match s.photo.stations[p.index]? with
    | none => endPhotoJob p s
    | some x =>
      let v := s.cameraValues p.slot
      let r := moveRequest (BitVec.ofNat 22 (x.station.azimuth + v.1)) v.2
        (putPhoto p (s.setPhoto { s.photo with state := .armed }))
      match r.2 with
      | .arrived => exposeStation p r.1
      | .nothing | .fault => r.1

/-- The failure cause that a station's end gives its PHOTO job, if it holds none (R141). -/
def stationCause (held : Option ResultCode) (status : StationStatus) (cause : Option PhotoEnd) : Option ResultCode :=
  match held with
  | some c => some c
  | none =>
    match status with
    | .fault => if cause = some .memory then some .memoryFault else some .cameraFault
    | .notReached | .done | .truncated | .missed => none

/-- A PHOTO job is told that its station has ended: progress write-back, and the next station or the job's end
(R140 steps 4 and 5, R142). -/
def stationEnded (status : StationStatus) (cause : Option PhotoEnd) (p : PhotoJob) (s : State) : State :=
  let p1 := { p with done := p.done + 1, cause := stationCause p.cause status cause }
  let s1 := pushProgress [(0x28, leBytes 4 p1.done), (0x80 + 24 * p.index + 0x15, leBytes 1 status.code)] (putPhoto p1 s)
  if p1.cause = none ∧ p.index + 1 < s.photo.stations.length then beginStation { p1 with index := p.index + 1 } s1
  else endPhotoJob p1 (if p1.abortTaken then decelerate s1 else s1)

/-- The owning job is told that a station has ended (R138, R140, R145). -/
def tellStationEnded (status : StationStatus) (cause : Option PhotoEnd) (s : State) : State :=
  match s.job with
  | some (.photo p) => stationEnded status cause p s
  | some (.scan j) => if j.phase = .ending ∧ j.endWait = .none then beginDrain j s else s
  | _ => s

/-- The photograph is over: status set, record discarded, the photo machine at rest, a CHECK that is due entered, and the
owning job told (R132, R138). -/
def photoFinish (s : State) : State :=
  match s.photo.current with
  | some p =>
    let status := endStatus p.endCause
    let s1 := s.setPhoto { s.photo with current := none, rows := [], stations := setStatus p.station status s.photo.stations }
    tellStationEnded status p.endCause (restPhoto (if s1.camera.checkDue then enterCheck true s1 else s1))
  | none => s

/-- The header write is complete: a PHOTO record is offered for DONE and TRUNCATED, and the photograph is over (R138). -/
def photoHeaderWritten (s : State) : State :=
  match s.photo.current with
  | some p =>
    photoFinish (match endStatus p.endCause with
      | .done | .truncated => ((offerReserve (.photo (photoRecord p s)) s).1).spendFree
      | .notReached | .missed | .fault => s)
  | none => s

/-- The current photo record at a memory fault (R137). -/
def Photograph.lost (p : Photograph) : Photograph :=
  { p with endCause := some .memory, accepting := false, midEnd := none, exposureEnd := none, rowEnd := none }

/-- A write of the photograph has faulted: its waiting transfers are withdrawn, the outcomes of those outstanding are
ignored, and its rows are discarded (R137, R138). -/
def losePhotograph (p : Photograph) (s : State) : State :=
  ignore (fun t => decide (t.requester = .photo)) (withdraw (fun t => decide (t.requester = .photo))
    (s.setPhoto { s.photo with current := some p.lost, rows := [] }))

/-- A row transfer has faulted: Stop is sent too (R137). -/
def photoMemoryFault (s : State) : State :=
  match s.photo.current with
  | some p => emit .cameraStop (losePhotograph p s)
  | none => s

/-- The header write has faulted (R138). No Stop is sent: R137 asks for one at a row transfer, R138 for none at the header,
with the camera long past its last row (the model's choice, log 61). -/
def photoHeaderFault (s : State) : State :=
  match s.photo.current with
  | some p => losePhotograph p s
  | none => s

/-- The end of a photograph with a memory fault, once its outstanding transfers have ended (R137, R138). -/
def photoDrained (s : State) : State :=
  match s.photo.current with
  | some p => if p.endCause = some .memory ∧ s.port.photoOut = [] then photoFinish s else s
  | none => s

/-- A station's distance from the start (R144). -/
def stationDistance (b : InlineBase) (st : Station) : Nat :=
  (BitVec.ofNat 22 (st.azimuth + b.offset) - BitVec.ofNat 22 b.startAz : Angle).toNat

/-- Travel of the line at whose opening index the error was sampled (R144). -/
def lineTravel (b : InlineBase) (line : Nat) (error : Int) : Int := ((line * b.step : Nat) : Int) + error

/-- The inline station of which a photograph is in hand. -/
def State.stationInHand (s : State) : Option Nat := s.photo.current.map (·.station)

/-- Inline stations crossed at an index, in list order from entry `i`: the first begins its photograph if the machine is
IDLE, every other one is MISSED; `hand` is the station of which a photograph is in hand as the index is taken (R144). -/
def crossStations (b : InlineBase) (line : Nat) (travel : Int) (hand : Option Nat) :
    Nat → List StationSlot → State → State
  | _, [], s => s
  | i, x :: rest, s =>
    let crossed := decide (x.status = .notReached ∧ hand ≠ some i ∧ (stationDistance b x.station : Int) ≤ travel)
    let s1 :=
      if crossed then
        (if s.photo.state = .idle then expose i x.station (some line) true s
         else s.setPhoto { s.photo with stations := setStatus i .missed s.photo.stations })
      else s
    crossStations b line travel hand (i + 1) rest s1

/-- The Photo Unit takes an index that has opened a line (R117, R144). -/
def crossings (line : Nat) (error : Int) (s : State) : State :=
  match s.photo.inlineBase with
  | none => s
  | some b => crossStations b line (lineTravel b line error) s.stationInHand 0 s.photo.stations s

/-- The Photo Unit at either reset, its presence machine given (R133, R146). -/
def Photo.clear (c : Camera) : Photo :=
  { state := restState c, current := none, rows := [], stations := [], inlineBase := none }

end Sys2Proof.Machine
end

