-- ==== Sys2Proof/Machine/Failures.lean ====
section
/-! DEFINITION. What reaches the running job from outside it: failures of a scan (R120, R123, R124), memory faults (R104,
R106, R128), changes of the mirror and answers of the turntable (R7, R17), and ABORT. -/

namespace Sys2Proof.Machine

/-- A failure cause once held keeps its first value (R111, R141). -/
def firstCause (held : Option ResultCode) (c : ResultCode) : Option ResultCode :=
  match held with
  | some x => some x
  | none => some c

/-! ## A failing scan (R120 to R122) -/

/-- The scan's stop request at the Record Builder and the Shot Scheduler, which may close the line (R36, R69, R70). -/
def stopRequest (r : StopReason) (s : State) : State := closeCheck (endFiring .stop (markStop r s))

/-- With a stop issued and no line open the job passes on to ENDING (R122). -/
def endIfNoLine (s : State) : State :=
  match s.scanJob with
  | some j => if j.phase = .scanning ∧ s.line.phase = .none then enterEnding j s else s
  | none => s

/-- A failure with a stop reason, taken in SCANNING (R120). -/
def failScanning (c : ResultCode) (r : StopReason) (j : ScanJob) (s : State) : State :=
  let j1 := { j with cause := firstCause j.cause c }
  match j.stop with
  | some _ => putScan j1 s
  | none => endIfNoLine (stopRequest r (putScan { j1 with stop := some r } s))

/-- A failure cause of R120 with a stop reason reaches the scan: in the photo wait it is recorded (R125), in the phases
before SCANNING and in the drain it is none of these. -/
def scanFail (c : ResultCode) (r : StopReason) (s : State) : State :=
  match s.scanJob with
  | none => s
  | some j =>
    match j.phase with
    | .scanning => failScanning c r j s
    | .ending => if j.endWait = .none then putScan { j with cause := firstCause j.cause c } s else s
    | .hold | .position | .runIn => s

/-! ## Memory faults at the running job (R87, R104, R106, R128, R141) -/

/-- A SCAN job is told of a memory fault (R116, R120, R125, R126, R128). -/
def scanMemoryFault (j : ScanJob) (s : State) : State :=
  match j.phase with
  | .hold | .position | .runIn => if j.endWait = .none then failPre .memoryFault j s else endScan j s
  | .scanning => failScanning .memoryFault .memoryFault j s
  | .ending =>
    let j1 := { j with cause := firstCause j.cause .memoryFault }
    if j.endWait = .none then putScan j1 s else endScan j1 s

/-- A failure cause reaches a PHOTO job that waits on its seal: the first one held is a late one (R143, log 34). -/
def PhotoJob.failLate (p : PhotoJob) (c : ResultCode) : PhotoJob :=
  { p with cause := firstCause p.cause c, lateCause := p.lateCause || p.cause.isNone }

/-- A PHOTO job is told of a memory fault (R141, R143); `descriptor` says that a descriptor fault is being reported, at which
no mark is placed (R143, log 33). -/
def photoJobMemoryFault (descriptor : Bool) (p : PhotoJob) (s : State) : State :=
  let p1 := { p with cause := firstCause p.cause .memoryFault }
  if p.sealWait then handPhoto (p.failLate .memoryFault) s
  else if s.photo.state.busy then putPhoto p1 s
  else if descriptor then handPhoto p1 (restPhoto s)
  else endPhotoJob p1 (restPhoto s)

/-- The running job is told of a memory fault by the Page Manager: SCAN, PHOTO and MARK, and a job that waits on its
mark (R87, R104, R106, R160, R179); `descriptor` as in photoJobMemoryFault. -/
def jobMemoryFault (descriptor : Bool) (s : State) : State :=
  match s.job with
  | some (.scan j) => scanMemoryFault j s
  | some (.photo p) => photoJobMemoryFault descriptor p s
  | some .markWait => handResult (plainResult .memoryFault (openDetail s)) ((s.setMarkWait none).spendFree)
  | some (.sealWait _ r) => handResult r s
  | some .spinWait | some .turnWait | some (.profileRead _ _) | some .reportWrite | none => s

/-! ## The mirror and the turntable at the running job (R7, R17) -/

/-- The running job is told that the mirror has entered a state (R7, R10, R112 to R114, R120). -/
def jobMirror (s : State) : State :=
  match s.mirror.state, s.job with
  | .locked, some .spinWait => finishOpen .spin .none s
  | .locked, some (.scan j) => if j.phase = .hold ∧ j.endWait = .none then enterPosition j s else s
  | .unlocked, some (.scan j) =>
    if (j.phase = .position ∨ j.phase = .runIn) ∧ j.endWait = .none then failPre .mirrorLost j s
    else scanFail .mirrorLost .mirror s
  | .fault, some .spinWait => finishJob .spin (plainResult .spinFail s.mirror.rate) s
  | .fault, some (.scan j) => if j.phase = .hold ∧ j.endWait = .none then failPre .spinFail j s else s
  | _, _ => s

/-- The mirror has changed its state: the permit is computed anew, then the running job is told (R7, R22, log 45). -/
def mirrorChanged (s : State) : State := jobMirror (recomputePermit s)

/-- The running job is answered that the turntable has arrived (R13, R19, R113, R140). -/
def jobArrived (s : State) : State :=
  match s.job with
  | some .turnWait => finishOpen .turn .none s
  | some (.scan j) => if j.phase = .position ∧ j.endWait = .none then enterRunIn j s else s
  | some (.photo p) => if s.photo.state = .armed then exposeStation p s else s
  | _ => s

/-- A PHOTO job is answered with a turntable fault (R141). -/
def photoTurntableFault (p : PhotoJob) (s : State) : State :=
  let p1 := { p with cause := firstCause p.cause .turntableFault }
  match s.photo.state with
  | .armed => endPhotoJob p1 (restPhoto s)
  | .exposing | .readout => putPhoto p1 s
  | .absent | .idle => s

/-- The running job that issued the request in force is answered with a turntable fault (R17, R19, R113, R141). -/
def jobTurntableFault (s : State) : State :=
  if s.requestIsOurs then
    (match s.job with
     | some .turnWait => finishJob .turn (plainResult .turntableFault s.azimuth.toNat) s
     | some (.scan j) => if j.phase = .position ∧ j.endWait = .none then failPre .turntableFault j s else s
     | some (.photo p) => if p.sealWait then s else photoTurntableFault p s
     | _ => s)
  else s

/-! ## ABORT (R181 and each job's own rules) -/

/-- The result that an ABORT makes of the one a job had reached: a PROFILE or REPORT job that had failed keeps its own
before the seal has begun (R160), every other becomes ABORTED (R87, R179; log 32). -/
def abortedResult (kind : JobKind) (r : JobResult) (begun : Bool) (s : State) : JobResult :=
  match kind with
  | .profile | .report => if !begun && decide (r.code ≠ .none) then r else plainResult .aborted (openDetail s)
  | .setup | .spin | .park | .turn | .scan | .photo | .mark => plainResult .aborted (openDetail s)

/-- An ABORT at a job that waits on its mark (R87, R160, R179). -/
def abortSealWait (kind : JobKind) (r : JobResult) (s : State) : State :=
  if s.sealBegun then (s.setJob (some (.sealWait kind (abortedResult kind r true s)))).spendFree
  else handResult (abortedResult kind r false s) (clearMark s).spendFree

/-- Transfers of a purpose are given up: the outcome of those outstanding is ignored (R102, R155, R159), and those that still
wait for their grant are withdrawn, as R159 says of a snapshot write. For a PROFILE source read and the descriptor read of an
ended pass that is the model's choice (log 70). -/
def giveUp (which : Purpose) (s : State) : State :=
  ignore (fun t => decide (t.purpose = which)) (withdraw (fun t => decide (t.purpose = which)) s)

/-- An ABORT at a SCAN job in SCANNING (R120, R123). -/
def abortScanning (j : ScanJob) (s : State) : State :=
  failScanning .aborted .abort { j with abortTaken := true } (if s.inlinePhoto then abortPhotograph s else s)

/-- An ABORT at a SCAN job in ENDING: in the photo wait the discard is put off, while draining it is made, and once the
seal has begun there is none (R124). -/
def abortEnding (j : ScanJob) (s : State) : State :=
  let j1 := { j with abortTaken := true, cause := firstCause j.cause .aborted }
  if j.endWait = .none then putScan { j1 with discardDue := true } s
  else if s.sealBegun then putScan j1 s
  else discardScan j1 s

/-- An ABORT at a SCAN job (R112 to R116, R123, R124; log 31). -/
def abortScan (j : ScanJob) (s : State) : State :=
  match j.phase with
  | .hold | .position | .runIn =>
    if j.endWait = .none then failPre .aborted j s
    else if s.sealBegun then s
    else endScan j (clearMark s)
  | .scanning => abortScanning j s
  | .ending => abortEnding j s

/-- An ABORT at a PHOTO job (R142, R143). -/
def abortPhoto (p : PhotoJob) (s : State) : State :=
  let p1 := { p with abortTaken := true, cause := firstCause p.cause .aborted }
  let p2 := { p.failLate .aborted with abortTaken := true }
  if p.sealWait then (if s.sealBegun then putPhoto p2 s else handPhoto p2 (clearMark s))
  else if s.photo.state.busy then abortPhotograph (putPhoto p1 s)
  else endPhotoJob p1 (restPhoto (decelerate s))

/-- An ABORT at the running job (R181). -/
def abortJob (job : Job) (s : State) : State :=
  match job with
  | .spinWait => finishOpen .spin .aborted s
  | .turnWait => finishOpen .turn .aborted (decelerate s)
  | .profileRead _ _ => finishOpen .profile .aborted (giveUp .profileRead s)
  | .reportWrite => finishOpen .report .aborted (giveUp .reportWrite s)
  | .markWait => finishOpen .mark .aborted (s.setMarkWait none)
  | .sealWait kind r => abortSealWait kind r s
  | .scan j => abortScan j s
  | .photo p => abortPhoto p s

/-! ## A faulted record write (R104, R105) -/

/-- The headers of a job's lines among queued records: job and header values. -/
def headersOf (es : List Entry) : List (Nat × HeaderRec) :=
  es.filterMap (fun e => e.record.header?.map (fun h => (e.job, h)))

/-- The lines lost at a fault: the line in progress and those whose header was outstanding (R105). -/
def linesLostAt (s : State) : List (Nat × HeaderRec) :=
  s.pages.line.toList ++ headersOf (s.staging.entries.filter (fun e => e.issued))

/-- Each line lost counts once (R105). -/
def countLines : List (Nat × HeaderRec) → State → State
  | [], s => s
  | x :: rest, s => countLines rest (s.setLoss (s.loss.addLine x.2.line x.2.tag))

/-- Waiting records of the discarding line are removed and counted (R105). -/
def dropWaiting (line : Nat × Nat) (s : State) : State :=
  let es := s.staging.entries
  countAll (es.filter (fun e => !e.issued && decide (e.lineId = some line)))
    (s.setStaging { s.staging with entries := es.filter (fun e => e.issued || decide (e.lineId ≠ some line)) })

/-- The records of the lines lost are discarded (R105). -/
def discardLines (lost : List (Nat × HeaderRec)) (s : State) : State :=
  match lost.getLast? with
  | none => s
  | some x =>
    let d := (x.1, x.2.line)
    dropWaiting d (countLines lost (s.setPages { s.pages with discarding := some d, line := none }))

/-- Queued records of which the first `m` have had their write issued. -/
def issuedFirst : Nat → List Entry → List Entry
  | _, [] => []
  | 0, e :: es => { e with issued := false } :: issuedFirst 0 es
  | m + 1, e :: es => e :: issuedFirst m es

/-- Record writes asked for and not yet granted are withdrawn: their records wait again (R104, R161; log 22). -/
def withdrawRecords (s : State) : State :=
  let asked := (s.port.recordWait.filter (fun t => decide (t.purpose = .record))).length
  let issued := (s.staging.entries.filter (fun e => e.issued)).length
  withdraw (fun t => decide (t.requester = .record))
    (s.setStaging { s.staging with entries := issuedFirst (issued - asked) s.staging.entries })

/-- A record or continuation header write has faulted: the current page is abandoned (R104, log 26). The lines lost are counted
before a GAP whose write was outstanding is added back, so the first of them, and not the GAP's first lost line, becomes the
first lost line where none is pending (R105; the model's choice, log 72). -/
def abandonPage (s : State) : State :=
  match s.pages.current with
  | none => s
  | some p =>
    let s1 := withdrawRecords (putPage { p with stage := .abandoned, sealing := none } s)
    let s2 := ignore (fun t => decide (t.requester = .record)) s1
    endAbandon (discardLines (linesLostAt s1) (jobMemoryFault false (clearMark s2)))

/-! ## A faulted descriptor access (R106) -/

/-- A descriptor access has faulted: PAGE-FAULT (R106). After a take's write has faulted the sequence counter and the
next-examine index stay as the take moved them (R91; the model's choice, log 67). -/
def descriptorFault (s : State) : State :=
  jobMemoryFault true (clearMark (s.setPages { s.pages with pass := none, lookAgain := false, current := none, fault := true }))

end Sys2Proof.Machine
end

