-- ==== Sys2Proof/Machine/Jobs.lean ====
section
/-! DEFINITION. Taking a job: the checks and the first act of each kind (R9 to R11, R19, R87, R102, R139, R152, R157,
R178), and the dispatch when the TAKEN write completes (R174). -/

namespace Sys2Proof.Machine

/-! ## SETUP (R102, R178, R191) -/

/-- The checks of R178 in order. An address above 48 bits fails the address check whatever the count (R192). -/
def setupItems (address count poll mode : Nat) : List (Nat × Bool) :=
  [(1, decide (address % 64 = 0 ∧ address < 2 ^ 48 ∧ address + 64 * count ≤ 2 ^ 48)),
   (2, decide (4 ≤ count ∧ count ≤ 256)),
   (3, decide (poll ≤ 1000)),
   (4, decide (mode ≤ 1))]

/-- The Page Manager takes a table: the "Set by SETUP" column of R89. -/
def Pages.atSetup (p : Pages) (address count : Nat) : Pages :=
  { p with table := some (address, count), nextExamine := 0, sequence := 0, pass := none, lookAgain := false,
           wait := false, fault := false, bad := false }

/-- The attention mode of a code (R178). -/
def attentionOf (mode : Nat) : AttentionMode := if mode = 0 then .level else .pulse

/-- The table is accepted: a pass in progress is ended, and poll interval and attention mode are set (R102, R178). The pass
that follows asks for its first read at once, and while a read of the ended pass is outstanding that read waits in the control
order, where the model's choice has placed it (R90, R163, R164, log 69). -/
def acceptTable (address count poll mode : Nat) (s : State) : State :=
  let s1 := giveUp .descriptorRead s
  let s2 := s1.setPages (s1.pages.atSetup address count)
  setAttention (attentionOf mode) (s2.setReader { s2.reader with pollMs := poll, pollFrom := s.now })

/-- A SETUP block is dispatched. -/
def takeSetup (s : State) : State :=
  let b := s.reader.block
  match firstFailure (setupItems (setupAddress b) (setupCount b) (setupPoll b) (setupMode b)) with
  | some n => handResult (plainResult .badParam n) s
  | none =>
    if s.pages.current.isSome then finishOpen .setup .pageOpen s
    else finishJob .setup (plainResult .none 0) (acceptTable (setupAddress b) (setupCount b) (setupPoll b) (setupMode b) s)

/-! ## SPIN and PARK (R9 to R11) -/

/-- Spin-up limit, 30 s (R5). -/
def spinUpLimit : Nat := 30 * fineSec

/-- The mirror under a SPIN with target rate `t` (R9). -/
def spinMirror (t now : Nat) (x : Mirror) : Mirror :=
  match x.state with
  | .parked | .spinningDown | .fault =>
    { x with state := .spinningUp, target := t, lockCount := 0, spinUpEnd := some (now + spinUpLimit) }
  | .spinningUp | .unlocked => { x with target := t, lockCount := 0 }
  | .locked =>
    if t = x.target then x
    else { x with state := .unlocked, target := t, lockCount := 0, watchdogFrom := none,
                  spinUpEnd := some (now + spinUpLimit) }

/-- A SPIN block is dispatched (R9, R10). -/
def takeSpin (s : State) : State :=
  let rate := spinRate s.reader.block
  if 500 ≤ rate ∧ rate ≤ 20000 then
    let s1 := s.setMirror (spinMirror rate s.now s.mirror)
    if spinWaits s.reader.block ∧ s1.mirror.state ≠ .locked then s1.setJob (some .spinWait)
    else finishOpen .spin .none s1
  else handResult (plainResult .badParam 1) s

/-- The mirror under a PARK (R11). -/
def parkMirror (x : Mirror) : Mirror :=
  match x.state with
  | .parked | .spinningDown => x
  | .spinningUp | .locked | .unlocked =>
    { x with state := .spinningDown, lockCount := 0, spinUpEnd := none, watchdogFrom := none }
  | .fault => { x with state := .parked, target := 0 }

/-- A PARK block is dispatched (R11). -/
def takePark (s : State) : State := finishOpen .park .none (s.setMirror (parkMirror s.mirror))

/-! ## TURN (R19) -/

/-- A TURN block is dispatched. -/
def takeTurn (s : State) : State :=
  let azimuth := turnAzimuth s.reader.block
  let slot := turnSlot s.reader.block
  if revolution ≤ azimuth then handResult (plainResult .badParam 1) s
  else if 3 < slot then handResult (plainResult .badParam 2) s
  else match s.slots.get slot with
    | none => handResult (plainResult .noProfile (openDetail s)) s.spendFree
    | some x =>
      let r := moveRequest (BitVec.ofNat 22 azimuth) x.profile.settleMs (s.setJob (some .turnWait))
      match r.2 with
      | .arrived => finishOpen .turn .none r.1
      | .nothing | .fault => r.1

/-! ## PROFILE and REPORT (R152 to R154, R157, R159) -/

/-- Bytes of a profile source (R162, R197). -/
def profileSize : Nat := 192
/-- Bytes of a REPORT snapshot (R162, R199). -/
def reportSize : Nat := 256

/-- A PROFILE block is dispatched (R152). -/
def takeProfile (s : State) : State :=
  let slot := profileSlot s.reader.block
  let source := profileSource s.reader.block
  if 3 < slot then handResult (plainResult .badParam 1) s
  else if source % 64 ≠ 0 ∨ 2 ^ 48 < source + profileSize then handResult (plainResult .badParam 2) s
  else request (readTransfer .chain .profileRead source profileSize) (s.setJob (some (.profileRead slot source)))

/-- The profile image has been read: checked, and loaded whole or not at all (R153, R154). -/
def profileReadDone (data : List Byte) (s : State) : State :=
  match s.job with
  | some (.profileRead slot _) =>
    let s1 := s.setSlots { s.slots with buffer := data }
    (match firstFailure (profileOf data).checks with
     | some n => finishJob .profile (plainResult .badParam n) s1
     | none => finishJob .profile (plainResult .none 0) (s1.setSlots (s1.slots.set slot (profileOf data).load)))
  | _ => s

/-- A REPORT block is dispatched: every value is sampled now (R157). -/
def takeReport (s : State) : State :=
  let dest := reportDest s.reader.block
  if dest % 64 ≠ 0 ∨ 2 ^ 48 < dest + reportSize then handResult (plainResult .badParam 1) s
  else request (writeTransfer .chain .reportWrite dest (snapshotBytes s)) (s.setJob (some .reportWrite))

/-- The snapshot has been written (R159). -/
def reportWriteDone (s : State) : State :=
  if s.job = some .reportWrite then finishJob .report (plainResult .none 0) s else s

/-! ## MARK (R87) -/

/-- A MARK block is dispatched: its record is awaited, or lost with detail 1. -/
def takeMark (s : State) : State :=
  let r := offerReserve (.mark s.tag (lineTime s.now)) s
  if r.2 then (r.1.setMarkWait (some (r.1.staging.nextSeq - 1))).setJob (some .markWait)
  else finishJob .mark (plainResult .none 1) r.1

/-! ## PHOTO (R139) -/

/-- Longest exposure of a station of a PHOTO job, in µs (R139). -/
def photoExposure : Nat := 1000000

/-- The checks of R139 in order: the failure they give, none when all pass. -/
def photoRefusal (s : State) : Option JobResult :=
  let slot := photoSlot s.reader.block
  let count := photoCount s.reader.block
  match firstFailure [(1, decide (slot ≤ 3)), (2, decide (1 ≤ count ∧ count ≤ 16))] with
  | some n => some (plainResult .badParam n)
  | none =>
    match firstBadStation photoExposure 16 (stationsOf s.reader.block count) with
    | some n => some (plainResult .badParam n)
    | none =>
      if (s.slots.get slot).isNone then some (plainResult .noProfile slot)
      else if s.photo.state ≠ .idle then some (plainResult .noCamera s.camera.presence.code)
      else none

/-- A PHOTO block is dispatched. -/
def takePhoto (s : State) : State :=
  match photoRefusal s with
  | some r => handResult r s
  | none =>
    let stations := freshStations (stationsOf s.reader.block (photoCount s.reader.block))
    beginStation
      { slot := photoSlot s.reader.block, index := 0, done := 0, cause := none, abortTaken := false, sealWait := false,
        lateCause := false }
      (s.setPhoto { s.photo with stations := stations, inlineBase := none })

/-! ## Dispatch (R174) -/

/-- A job of a kind is taken by its owner. -/
def takeJob (s : State) : JobKind → State
  | .setup => takeSetup s
  | .spin => takeSpin s
  | .park => takePark s
  | .turn => takeTurn s
  | .profile => takeProfile s
  | .report => takeReport s
  | .scan => takeScan s
  | .photo => takePhoto s
  | .mark => takeMark s

/-- The TAKEN write is complete: the job, a new one, is dispatched to its owner (R174). One job runs at a time (R171, log 3). -/
def dispatchJob (s : State) : State :=
  match s.job, s.blockJob with
  | none, some k => takeJob ((s.setJobSerial (s.jobSerial + 1)).setReader { s.reader with activity := .job }) k
  | _, _ => s

end Sys2Proof.Machine
end

