-- ==== Sys2Proof/Machine/Outcomes.lean ====
section
/-! DEFINITION. The outcomes of transfers, reported to each requester in its issue order (R165, R167 to R169, R183), and
the events by which the memory or a timeout answers. -/

namespace Sys2Proof.Machine

/-! ## Completed transfers -/

/-- A completed transfer that its requester still wants. -/
def completed (p : Purpose) (len : Nat) (data : List Byte) (s : State) : State :=
  match p with
  | .examination half => examinationRead half data s
  | .takenWrite => dispatchJob s
  | .blockWrite => blockWritten s
  | .resultCode => resultCodeWritten s
  | .resultState => resultStateWritten s
  | .link => linkRead data s
  | .profileRead => profileReadDone data s
  | .reportWrite => reportWriteDone s
  | .descriptorRead => descriptorRead data s
  | .takeField => takeFieldWritten s
  | .takeState => takeStateWritten s
  | .sealField => sealFieldWritten s
  | .sealState => sealStateWritten s
  | .record => recordWritten len s
  | .continuation => continuationWritten len s
  | .row last => if last then rowStored s else s
  | .photoHeader => photoHeaderWritten s

/-- A completed write is in memory (R165). -/
def landed (t : Transfer) (s : State) : State := if t.write then emit (.inMemory t) s else s

/-! ## Faulted transfers (R169) -/

/-- The reader once a write-back to its block is lost and a job still runs (R171, R182, R183). -/
def Reader.lost (x : Reader) : Reader :=
  { x with taken := none, haltPending := false, writeBackLost := true, writeList := [], writeBusy := false }

/-- A progress write-back or job-end write-back has faulted: the taken block is released and halt pending becomes clear
(R171, R182), the running job ends as though by ABORT and the reader halts when it has; with no job running the reader halts
at once (R183, log 40). -/
def writeBackFault (s : State) : State :=
  match s.job with
  | some job =>
    abortJob job (s.setReader s.reader.lost)
  | none => haltOnLoss s

/-- A source read of the running PROFILE job or a snapshot write of the running REPORT job has faulted (R155, R159). -/
def jobAccessFault (s : State) : State :=
  match s.job with
  | some (.profileRead _ _) => finishJob .profile (plainResult .memoryFault 0) s
  | some .reportWrite => finishJob .report (plainResult .memoryFault 0) s
  | _ => s

/-- A faulted transfer that its requester still wants (R104, R106, R137, R155, R159, R183). -/
def faulted (p : Purpose) (s : State) : State :=
  match p with
  | .examination _ | .link | .takenWrite | .resultCode | .resultState => haltOnLoss s
  | .blockWrite => writeBackFault s
  | .profileRead | .reportWrite => jobAccessFault s
  | .descriptorRead | .takeField | .takeState | .sealField | .sealState => descriptorFault s
  | .record | .continuation => abandonPage s
  | .row _ => photoMemoryFault s
  | .photoHeader => photoHeaderFault s

/-! ## Reporting (R165) -/

/-- What waits for a requester's outstanding transfers to end: an abandonment (R104) and a photograph with a memory fault
(R137). -/
def requesterDrained (r : Requester) (s : State) : State :=
  match r with
  | .record => endAbandon s
  | .photo => photoDrained s
  | .chain | .descriptor => s

/-- The outcome of a transfer is reported to its requester; one that it has come to ignore does nothing more. A write has
been in memory since its answer (R165). -/
def reportOutcome (t : Transfer) (a : Answer) (s : State) : State :=
  match a with
  | .awaited => s
  | .held data => requesterDrained t.requester (if t.live then completed t.purpose t.len data s else s)
  | .faulted => requesterDrained t.requester (if t.live then faulted t.purpose s else s)

/-- Report the oldest outstanding transfers of a requester while they have their answers (R165). -/
def reportAnswered (r : Requester) : Nat → State → State
  | 0, s => s
  | n + 1, s =>
    match s.port.outOf r with
    | [] => s
    | o :: rest =>
      match o.answer with
      | .awaited => s
      | .held data => reportAnswered r n (reportOutcome o.transfer (.held data) (s.setPort (s.port.setOut r rest)))
      | .faulted => reportAnswered r n (reportOutcome o.transfer .faulted (s.setPort (s.port.setOut r rest)))

/-- Report what may be reported to a requester, and let the Page Manager go on (R165, log 25). -/
def settle (r : Requester) (s : State) : State := advancePages (reportAnswered r (s.port.outOf r).length s)

/-! ## The events -/

/-- The oldest outstanding transfer of a requester completes, if it is the one that the answer names and of the purposes the
command names (R165, R167, log 3, 64): a write is in memory from now on. -/
def completeOldest (r : Requester) (id : Nat) (which : Purpose → Bool) (data : List Byte) (s : State) : State :=
  match s.port.awaitsAt r 0 with
  | some o =>
    if o.id = id ∧ which o.transfer.purpose then
      settle r (landed o.transfer (s.setPort (s.port.answerAt r 0 (.held data))))
    else s
  | none => s

/-- A transfer faults: the fault is latched, and reported in its turn (R167, R168). -/
def faultAt (r : Requester) (place : Nat) (timeout : Bool) (o : Outstanding) (s : State) : State :=
  settle r (latchFault o.transfer timeout (s.setPort (s.port.answerAt r place .faulted)))

/-- The memory answers the transfer at a place with an error (R167). -/
def errsAt (r : Requester) (place : Nat) (s : State) : State :=
  match s.port.awaitsAt r place with
  | some o => faultAt r place false o s
  | none => s

/-- The timeout of the transfer at a place runs out (R167). -/
def timesOutAt (r : Requester) (place : Nat) (s : State) : State :=
  match s.port.awaitsAt r place with
  | some o => if ended o.timeout s.now then faultAt r place true o s else s
  | none => s

/-- The answer to the transfer at a place arrives ahead of an earlier transfer's: it is held, its timeout is stopped, and a
write is in memory (R165, R167). -/
def holdAt (r : Requester) (place : Nat) (data : List Byte) (s : State) : State :=
  match s.port.awaitsAt r place with
  | some o => if place = 0 then s else landed o.transfer (s.setPort (s.port.answerAt r place (.held data)))
  | none => s

/-- Do something at the place of the transfer of a number; where it is no longer outstanding the answer is ignored (R167,
R170, log 64). -/
def atTransfer (r : Requester) (id : Nat) (act : Nat → State → State) (s : State) : State :=
  match s.port.placeOf r id with
  | some place => act place s
  | none => s

/-- The memory answers a transfer with an error (R167). -/
def transferErrs (r : Requester) (id : Nat) (s : State) : State := atTransfer r id (errsAt r) s

/-- The timeout of a transfer runs out (R167). -/
def transferTimesOut (r : Requester) (id : Nat) (s : State) : State := atTransfer r id (timesOutAt r) s

/-- An answer arrives ahead of an earlier transfer's (R165). -/
def holdAnswer (r : Requester) (id : Nat) (data : List Byte) (s : State) : State :=
  atTransfer r id (fun place => holdAt r place data) s

/-- The arbiter decides while the port is free (R163, R164): the transfer granted takes the issue slot and is issued on the
system port. -/
def arbitrate (s : State) : State :=
  match s.issueSlot, (s.port.grant s.now s.occupancy).2 with
  | none, some t =>
    emit (.issued s.port.nextId t)
      ((s.setPort (s.port.grant s.now s.occupancy).1).setIssueSlot (some (t.requester, s.now)))
  | none, none | some _, _ => s

end Sys2Proof.Machine
end

