-- ==== Sys2Proof/Machine/Resets.lean ====
section
/-! DEFINITION. The two resets (R8, R18, R23, R24, R39, R44, R65, R66, R107, R129, R131, R146, R147, R163, R168, R170,
R172, R184, R191). -/

namespace Sys2Proof.Machine

/-- The mirror at soft reset (R8). -/
def Mirror.softReset (x : Mirror) (now : Nat) : Mirror :=
  { x with
    state := (match x.state with
      | .parked => .parked
      | .spinningUp | .locked | .unlocked | .spinningDown | .fault => .spinningDown),
    target := 0, lastIndex := none, lockCount := 0, spinUpEnd := none, watchdogFrom := none,
    rateWatchEnd := x.rateWatchEnd - now }

/-- The camera's presence machine at soft reset: its state and its running timer are kept (R131, log 18, 36). -/
def Camera.softReset (c : Camera) (now : Nat) : Camera :=
  { c with presenceEnd := rebase now c.presenceEnd, checkEnd := rebase now c.checkEnd, checkDue := false }

/-- The presence machine at power-on reset: WAIT, or CHECK at once where Presence is asserted (R131, R132). -/
def Camera.powerOn (presentIn errorIn : Bool) : Camera :=
  { presence := (if presentIn then .check else .wait), presenceEnd := (if presentIn then none else some presenceWait),
    checkEnd := (if presentIn && !errorIn then some checkTime else none), checkAfterWait := false, checkDue := false,
    presentIn := presentIn, errorIn := errorIn }

/-- Continuous assertion of EMIT PERMIT for the indication, 50 ms (R20). -/
def permitCount : Nat := 50 * fineMs

/-- Emission Permit at power-on reset: the count begins at reset if the input is asserted (R20). -/
def Emission.powerOn (input : Bool) : Emission :=
  { input := input, asserted := false, countEnd := (if input then some permitCount else none) }

/-- The block after power-on reset, with the level of RSTIN. The levels on its pins and the azimuth are what they are; the
rest watch begins; job and transfer numbers and free values go on, and the queue is no part of it (log 10, 46, 59, 64). -/
def powerOn (rstin : Bool) (s : State) : State :=
  { State.reset with
    azimuth := s.azimuth, rest := { since := 0, azimuth := s.azimuth }, rstin := rstin,
    port := { State.reset.port with nextId := s.port.nextId }, emission := Emission.powerOn s.emission.input,
    camera := Camera.powerOn s.camera.presentIn s.camera.errorIn, jobSerial := s.jobSerial, freeCount := s.freeCount,
    out := [.cameraStop, .counterSync 0], pending := s.pending }

/-- The block after a soft reset. What no rule resets is kept: encoders, measured rate, Emission Permit, presence machine,
slots and their running offsets, device counters, FAULT register, poll interval. -/
def softReset (s : State) : State :=
  let camera := s.camera.softReset s.now
  { State.reset with
    angle := s.angle, azimuth := s.azimuth, rest := { since := 0, azimuth := s.azimuth }, rstin := s.rstin,
    mirror := s.mirror.softReset s.now, turntable := s.turntable.softReset,
    emission := { s.emission with countEnd := rebase s.now s.emission.countEnd }, jobSerial := s.jobSerial,
    camera := camera, photo := Photo.clear camera, slots := { s.slots with buffer := [] }, counters := s.counters,
    port := s.port.clear, reader := Reader.clear s.reader.pollMs, freeCount := s.freeCount,
    out := [.cameraStop, .counterSync 0], pending := s.pending }

/-- POWER_ON_RESET. -/
def execPowerOnReset (m : Moment) (s : State) : Host.Outcome State Fault Refusal := .next (powerOn m.rstin (observe m s))

/-- RESET. -/
def execReset (m : Moment) (s : State) : Host.Outcome State Fault Refusal := .next (softReset (observe m s))

end Sys2Proof.Machine
end

