-- ==== Sys2Proof/Machine/ChainEvents.lean ====
section
/-! DEFINITION. The completions of the Chain Reader's transfers (R153, R159, R173 to R176), the dispatch of each kind of
job (R174), and the poll tick (R172). -/

namespace Sys2Proof.Machine

/-- The TAKEN write of a block of a given kind completes: the job of that kind is dispatched (R174, log 4). -/
def dispatchEvent (k : JobKind) (id : Nat) (s : State) : State :=
  completeOldest .chain id (fun p => decide (p = .takenWrite) && decide (s.blockJob = some k)) [] s

/-- SPIN. -/
def execSpin (m : Moment) (s : State) : Host.Outcome State Fault Refusal :=
  .next (dispatchEvent .spin m.transfer (observe m s))

/-- PARK. -/
def execPark (m : Moment) (s : State) : Host.Outcome State Fault Refusal :=
  .next (dispatchEvent .park m.transfer (observe m s))

/-- TURN. -/
def execTurn (m : Moment) (s : State) : Host.Outcome State Fault Refusal :=
  .next (dispatchEvent .turn m.transfer (observe m s))

/-- MARK. -/
def execMark (m : Moment) (s : State) : Host.Outcome State Fault Refusal :=
  .next (dispatchEvent .mark m.transfer (observe m s))

/-- SETUP. -/
def execSetup (m : Moment) (s : State) : Host.Outcome State Fault Refusal :=
  .next (dispatchEvent .setup m.transfer (observe m s))

/-- PROFILE. -/
def execProfile (m : Moment) (s : State) : Host.Outcome State Fault Refusal :=
  .next (dispatchEvent .profile m.transfer (observe m s))

/-- REPORT. -/
def execReport (m : Moment) (s : State) : Host.Outcome State Fault Refusal :=
  .next (dispatchEvent .report m.transfer (observe m s))

/-- SCAN. -/
def execScan (m : Moment) (s : State) : Host.Outcome State Fault Refusal :=
  .next (dispatchEvent .scan m.transfer (observe m s))

/-- PHOTO. -/
def execPhoto (m : Moment) (s : State) : Host.Outcome State Fault Refusal :=
  .next (dispatchEvent .photo m.transfer (observe m s))

/-- TAKEN_WRITE_COMPLETE: whatever kind the block is of. -/
def execTakenWriteComplete (m : Moment) (s : State) : Host.Outcome State Fault Refusal :=
  .next (completeOldest .chain m.transfer (fun p => decide (p = .takenWrite)) [] (observe m s))

/-- A half of the block examination. -/
def Purpose.isExamination : Purpose → Bool
  | .examination _ => true
  | .takenWrite | .blockWrite | .resultCode | .resultState | .link | .profileRead | .reportWrite | .descriptorRead
  | .takeField | .takeState | .sealField | .sealState | .record | .continuation | .row _ | .photoHeader => false

/-- EXAMINATION_READ_COMPLETE. -/
def execExaminationReadComplete (m : Moment) (data : List Byte) (s : State) : Host.Outcome State Fault Refusal :=
  .next (completeOldest .chain m.transfer Purpose.isExamination data (observe m s))

/-- BLOCK_WRITE_COMPLETE. -/
def execBlockWriteComplete (m : Moment) (s : State) : Host.Outcome State Fault Refusal :=
  .next (completeOldest .chain m.transfer (fun p => decide (p = .blockWrite)) [] (observe m s))

/-- RESULT_CODE_WRITE_COMPLETE. -/
def execResultCodeWriteComplete (m : Moment) (s : State) : Host.Outcome State Fault Refusal :=
  .next (completeOldest .chain m.transfer (fun p => decide (p = .resultCode)) [] (observe m s))

/-- RESULT_STATE_WRITE_COMPLETE. -/
def execResultStateWriteComplete (m : Moment) (s : State) : Host.Outcome State Fault Refusal :=
  .next (completeOldest .chain m.transfer (fun p => decide (p = .resultState)) [] (observe m s))

/-- LINK_READ_COMPLETE. -/
def execLinkReadComplete (m : Moment) (data : List Byte) (s : State) : Host.Outcome State Fault Refusal :=
  .next (completeOldest .chain m.transfer (fun p => decide (p = .link)) data (observe m s))

/-- PROFILE_READ_COMPLETE. -/
def execProfileReadComplete (m : Moment) (data : List Byte) (s : State) : Host.Outcome State Fault Refusal :=
  .next (completeOldest .chain m.transfer (fun p => decide (p = .profileRead)) data (observe m s))

/-- REPORT_WRITE_COMPLETE. -/
def execReportWriteComplete (m : Moment) (s : State) : Host.Outcome State Fault Refusal :=
  .next (completeOldest .chain m.transfer (fun p => decide (p = .reportWrite)) [] (observe m s))

/-- The counter's reading at which the next poll tick is due (R172). -/
def pollDue (r : Reader) : Nat := r.pollFrom + r.pollMs * fineMs

/-- A poll tick reaches the reader and the Page Manager (R94, R172, R177), the reader's request ahead of the Page Manager's
(log 62). -/
def pollTicks (s : State) : State :=
  if 1 ≤ s.reader.pollMs ∧ pollDue s.reader ≤ s.now then
    advancePages (wakePages (lookAtChain (s.setReader { s.reader with pollFrom := pollDue s.reader })))
  else s

/-- POLL_TICK. -/
def execPollTick (m : Moment) (s : State) : Host.Outcome State Fault Refusal := .next (pollTicks (observe m s))

end Sys2Proof.Machine
end

