-- ==== Sys2Proof/Machine/Matcher.lean ====
section
/-! DEFINITION. The Return Matcher (file 03): echo events, the zone tracker, attachment, and the expiry of a shot; and the
fire time (R31). -/

namespace Sys2Proof.Machine

/-! ## Counts (R47, R49, R62) -/

/-- An echo event outside any scan (R46). -/
def countOutside (s : State) : State := s.setCounters { s.counters with outside := satAdd 64 s.counters.outside 1 }

/-- A stray of any sort: the job's total and the device counter (R47, R62). -/
def countStray (s : State) : State :=
  (s.setIntake { s.intake with jobStrays := satAdd 32 s.intake.jobStrays 1 }).setCounters
    { s.counters with strays := satAdd 64 s.counters.strays 1 }

/-- A stray of the open line (R51, R57). -/
def strayInLine (s : State) : State := countStray (s.setIntake { s.intake with strays := satAdd 32 s.intake.strays 1 })

/-- A stray before the next line (R49). -/
def strayBefore (s : State) : State :=
  countStray (s.setIntake { s.intake with pendingStrays := satAdd 32 s.intake.pendingStrays 1 })

/-- A target event that breaks the receiver's order, or meets no line or no shot: a stray of the open line, or of the next
one (R46, R49). -/
def strayTarget (s : State) : State := if s.line.phase = .none then strayBefore s else strayInLine s

/-- A blanked event (R48). -/
def countBlanked (s : State) : State := s.setIntake { s.intake with blanked := satAdd 32 s.intake.blanked 1 }

/-! ## The reference channel (R47) -/

/-- Change one entry of the open shot list. -/
def modifyShot (number : Nat) (f : OpenShot → OpenShot) (s : State) : State :=
  s.setShots (s.shots.map (fun o => if o.number = number then f o else o))

/-- A reference shot's window contains a time stamp (R47). -/
def OpenShot.hearsReference (o : OpenShot) (t : Nat) : Bool :=
  decide (o.kind = .reference) && decide (o.fire ≤ t) && decide (t ≤ o.fire + referenceWindow)

/-- A REFERENCE event is attached to the reference shot that hears it, or is a reference stray (R47). -/
def referenceEcho (e : Echo) (s : State) : State :=
  match s.shots.find? (fun o => o.hearsReference e.stamp) with
  | some o => if o.echoes = [] then modifyShot o.number (fun x => { x with echoes := [e] }) s else countStray s
  | none => countStray s

/-! ## Candidates and the zone tracker (R48, R51 to R58) -/

/-- A time stamp lies in a shot's blanking interval (R48). -/
def OpenShot.blanks (o : OpenShot) (blanking t : Nat) : Bool := decide (o.fire ≤ t) && decide (t < o.fire + blanking)

/-- A shot is a candidate for a time stamp (R51). -/
def OpenShot.candidate (o : OpenShot) (p : Profile) (t : Nat) : Bool :=
  decide (o.kind = .target) && decide (o.fire + p.blanking ≤ t) && decide (t ≤ o.fire + p.window)

/-- The candidates by zone: the newest first (R51). -/
def candidates (p : Profile) (t : Nat) (shots : List OpenShot) : List OpenShot :=
  (shots.filter (fun o => o.candidate p t)).reverse

/-- The tracking range of a candidate (R52). -/
def trackingRange (sl : Slot) (t amplitude : Nat) (o : OpenShot) : Nat := sl.range ((t : Int) - o.fire) amplitude

/-- The distance between two ranges. -/
def rangeGap (a b : Nat) : Nat := ((a : Int) - b).natAbs

/-- The fitting zone nearest to the last range, the lower number of two at the same distance: zones from `k` on (R53, R56). -/
def nearestZone (gate last : Nat) : Nat → List Nat → Option (Nat × Nat)
  | _, [] => none
  | k, r :: rest =>
    let gap := rangeGap r last
    match nearestZone gate last (k + 1) rest with
    | none => if gap ≤ gate then some (k, gap) else none
    | some (i, g) => if gap ≤ gate ∧ gap ≤ g then some (k, gap) else some (i, g)

/-- What the tracker decides for an echo: the zone attached to, the uncertain flag, whether it switches there, and its own
values afterwards (R54 to R57). -/
structure Choice where
  zone      : Nat
  uncertain : Bool
  switches  : Bool
  tracker   : Tracker
deriving DecidableEq, Repr

/-- The zone `z`, or the highest one that exists (R54). -/
def orHighest (z m : Nat) : Nat := if z < m then z else m - 1

/-- Some zone other than the current one fits: the agree count moves, and may switch (R56). -/
def favourZone (switchCount k m : Nat) (x : Tracker) : Choice :=
  let n := if x.candidate = some k then x.agree + 1 else 1
  if switchCount ≤ n then
    { zone := k, uncertain := false, switches := true, tracker := { x with zone := k, candidate := none, agree := 0 } }
  else
    { zone := if x.zone < m then x.zone else k, uncertain := true, switches := false,
      tracker := { x with candidate := some k, agree := n } }

/-- Zone `z` exists and fits (R53, R55). -/
def zoneFits (gate last z : Nat) (ranges : List Nat) : Bool :=
  match ranges[z]? with
  | none => false
  | some r => decide (rangeGap r last ≤ gate)

/-- The tracker's decision over the tracking ranges of the existing zones; none: the event is a stray (R53 to R57). -/
def chooseZone (gate switchCount : Nat) (ranges : List Nat) (x : Tracker) : Option Choice :=
  match x.lastRange with
  | none => some { zone := orHighest x.zone ranges.length, uncertain := false, switches := false, tracker := x }
  | some last =>
    if zoneFits gate last x.zone ranges then
      some { zone := x.zone, uncertain := false, switches := false, tracker := { x with candidate := none, agree := 0 } }
    else match nearestZone gate last 0 ranges with
      | some (k, _) => some (favourZone switchCount k ranges.length x)
      | none =>
        if x.zone < ranges.length then some { zone := x.zone, uncertain := true, switches := false, tracker := x } else none

/-! ## Attachment (R58, R59) -/

/-- The last range after an attachment: it moves at the job's first echo, and at a certain echo that is the first on its
shot (R58). -/
def lastRangeAfter (before : Option Nat) (c : Choice) (o : OpenShot) (range : Nat) : Option Nat :=
  if c.uncertain then before
  else match before with
    | none => some range
    | some r => if o.echoes = [] then some range else some r

/-- The shot after an echo has been attached to it (R59). -/
def OpenShot.attach (o : OpenShot) (e : Echo) (zone : Nat) : OpenShot :=
  { o with echoes := o.echoes ++ [e], attachZone := if o.echoes = [] then some zone else o.attachZone }

/-- A switch marks the shot at which it takes effect (R56). -/
def OpenShot.markSwitch (o : OpenShot) (switches : Bool) : OpenShot := { o with zoneSwitch := o.zoneSwitch || switches }

/-- The echo goes to the shot chosen, or is dropped where that shot holds the job's echo limit (R59). -/
def attachEcho (limit : Nat) (c : Choice) (o : OpenShot) (range : Nat) (e : Echo) (s : State) : State :=
  if o.echoes.length < limit then
    ((modifyShot o.number (fun x => (x.markSwitch c.switches).attach { e with uncertain := c.uncertain } c.zone) s).setTracker
      { c.tracker with lastRange := lastRangeAfter c.tracker.lastRange c o range }).setIntake
        { s.intake with attached := satAdd 32 s.intake.attached 1 }
      |>.setCounters { s.counters with echoes := satAdd 64 s.counters.echoes 1 }
  else
    ((modifyShot o.number (fun x => { x.markSwitch c.switches with overflow := true }) s).setTracker c.tracker).setIntake
      { s.intake with dropped := satAdd 32 s.intake.dropped 1 }

/-- A target event with a line open and not blanked is matched (R51 to R59). -/
def matchEcho (sl : Slot) (limit : Nat) (e : Echo) (s : State) : State :=
  let cs := candidates sl.profile e.stamp s.shots
  let ranges := cs.map (trackingRange sl e.stamp e.amplitude)
  if cs = [] then strayInLine s
  else match chooseZone sl.profile.gate sl.profile.switchCount ranges s.tracker with
    | none => strayInLine s
    | some c =>
      match cs[c.zone]? with
      | none => strayInLine s
      | some o => attachEcho limit c o (trackingRange sl e.stamp e.amplitude o) e s

/-- A TARGET event in order: blanking, then the line's state, then the candidates (R48, R49, R51). -/
def targetEcho (j : ScanJob) (sl : Slot) (e : Echo) (s : State) : State :=
  if s.shots.any (fun o => o.blanks sl.profile.blanking e.stamp) then countBlanked s
  else if s.line.phase = .none then strayBefore s
  else matchEcho sl j.params.echoLimit e s

/-- The echo of an event; a saturated one is taken at the top amplitude (R43, R45). -/
def echoOf (stamp : Word) (amplitude width : BitVec 16) (saturated : Bool) : Echo :=
  { stamp := stamp.toNat, amplitude := if saturated then 65535 else amplitude.toNat, width := width.toNat,
    saturated := saturated, uncertain := false }

/-- An event at or after the last stamp taken goes to its channel (R46). -/
def sortEcho (ch : Channel) (j : ScanJob) (sl : Slot) (e : Echo) (s : State) : State :=
  match ch with
  | .reference => referenceEcho e s
  | .target => targetEcho j sl e s

/-- An event stamped before the last one taken (R46). -/
def lateEcho (ch : Channel) (s : State) : State :=
  match ch with
  | .reference => countStray s
  | .target => strayTarget s

/-- An echo event is taken (R46); outside a scan its stamp is compared with nothing (R65, log 57). A stamp later
than the counter's reading is of before a reset (R65), or cannot be (R35): in either case it is not compared with the counter,
and one taken in SCANNING is taken as any other (the model's choice there, and an exception to log 3; log 60). -/
def echoArrives (ch : Channel) (e : Echo) (s : State) : State :=
  match s.scanJob, s.scanSlot with
  | some j, some sl =>
    if j.phase = .scanning then
      (if e.stamp < s.intake.lastStamp then lateEcho ch s
       else sortEcho ch j sl e (s.setIntake { s.intake with lastStamp := e.stamp }))
    else countOutside s
  | _, _ => countOutside s

/-- ECHO_EVENT. -/
def execEchoEvent (m : Moment) (ch : Channel) (stamp : Word) (amplitude width : BitVec 16) (saturated : Bool) (s : State) :
    Host.Outcome State Fault Refusal :=
  .next (echoArrives ch (echoOf stamp amplitude width saturated) (observe m s))

/-! ## Fire time and expiry (R31, R42) -/

/-- FIRE_TIME. -/
def execFireTime (m : Moment) (s : State) : Host.Outcome State Fault Refusal := .next (fireTimeComes (observe m s))

/-- A shot leaves the open shot list and is handed to the Record Builder, which may lose the reference (R42, R76). -/
def handShot (o : OpenShot) (s : State) : State :=
  let s1 := s.setShots (s.shots.filter (fun x => decide (x.number ≠ o.number)))
  let s2 := shotClosed o s1
  if referenceLostAt s1 s2 then scanFail .referenceLost .referenceLost s2 else s2

/-- The expiry of a shot comes: it is handed over, its line may close, a waiting shot may fire (R42, R70, R34). -/
def shotExpires (number : Nat) (s : State) : State :=
  match s.shots.find? (fun o => decide (o.number = number) && decide (o.expiry ≤ s.now)) with
  | some o => advancePages (placeFree (closeCheck (handShot o s)))
  | none => s

/-- SHOT_EXPIRY. -/
def execShotExpiry (m : Moment) (shot : Nat) (s : State) : Host.Outcome State Fault Refusal :=
  .next (shotExpires shot (observe m s))

end Sys2Proof.Machine
end

