-- ==== Sys2Proof/Machine/PageEvents.lean ====
section
/-! DEFINITION. The completions of the Page Manager's transfers (R90, R91, R95, R98) and the events of the Store Port
(R164, R165, R167). -/

namespace Sys2Proof.Machine

/-- DESCRIPTOR_READ_COMPLETE. -/
def execDescriptorReadComplete (m : Moment) (data : List Byte) (s : State) : Host.Outcome State Fault Refusal :=
  .next (completeOldest .descriptor m.transfer (fun p => decide (p = .descriptorRead)) data (observe m s))

/-- TAKE_FIELD_WRITE_COMPLETE. -/
def execTakeFieldWriteComplete (m : Moment) (s : State) : Host.Outcome State Fault Refusal :=
  .next (completeOldest .descriptor m.transfer (fun p => decide (p = .takeField)) [] (observe m s))

/-- TAKE_STATE_WRITE_COMPLETE. -/
def execTakeStateWriteComplete (m : Moment) (s : State) : Host.Outcome State Fault Refusal :=
  .next (completeOldest .descriptor m.transfer (fun p => decide (p = .takeState)) [] (observe m s))

/-- SEAL_FIELD_WRITE_COMPLETE. -/
def execSealFieldWriteComplete (m : Moment) (s : State) : Host.Outcome State Fault Refusal :=
  .next (completeOldest .descriptor m.transfer (fun p => decide (p = .sealField)) [] (observe m s))

/-- SEAL_STATE_WRITE_COMPLETE. -/
def execSealStateWriteComplete (m : Moment) (s : State) : Host.Outcome State Fault Refusal :=
  .next (completeOldest .descriptor m.transfer (fun p => decide (p = .sealState)) [] (observe m s))

/-- RECORD_WRITE_COMPLETE: a record's write, or that of a continuation header (R95, R97, log 23). -/
def execRecordWriteComplete (m : Moment) (s : State) : Host.Outcome State Fault Refusal :=
  .next (completeOldest .record m.transfer (fun p => decide (p = .record) || decide (p = .continuation)) [] (observe m s))

/-- GRANT. -/
def execGrant (m : Moment) (s : State) : Host.Outcome State Fault Refusal := .next (arbitrate (observe m s))

/-- TRANSFER_ERROR. -/
def execTransferError (m : Moment) (r : Requester) (id : Nat) (s : State) : Host.Outcome State Fault Refusal :=
  .next (transferErrs r id (observe m s))

/-- TRANSFER_TIMEOUT. -/
def execTransferTimeout (m : Moment) (r : Requester) (id : Nat) (s : State) : Host.Outcome State Fault Refusal :=
  .next (transferTimesOut r id (observe m s))

/-- HELD_ANSWER. -/
def execHeldAnswer (m : Moment) (r : Requester) (id : Nat) (data : List Byte) (s : State) :
    Host.Outcome State Fault Refusal :=
  .next (holdAnswer r id data (observe m s))

end Sys2Proof.Machine
end

