-- ==== Sys2Proof/Machine/PhotoEvents.lean ====
section
/-! DEFINITION. The events of the Photo Unit (R131 to R138): timers, rows, write completions, camera levels. -/

namespace Sys2Proof.Machine

/-- The mid-exposure timer runs out (R134). -/
def midExposureOver (s : State) : State :=
  match s.photo.current with
  | some p => if ended p.midEnd s.now then midExposure p s else s
  | none => s

/-- MID_EXPOSURE_TIMER_EXPIRY. -/
def execMidExposureTimerExpiry (m : Moment) (s : State) : Host.Outcome State Fault Refusal :=
  .next (midExposureOver (observe m s))

/-- The exposure timer runs out in EXPOSING (R134). -/
def exposureTimeOver (s : State) : State :=
  match s.photo.current with
  | some p => if s.photo.state = .exposing ∧ ended p.exposureEnd s.now then exposureOver p s else s
  | none => s

/-- EXPOSURE_TIMER_EXPIRY. -/
def execExposureTimerExpiry (m : Moment) (s : State) : Host.Outcome State Fault Refusal :=
  .next (exposureTimeOver (observe m s))

/-- A Row arrives; one that comes while none is accepted is discarded (R130, R135). -/
def rowTaken (data : List Byte) (s : State) : State :=
  match s.photo.current with
  | some p => if p.accepting ∧ data.length = p.mode.rowSize then rowArrives data p s else s
  | none => s

/-- ROW. -/
def execRow (m : Moment) (data : List Byte) (s : State) : Host.Outcome State Fault Refusal :=
  .next (rowTaken data (observe m s))

/-- The row timeout runs out while rows are accepted: a camera fault (R136). -/
def rowTimeOver (s : State) : State :=
  match s.photo.current with
  | some p => if p.accepting ∧ ended p.rowEnd s.now then cameraFault s else s
  | none => s

/-- ROW_TIMEOUT. -/
def execRowTimeout (m : Moment) (s : State) : Host.Outcome State Fault Refusal := .next (rowTimeOver (observe m s))

/-- A row transfer. -/
def Purpose.isRow : Purpose → Bool
  | .row _ => true
  | .examination _ | .takenWrite | .blockWrite | .resultCode | .resultState | .link | .profileRead | .reportWrite
  | .descriptorRead | .takeField | .takeState | .sealField | .sealState | .record | .continuation | .photoHeader => false

/-- ROW_WRITE_COMPLETE. -/
def execRowWriteComplete (m : Moment) (s : State) : Host.Outcome State Fault Refusal :=
  .next (completeOldest .photo m.transfer Purpose.isRow [] (observe m s))

/-- HEADER_WRITE_COMPLETE. -/
def execHeaderWriteComplete (m : Moment) (s : State) : Host.Outcome State Fault Refusal :=
  .next (completeOldest .photo m.transfer (fun p => decide (p = .photoHeader)) [] (observe m s))

/-- The Presence level changes; after the presence wait that raises CAMERA (R131). -/
def presenceLevel (level : Bool) (s : State) : State :=
  let s1 := s.setCamera { s.camera with presentIn := level }
  if s.camera.presence = .wait then s1 else raise .camera s1

/-- Presence is asserted (R131); repeated, it is no change (log 47). -/
def presenceRises (s : State) : State :=
  if s.camera.presentIn then s
  else match s.camera.presence with
    | .wait => enterCheck false (presenceLevel true s)
    | .absent => enterCheck true (presenceLevel true s)
    | .check | .present => presenceLevel true s

/-- PRESENCE_ASSERTED. -/
def execPresenceAsserted (m : Moment) (s : State) : Host.Outcome State Fault Refusal := .next (presenceRises (observe m s))

/-- The photo machine when the camera has left PRESENT: the photograph in hand faults, a station in ARMED is abandoned,
IDLE becomes ABSENT (R131, R132, R136, R141). -/
def photoCameraGone (s : State) : State :=
  match s.photo.state with
  | .exposing | .readout => cameraFault s
  | .armed =>
    (match s.job with
     | some (.photo p) => cameraLost p s
     | _ => restPhoto s)
  | .idle | .absent => restPhoto s

/-- ABSENT is entered (R131). -/
def enterAbsent (s : State) : State :=
  s.setCamera { s.camera with presence := .absent, presenceEnd := none, checkEnd := none, checkDue := false }

/-- A photograph in hand takes a camera fault, whatever the presence machine's state (R136). -/
def faultIfBusy (s : State) : State := if s.photo.state.busy then advancePages (cameraFault s) else s

/-- Presence is deasserted (R131, R136). -/
def presenceDrops (s : State) : State :=
  if s.camera.presentIn then
    (match s.camera.presence with
     | .wait | .absent => faultIfBusy (presenceLevel false s)
     | .check => faultIfBusy (enterAbsent (presenceLevel false s))
     | .present => advancePages (photoCameraGone (enterAbsent (presenceLevel false s))))
  else s

/-- PRESENCE_DEASSERTED. -/
def execPresenceDeasserted (m : Moment) (s : State) : Host.Outcome State Fault Refusal :=
  .next (presenceDrops (observe m s))

/-- The presence wait runs out with no camera (R131). -/
def presenceTimeOver (s : State) : State :=
  if s.camera.presence = .wait ∧ ended s.camera.presenceEnd s.now then enterAbsent s else s

/-- PRESENCE_TIMER_EXPIRY. -/
def execPresenceTimerExpiry (m : Moment) (s : State) : Host.Outcome State Fault Refusal :=
  .next (presenceTimeOver (observe m s))

/-- Error is asserted in PRESENT: the self-check begins again, once a photograph in hand has ended (R132, R136). -/
def errorInPresent (s : State) : State :=
  if s.photo.state.busy then cameraFault (s.setCamera { s.camera with checkDue := true })
  else photoCameraGone (enterCheck true s)

/-- Error is asserted (R132, R136); repeated, it is no change (log 47). -/
def errorRises (s : State) : State :=
  if s.camera.errorIn then s
  else
    let s1 := s.setCamera { s.camera with errorIn := true }
    match s.camera.presence with
    | .check => faultIfBusy (s1.setCamera { s1.camera with checkEnd := none })
    | .present => advancePages (errorInPresent s1)
    | .wait | .absent => faultIfBusy s1

/-- ERROR_ASSERTED. -/
def execErrorAsserted (m : Moment) (s : State) : Host.Outcome State Fault Refusal := .next (errorRises (observe m s))

/-- Error is deasserted: in CHECK the timer starts afresh (R132). -/
def errorDrops (s : State) : State :=
  if s.camera.errorIn then
    s.setCamera { s.camera with
      errorIn := false,
      checkEnd := (if s.camera.presence = .check then some (s.now + checkTime) else s.camera.checkEnd) }
  else s

/-- ERROR_DEASSERTED. -/
def execErrorDeasserted (m : Moment) (s : State) : Host.Outcome State Fault Refusal := .next (errorDrops (observe m s))

/-- The self-check is passed: PRESENT, and IDLE unless a photograph is still in hand; CAMERA is raised for a check begun
after the wait (R132). -/
def checkPassed (s : State) : State :=
  let s1 := s.setCamera { s.camera with presence := .present, checkEnd := none }
  let s2 := if s1.photo.current = none then restPhoto s1 else s1
  if s.camera.checkAfterWait then raise .camera s2 else s2

/-- The check timer runs out (R132). -/
def checkTimeOver (s : State) : State :=
  if s.camera.presence = .check ∧ ended s.camera.checkEnd s.now then checkPassed s else s

/-- CHECK_TIMER_EXPIRY. -/
def execCheckTimerExpiry (m : Moment) (s : State) : Host.Outcome State Fault Refusal := .next (checkTimeOver (observe m s))

end Sys2Proof.Machine
end

