-- ==== Sys2Proof/Machine/ScanEvents.lean ====
section
/-! DEFINITION. The run-in events of the SCAN job (R114, R115). -/

namespace Sys2Proof.Machine

/-- The run-in delay runs out: the track request is issued (R114). -/
def runInDelayOver (s : State) : State :=
  match s.scanJob with
  | some j =>
    (match j.phase, j.endWait, j.runInStage with
     | .runIn, .none, .delay till => if till ≤ s.now then advancePages (issueTrack j s) else s
     | _, _, _ => s)
  | none => s

/-- RUN_IN_DELAY_EXPIRY. -/
def execRunInDelayExpiry (m : Moment) (s : State) : Host.Outcome State Fault Refusal := .next (runInDelayOver (observe m s))

/-- The active sector of a scan as Sweep Control holds it (R21). -/
def sectorOf (p : ScanParams) : Sector :=
  { bounds := some (BitVec.ofNat 22 p.sectorStart, BitVec.ofNat 22 p.sectorStop), inside := false }

/-- SCANNING is entered: the sector is handed over and the Emission Permit indication read (R115). -/
def enterScanning (j : ScanJob) (s : State) : State :=
  let s1 := (putScan { j with phase := .scanning } s).setSector (sectorOf j.params)
  if s.emission.asserted then s1 else scanFail .emissionOff .emission s1

/-- The run-in is complete (R115). -/
def runInCompletes (s : State) : State :=
  match s.scanJob with
  | some j =>
    if j.phase = .runIn ∧ j.endWait = .none ∧ j.runInStage = .travel ∧ runInDone j s.azimuth then
      advancePages (enterScanning j s)
    else s
  | none => s

/-- RUN_IN_COMPLETE. -/
def execRunInComplete (m : Moment) (s : State) : Host.Outcome State Fault Refusal := .next (runInCompletes (observe m s))

end Sys2Proof.Machine
end

