-- ==== Sys2Proof/Machine/Sweep.lean ====
section
/-! DEFINITION. The events of Sweep Control (file 01): index marks and mirror timers, the turntable, the Emission Permit,
the sector. -/

namespace Sys2Proof.Machine

/-! ## Mirror (R1 to R7) -/

/-- The nominal period times the target rate: 100 seconds in fine units (R2, R4). -/
def rateUnit : Nat := 100 * fineSec

/-- The measured rate of a revolution in 0.01 rev/s, rounded to nearest and saturated (R2, log 12). -/
def measuredRate (interval : Nat) : Nat :=
  if interval = 0 then 65535 else min 65535 (roundDiv rateUnit interval (Config.rateTieUp interval))

/-- How far a revolution's exact rate lies from the target, times its interval. -/
def rateDistance (target interval : Nat) : Nat := ((rateUnit : Int) - (target * interval : Nat)).natAbs

/-- The revolution is in the lock band: within 0.5 % of the target (R2). -/
def inLockBand (target interval : Nat) : Bool := decide (200 * rateDistance target interval ≤ target * interval)

/-- The revolution is outside the loss band: more than 2 % from the target (R2). -/
def outsideLossBand (target interval : Nat) : Bool := decide (target * interval < 50 * rateDistance target interval)

/-- Revolutions in band that lock the mirror (R3). -/
def lockRevolutions : Nat := 16

/-- A revolution in SPINNING-UP or UNLOCKED (R3). -/
def countLock (interval now : Nat) (x : Mirror) : Mirror :=
  if inLockBand x.target interval then
    (if lockRevolutions ≤ x.lockCount + 1 then
      { x with state := .locked, lockCount := lockRevolutions, spinUpEnd := none, watchdogFrom := some now }
     else { x with lockCount := x.lockCount + 1 })
  else { x with lockCount := 0 }

/-- UNLOCKED is entered (R4). -/
def Mirror.unlock (x : Mirror) (now : Nat) : Mirror :=
  { x with state := .unlocked, lockCount := 0, watchdogFrom := none, spinUpEnd := some (now + spinUpLimit) }

/-- A revolution in LOCKED (R4). -/
def watchLoss (interval now : Nat) (x : Mirror) : Mirror :=
  if outsideLossBand x.target interval then x.unlock now else { x with watchdogFrom := some now }

/-- A measured revolution is evaluated as the mirror's state requires (R2 to R4). -/
def evaluateRevolution (interval now : Nat) (x : Mirror) : Mirror :=
  match x.state with
  | .spinningUp | .unlocked => countLock interval now x
  | .locked => watchLoss interval now x
  | .parked | .spinningDown | .fault => x

/-- The rate watch takes an index mark (R2). -/
def markMirror (now : Nat) (x : Mirror) : Mirror :=
  let x1 := { x with lastIndex := some now, rateWatchEnd := now + fineSec }
  match x.lastIndex with
  | none => x1
  | some f => evaluateRevolution (now - f) now { x1 with rate := measuredRate (now - f) }

/-- The Record Builder and the running SCAN job take the index (R1, R67, R114, R117). -/
def indexAtScan (s : State) : State :=
  match s.scanJob with
  | none => s
  | some j =>
    if lineMayOpen j s then
      crossings s.line.started (trackError j.params s.line.started s) (recomputePermit (openLine j.params s))
    else if j.phase = .runIn ∧ j.endWait = .none then runInIndex j s
    else s

/-- The Page Manager takes the index while a SCAN runs (R1, R94). -/
def indexAtPages (s : State) : State := if s.scanJob.isSome then wakePages s else s

/-- An index mark: Sweep Control first, a change of state told, then the blocks that take the index (R1). -/
def indexMark (s : State) : State :=
  let s1 := (s.setAngle 0).setMirror (markMirror s.now s.mirror)
  let s2 := if s1.mirror.state = s.mirror.state then s1 else mirrorChanged s1
  advancePages (indexAtPages (indexAtScan s2))

/-- MIRROR_INDEX_MARK. -/
def execMirrorIndexMark (m : Moment) (s : State) : Host.Outcome State Fault Refusal := .next (indexMark (observe m s))

/-- The mirror at a rate watch expiry (R2, R6); the watch goes on (log 19). -/
def rateWatchMirror (now : Nat) (x : Mirror) : Mirror :=
  let x1 := { x with lastIndex := none, rate := 0, rateWatchEnd := now + fineSec }
  if x.state = .spinningDown then { x1 with state := .parked, target := 0 } else x1

/-- One second without an index mark (R2, R6). -/
def rateWatchOver (s : State) : State :=
  if s.mirror.rateWatchEnd ≤ s.now then s.setMirror (rateWatchMirror s.now s.mirror) else s

/-- RATE_WATCH_EXPIRY. -/
def execRateWatchExpiry (m : Moment) (s : State) : Host.Outcome State Fault Refusal := .next (rateWatchOver (observe m s))

/-- The index watchdog of a LOCKED mirror has run two nominal periods (R4). -/
def watchdogDue (now : Nat) (x : Mirror) : Bool :=
  match x.state, x.watchdogFrom with
  | .locked, some f => decide (2 * rateUnit ≤ (now - f) * x.target)
  | _, _ => false

/-- Two nominal periods without an index mark in LOCKED (R4). -/
def watchdogOver (s : State) : State :=
  if watchdogDue s.now s.mirror then advancePages (mirrorChanged (s.setMirror (s.mirror.unlock s.now))) else s

/-- INDEX_WATCHDOG_EXPIRY. -/
def execIndexWatchdogExpiry (m : Moment) (s : State) : Host.Outcome State Fault Refusal := .next (watchdogOver (observe m s))

/-- The spin-up limit runs out in SPINNING-UP or UNLOCKED (R5). -/
def spinUpLimitOver (s : State) : State :=
  if (s.mirror.state = .spinningUp ∨ s.mirror.state = .unlocked) ∧ ended s.mirror.spinUpEnd s.now then
    advancePages (mirrorChanged (raise .fault (s.setMirror { s.mirror with
      state := .fault, lockCount := 0, spinUpEnd := none })))
  else s

/-- SPIN_UP_LIMIT_EXPIRY. -/
def execSpinUpLimitExpiry (m : Moment) (s : State) : Host.Outcome State Fault Refusal :=
  .next (spinUpLimitOver (observe m s))

/-! ## Turntable (R13, R14, R17, R18) -/

/-- The azimuth enters the hold band in SLEWING (R13). -/
def bandEntered (s : State) : State :=
  if s.turntable.state = .slewing ∧ s.inHoldBand then
    s.setTurntable { s.turntable with state := .settling, settleEnd := some (s.now + s.turntable.settleMs * fineMs) }
  else s

/-- HOLD_BAND_ENTRY. -/
def execHoldBandEntry (m : Moment) (s : State) : Host.Outcome State Fault Refusal := .next (bandEntered (observe m s))

/-- The azimuth leaves the hold band in SETTLING (R13) or HELD (R14). -/
def bandLeft (s : State) : State :=
  if s.inHoldBand then s
  else match s.turntable.state with
    | .settling => s.setTurntable { s.turntable with state := .slewing, settleEnd := none }
    | .held => s.setTurntable { s.turntable with state := .slewing, slewEnd := some (s.now + slewLimit) }
    | .stopped | .slewing | .tracking | .decelerating | .fault => s

/-- HOLD_BAND_EXIT. -/
def execHoldBandExit (m : Moment) (s : State) : Host.Outcome State Fault Refusal := .next (bandLeft (observe m s))

/-- The running job whose move is in force and not yet answered is answered as arrived (R13, R14, log 51). -/
def answerArrived (s : State) : State :=
  if s.requestIsOurs ∧ s.turntable.answered = false then
    jobArrived (s.setTurntable { s.turntable with answered := true })
  else s

/-- The settle timer runs out in SETTLING (R13). -/
def settled (s : State) : State :=
  if s.turntable.state = .settling ∧ ended s.turntable.settleEnd s.now then
    advancePages (answerArrived (s.setTurntable { s.turntable with state := .held, settleEnd := none, slewEnd := none }))
  else s

/-- SETTLE_TIMER_EXPIRY. -/
def execSettleTimerExpiry (m : Moment) (s : State) : Host.Outcome State Fault Refusal := .next (settled (observe m s))

/-- The slew limit runs out in SLEWING or SETTLING (R13, R14, R17). -/
def slewLimitOver (s : State) : State :=
  if (s.turntable.state = .slewing ∨ s.turntable.state = .settling) ∧ ended s.turntable.slewEnd s.now then
    advancePages (jobTurntableFault (enterTurntableFault s))
  else s

/-- SLEW_LIMIT_EXPIRY. -/
def execSlewLimitExpiry (m : Moment) (s : State) : Host.Outcome State Fault Refusal := .next (slewLimitOver (observe m s))

/-- The azimuth has changed by no more than 16 counts over 10 ms, as far as the commands have sampled it (R18, log 59). -/
def State.headAtRest (s : State) : Bool := decide (s.rest.since + restTime ≤ s.now)

/-- The head is at rest in DECELERATING (R18). The event is held against the azimuths that the commands brought; where they
say otherwise it moves nothing (log 3, 59). -/
def atRest (s : State) : State :=
  if s.turntable.state = .decelerating ∧ s.headAtRest then s.setTurntable { s.turntable with state := .stopped } else s

/-- TURNTABLE_AT_REST. -/
def execTurntableAtRest (m : Moment) (s : State) : Host.Outcome State Fault Refusal := .next (atRest (observe m s))

/-! ## Emission Permit and sector (R20 to R22) -/

/-- The Emission Permit indication falls: the permit, then the scan (R22, R120). -/
def permitFalls (s : State) : State := scanFail .emissionOff .emission (recomputePermit s)

/-- EMIT PERMIT is deasserted (R20). -/
def permitDeasserted (s : State) : State :=
  let s1 := s.setEmission { input := false, asserted := false, countEnd := none }
  if s.emission.asserted then advancePages (permitFalls s1) else s1

/-- EMIT_PERMIT_DEASSERTED. -/
def execEmitPermitDeasserted (m : Moment) (s : State) : Host.Outcome State Fault Refusal :=
  .next (permitDeasserted (observe m s))

/-- EMIT PERMIT is asserted: the count begins (R20); one already asserted goes on (log 47). -/
def permitAsserted (s : State) : State :=
  if s.emission.input then s
  else s.setEmission { s.emission with input := true, countEnd := some (s.now + permitCount) }

/-- EMIT_PERMIT_ASSERTED. -/
def execEmitPermitAsserted (m : Moment) (s : State) : Host.Outcome State Fault Refusal :=
  .next (permitAsserted (observe m s))

/-- EMIT PERMIT has been asserted for 50 ms (R20). -/
def permitCounted (s : State) : State :=
  if s.emission.input ∧ ended s.emission.countEnd s.now then
    recomputePermit (s.setEmission { s.emission with asserted := true, countEnd := none })
  else s

/-- EMIT_PERMIT_COUNT_EXPIRY. -/
def execEmitPermitCountExpiry (m : Moment) (s : State) : Host.Outcome State Fault Refusal :=
  .next (permitCounted (observe m s))

/-- The mirror angle reaches the sector start (R21, R22). -/
def sectorEntered (s : State) : State :=
  match s.sector.bounds with
  | some b => if s.angle = b.1 then recomputePermit (s.setSector { s.sector with inside := true }) else s
  | none => s

/-- SECTOR_ENTRY. -/
def execSectorEntry (m : Moment) (s : State) : Host.Outcome State Fault Refusal := .next (sectorEntered (observe m s))

/-- The mirror angle reaches the sector stop: the line's firing ends with cause SECTOR-EXIT (R21, R30). -/
def sectorLeft (s : State) : State :=
  match s.sector.bounds with
  | some b =>
    if s.angle = b.2 then advancePages (recomputePermit (endFiring .sectorExit (s.setSector { s.sector with inside := false })))
    else s
  | none => s

/-- SECTOR_EXIT. -/
def execSectorExit (m : Moment) (s : State) : Host.Outcome State Fault Refusal := .next (sectorLeft (observe m s))

end Sys2Proof.Machine
end

