-- ==== Sys2Proof/WellFormed.lean ====
section
/-! DEFINITION. Which commands are well formed: the lengths and places the spec allows. -/

namespace Sys2Proof

/-- A read or write of `count` bytes from byte `first` stays inside one 8-byte register (R180). -/
def registerSpan (first count : Nat) : Bool :=
  1 ≤ count && first + count ≤ 8

/-- The checks of a command's operands. A read's data is as long as the transfer (R162), a camera row as long as its
mode's rows (R130). An echo event may bear any stamp: one of before a reset may be later than the counter (R65, log 60). -/
def Instr.wellFormed : Instr → Bool
  | .notice _ first count => registerSpan first count
  | .registerWrite _ offset count _ => decide (offset < 64) && registerSpan (offset % 8) count
  | .profileReadComplete _ data => data.length == 192
  | .descriptorReadComplete _ data => data.length == 64
  | .examinationReadComplete _ data => data.length == 256
  | .linkReadComplete _ data => data.length == 8
  | .row _ data => data.length == 9216 || data.length == 4608
  | .heldAnswer _ _ _ data => decide (data.length ≤ 256)
  | .powerOnReset _ | .reset _ | .abort _ | .halt _ | .resume _ | .cut _ | .chainStart _ _ | .look _
  | .noticeMask _ _ | .mirrorIndexMark _ | .rateWatchExpiry _ | .indexWatchdogExpiry _ | .spinUpLimitExpiry _
  | .spin _ | .park _ | .turn _ | .holdBandEntry _ | .holdBandExit _ | .settleTimerExpiry _
  | .slewLimitExpiry _ | .turntableAtRest _ | .emitPermitDeasserted _ | .emitPermitAsserted _
  | .emitPermitCountExpiry _ | .sectorEntry _ | .sectorExit _ | .fireTime _ | .echoEvent _ _ _ _ _ _
  | .shotExpiry _ _ | .transferError _ _ _
  | .transferTimeout _ _ _ | .mark _ | .setup _ | .profile _ | .report _ | .reportWriteComplete _ | .scan _
  | .runInDelayExpiry _ | .runInComplete _ | .takeFieldWriteComplete _ | .takeStateWriteComplete _
  | .recordWriteComplete _ | .sealFieldWriteComplete _ | .sealStateWriteComplete _ | .pollTick _
  | .takenWriteComplete _ | .blockWriteComplete _ | .resultCodeWriteComplete _ | .resultStateWriteComplete _
  | .grant _ | .photo _ | .midExposureTimerExpiry _ | .exposureTimerExpiry _ | .rowTimeout _
  | .rowWriteComplete _ | .headerWriteComplete _ | .presenceAsserted _ | .presenceDeasserted _
  | .presenceTimerExpiry _ | .errorAsserted _ | .errorDeasserted _ | .checkTimerExpiry _ | .pulseEnd _ => true

end Sys2Proof
end

