-- ==== Sys2Proof/Machine/Window.lean ====
section
/-! DEFINITION. The register window (R180 to R182, R187, R188): the CONTROL actions, CHAIN START, LOOK, NOTICE, NOTICE
MASK, and register writes at large. -/

namespace Sys2Proof.Machine

/-- The CONTROL action ABORT: passed to the running job, or REFUSED (R174, R181). -/
def controlAbort (s : State) : State :=
  match s.job with
  | some job => advancePages (abortJob job s)
  | none => refuse s

/-- The CONTROL action HALT (R182); while a lost write-back is pending it sets nothing further (R183). -/
def controlHalt (s : State) : State :=
  match s.reader.state with
  | .unset | .halted => refuse s
  | .waitReady | .waitLink => enterHalted .halt s
  | .running => if s.reader.writeBackLost then s else s.setReader { s.reader with haltPending := true }

/-- The CONTROL action RESUME (R182). -/
def controlResume (s : State) : State :=
  match s.reader.state with
  | .halted =>
    let s1 := s.setReader { s.reader with haltCause := none, state := .running }
    if s.reader.lastFinished.isSome then beginLinkRead s1 else beginExamination s1
  | .unset | .waitReady | .running | .waitLink => refuse s

/-- The CONTROL action CUT (R100); a page being abandoned is not sealed (R104, log 58). -/
def controlCut (s : State) : State :=
  match s.pages.current with
  | some p => if p.sealing = none ∧ p.stage ≠ .abandoned then advancePages (beginSeal .cut p s) else refuse s
  | none => refuse s

/-- A full write to CHAIN START; bits 63 to 48 carry no address (R180, log 9). -/
def writeChainStart (value : Word) (s : State) : State :=
  let a := value.toNat % 2 ^ 48
  if (s.reader.state = .unset ∨ s.reader.state = .halted) ∧ validBlockAddr a then
    beginExamination (s.setReader { s.reader with
      cursor := some a, lastFinished := none, haltCause := none, state := .running })
  else refuse s

/-- A full write to LOOK: the reader and the Page Manager are woken (R94, R177). Where both make a request, the reader's
stands ahead in the control order: R163 lets either be taken first (the model's choice, log 62). -/
def writeLook (s : State) : State := advancePages (wakePages (lookAtChain s))

/-- A full write to NOTICE MASK (R188). -/
def writeMask (value : Word) (s : State) : State :=
  s.setNotices (driveAttn s.now s.notices { s.notices with mask := value.setWidth 8 })

/-- A read of `count` bytes of NOTICE from byte `first`: with byte 0 it returns and clears the pending set, without it it
returns 0 (R180, R187). -/
def readNotice (first count : Nat) (s : State) : State :=
  if registerSpan first count then
    (if first = 0 then
      emit (.readData (s.notices.pending.setWidth 64)) (s.setNotices (driveAttn s.now s.notices { s.notices with pending := 0 }))
     else emit (.readData 0) s)
  else s

/-- A CONTROL write: the action its low byte names, any other code REFUSED (R181). -/
def writeControl (code : Nat) (s : State) : State :=
  match code with
  | 1 => controlAbort s
  | 2 => controlHalt s
  | 3 => controlResume s
  | 4 => controlCut s
  | 5 => softReset s
  | _ => refuse s

/-- A full write to the register at an offset (R180). -/
def writeRegister (offset : Nat) (value : Word) (s : State) : State :=
  match offset with
  | 0x08 => writeChainStart value s
  | 0x10 => writeLook s
  | 0x18 => writeControl (value.toNat % 256) s
  | 0x30 => writeMask value s
  | _ => refuse s

/-- A write of `count` bytes at an offset: a short one is REFUSED, a full one reaches its register; what no access of the
window can be has no effect (R180, log 3, 8). -/
def windowWrite (offset count : Nat) (value : Word) (s : State) : State :=
  if offset < 64 ∧ registerSpan (offset % 8) count then
    (if count < 8 then refuse s else writeRegister offset value s)
  else s

/-- ABORT. -/
def execAbort (m : Moment) (s : State) : Host.Outcome State Fault Refusal := .next (controlAbort (observe m s))

/-- HALT. -/
def execHalt (m : Moment) (s : State) : Host.Outcome State Fault Refusal := .next (controlHalt (observe m s))

/-- RESUME. -/
def execResume (m : Moment) (s : State) : Host.Outcome State Fault Refusal := .next (controlResume (observe m s))

/-- CUT. -/
def execCut (m : Moment) (s : State) : Host.Outcome State Fault Refusal := .next (controlCut (observe m s))

/-- CHAIN_START. -/
def execChainStart (m : Moment) (value : Word) (s : State) : Host.Outcome State Fault Refusal :=
  .next (writeChainStart value (observe m s))

/-- LOOK. -/
def execLook (m : Moment) (s : State) : Host.Outcome State Fault Refusal := .next (writeLook (observe m s))

/-- NOTICE. -/
def execNotice (m : Moment) (first count : Nat) (s : State) : Host.Outcome State Fault Refusal :=
  .next (readNotice first count (observe m s))

/-- NOTICE_MASK. -/
def execNoticeMask (m : Moment) (value : Word) (s : State) : Host.Outcome State Fault Refusal :=
  .next (writeMask value (observe m s))

/-- REGISTER_WRITE. -/
def execRegisterWrite (m : Moment) (offset count : Nat) (value : Word) (s : State) :
    Host.Outcome State Fault Refusal :=
  .next (windowWrite offset count value (observe m s))

/-- The pulse has run its 1 µs (R190). -/
def pulseOver (s : State) : State :=
  if ended s.notices.pulseEnd s.now then s.setNotices { s.notices with attn := false, pulseEnd := none } else s

/-- PULSE_END. -/
def execPulseEnd (m : Moment) (s : State) : Host.Outcome State Fault Refusal := .next (pulseOver (observe m s))

end Sys2Proof.Machine
end

