-- ==== Sys2Proof/Machine/Dispatch.lean ====
section
/-! DEFINITION. The dispatch: one arm per command, in the table's order. -/

namespace Sys2Proof.Machine

def exec (i : Instr) (s : State) : Host.Outcome State Fault Refusal :=
  match i with
  | .powerOnReset m => Sys2Proof.Machine.execPowerOnReset m s
  | .reset m => Sys2Proof.Machine.execReset m s
  | .abort m => Sys2Proof.Machine.execAbort m s
  | .halt m => Sys2Proof.Machine.execHalt m s
  | .resume m => Sys2Proof.Machine.execResume m s
  | .cut m => Sys2Proof.Machine.execCut m s
  | .chainStart m value => Sys2Proof.Machine.execChainStart m value s
  | .look m => Sys2Proof.Machine.execLook m s
  | .notice m first count => Sys2Proof.Machine.execNotice m first count s
  | .noticeMask m value => Sys2Proof.Machine.execNoticeMask m value s
  | .registerWrite m offset count value => Sys2Proof.Machine.execRegisterWrite m offset count value s
  | .mirrorIndexMark m => Sys2Proof.Machine.execMirrorIndexMark m s
  | .rateWatchExpiry m => Sys2Proof.Machine.execRateWatchExpiry m s
  | .indexWatchdogExpiry m => Sys2Proof.Machine.execIndexWatchdogExpiry m s
  | .spinUpLimitExpiry m => Sys2Proof.Machine.execSpinUpLimitExpiry m s
  | .spin m => Sys2Proof.Machine.execSpin m s
  | .park m => Sys2Proof.Machine.execPark m s
  | .turn m => Sys2Proof.Machine.execTurn m s
  | .holdBandEntry m => Sys2Proof.Machine.execHoldBandEntry m s
  | .holdBandExit m => Sys2Proof.Machine.execHoldBandExit m s
  | .settleTimerExpiry m => Sys2Proof.Machine.execSettleTimerExpiry m s
  | .slewLimitExpiry m => Sys2Proof.Machine.execSlewLimitExpiry m s
  | .turntableAtRest m => Sys2Proof.Machine.execTurntableAtRest m s
  | .emitPermitDeasserted m => Sys2Proof.Machine.execEmitPermitDeasserted m s
  | .emitPermitAsserted m => Sys2Proof.Machine.execEmitPermitAsserted m s
  | .emitPermitCountExpiry m => Sys2Proof.Machine.execEmitPermitCountExpiry m s
  | .sectorEntry m => Sys2Proof.Machine.execSectorEntry m s
  | .sectorExit m => Sys2Proof.Machine.execSectorExit m s
  | .fireTime m => Sys2Proof.Machine.execFireTime m s
  | .echoEvent m channel stamp amplitude width saturated => Sys2Proof.Machine.execEchoEvent m channel stamp amplitude width saturated s
  | .shotExpiry m shot => Sys2Proof.Machine.execShotExpiry m shot s
  | .mark m => Sys2Proof.Machine.execMark m s
  | .setup m => Sys2Proof.Machine.execSetup m s
  | .profile m => Sys2Proof.Machine.execProfile m s
  | .profileReadComplete m data => Sys2Proof.Machine.execProfileReadComplete m data s
  | .report m => Sys2Proof.Machine.execReport m s
  | .reportWriteComplete m => Sys2Proof.Machine.execReportWriteComplete m s
  | .scan m => Sys2Proof.Machine.execScan m s
  | .runInDelayExpiry m => Sys2Proof.Machine.execRunInDelayExpiry m s
  | .runInComplete m => Sys2Proof.Machine.execRunInComplete m s
  | .descriptorReadComplete m data => Sys2Proof.Machine.execDescriptorReadComplete m data s
  | .takeFieldWriteComplete m => Sys2Proof.Machine.execTakeFieldWriteComplete m s
  | .takeStateWriteComplete m => Sys2Proof.Machine.execTakeStateWriteComplete m s
  | .recordWriteComplete m => Sys2Proof.Machine.execRecordWriteComplete m s
  | .sealFieldWriteComplete m => Sys2Proof.Machine.execSealFieldWriteComplete m s
  | .sealStateWriteComplete m => Sys2Proof.Machine.execSealStateWriteComplete m s
  | .pollTick m => Sys2Proof.Machine.execPollTick m s
  | .examinationReadComplete m data => Sys2Proof.Machine.execExaminationReadComplete m data s
  | .takenWriteComplete m => Sys2Proof.Machine.execTakenWriteComplete m s
  | .blockWriteComplete m => Sys2Proof.Machine.execBlockWriteComplete m s
  | .resultCodeWriteComplete m => Sys2Proof.Machine.execResultCodeWriteComplete m s
  | .resultStateWriteComplete m => Sys2Proof.Machine.execResultStateWriteComplete m s
  | .linkReadComplete m data => Sys2Proof.Machine.execLinkReadComplete m data s
  | .grant m => Sys2Proof.Machine.execGrant m s
  | .transferError m requester id => Sys2Proof.Machine.execTransferError m requester id s
  | .transferTimeout m requester id => Sys2Proof.Machine.execTransferTimeout m requester id s
  | .photo m => Sys2Proof.Machine.execPhoto m s
  | .midExposureTimerExpiry m => Sys2Proof.Machine.execMidExposureTimerExpiry m s
  | .exposureTimerExpiry m => Sys2Proof.Machine.execExposureTimerExpiry m s
  | .row m data => Sys2Proof.Machine.execRow m data s
  | .rowTimeout m => Sys2Proof.Machine.execRowTimeout m s
  | .rowWriteComplete m => Sys2Proof.Machine.execRowWriteComplete m s
  | .headerWriteComplete m => Sys2Proof.Machine.execHeaderWriteComplete m s
  | .presenceAsserted m => Sys2Proof.Machine.execPresenceAsserted m s
  | .presenceDeasserted m => Sys2Proof.Machine.execPresenceDeasserted m s
  | .presenceTimerExpiry m => Sys2Proof.Machine.execPresenceTimerExpiry m s
  | .errorAsserted m => Sys2Proof.Machine.execErrorAsserted m s
  | .errorDeasserted m => Sys2Proof.Machine.execErrorDeasserted m s
  | .checkTimerExpiry m => Sys2Proof.Machine.execCheckTimerExpiry m s
  | .pulseEnd m => Sys2Proof.Machine.execPulseEnd m s
  | .heldAnswer m requester id data => Sys2Proof.Machine.execHeldAnswer m requester id data s

end Sys2Proof.Machine
end

