-- ==== Sys2Proof/Machine/Step.lean ====
section
/-! DEFINITION. One step: the command at the front of the queue is taken; on an empty queue the counter counts on. -/

namespace Sys2Proof.Machine

/-- One fine unit of the time counter (R23); what follows its top value is open (log 2). -/
def nextTime (t : Word) : Word := if t = BitVec.allOnes 64 then Config.counterAfterTop else t + 1

/-- The block with no command waiting: it idles, and the counter counts (log 2). -/
def idle (s : State) : State := (s.setTime (nextTime s.time)).setOut []

/-- One step of the block. -/
def step (s : State) : Host.Outcome State Fault Refusal :=
  match s.pending with
  | [] => .next (idle s)
  | c :: rest => exec c (s.setPending rest)

/-- The block with the command that a word spells at the front of its queue; no word spells one (log 11). -/
def State.withFetchWord (s : State) (nbits w : Nat) : State :=
  match decodeTableWord nbits w with
  | some c => s.setPending (c :: s.pending)
  | none => s

end Sys2Proof.Machine
end

