-- ==== Sys2Proof/Machine/Drives.lean ====
section
/-! DEFINITION. What the block drives at every instant, as functions of its state: MIRROR DRIVE and TT DRIVE (file 01), and
the ATTN pin (R191). LASER PATH is the Scheduler's `path`. What the head and the mirror make of their drives is theirs
(log 65). -/

namespace Sys2Proof.Machine

/-- MIRROR DRIVE: on toward the target rate, or off (section 1.1). -/
def State.mirrorDrive (s : State) : Option Nat := if s.mirror.state.driveOn then some s.mirror.target else none

/-- What TT DRIVE asks of the head (section 1.3). -/
inductive HeadDrive where
  /-- Off: STOPPED and FAULT. -/
  | off
  /-- Toward the target, clockwise or not, at no more than a speed in counts per second (R13). -/
  | slew (clockwise : Bool) (speed : Nat)
  /-- Held at an azimuth: SETTLING and HELD (R13, R14). -/
  | hold (target : Angle)
  /-- Clockwise at a rate in hundredths of a count per second (R15). -/
  | track (rate : Nat)
  /-- The speed ramped down to zero: DECELERATING (R18). -/
  | rampDown
deriving DecidableEq, Repr

/-- The shorter way from an azimuth to a target is clockwise, the sense in which counts rise; clockwise too where both ways
are equal (R13). -/
def clockwise (azimuth target : Angle) : Bool := decide ((target - azimuth).toNat ≤ (azimuth - target).toNat)

/-- TT DRIVE (section 1.3, R13 to R15, R18). The states that go toward a target always have one. -/
def State.headDrive (s : State) : HeadDrive :=
  match s.turntable.state, s.turntable.target with
  | .slewing, some t => .slew (clockwise s.azimuth t) topSpeed
  | .settling, some t | .held, some t => .hold t
  | .tracking, _ => .track s.turntable.trackRate
  | .decelerating, _ => .rampDown
  | .stopped, _ | .fault, _ | .slewing, none | .settling, none | .held, none => .off

/-- The ATTN pin: what the Notice Unit asks of it, and deasserted while RSTIN is asserted (R191, log 46). -/
def State.attnPin (s : State) : Bool := s.notices.attn && !s.rstin

end Sys2Proof.Machine
end

