-- ==== Sys2Proof/Safety.lean ====
section
/-! DEFINITION. What the statements speak of: which fields an event may touch, and the invariants of the block. -/

namespace Sys2Proof.Machine

/-! ## Frames -/

/-- The fields of State. -/
inductive Field where
  | time | angle | azimuth | mirror | turntable | rest | emission | sector | sched | shots | tracker | intake | line
  | staging | loss | markWait | pages | job | jobSerial | camera | photo | slots | counters | port | issueSlot | reader
  | notices | rstin | out | freeCount | pending
deriving DecidableEq, Repr

/-- Two states agree in a field. -/
def Field.same (f : Field) (s t : State) : Prop :=
  match f with
  | .time => t.time = s.time
  | .angle => t.angle = s.angle
  | .azimuth => t.azimuth = s.azimuth
  | .mirror => t.mirror = s.mirror
  | .turntable => t.turntable = s.turntable
  | .rest => t.rest = s.rest
  | .emission => t.emission = s.emission
  | .sector => t.sector = s.sector
  | .sched => t.sched = s.sched
  | .shots => t.shots = s.shots
  | .tracker => t.tracker = s.tracker
  | .intake => t.intake = s.intake
  | .line => t.line = s.line
  | .staging => t.staging = s.staging
  | .loss => t.loss = s.loss
  | .markWait => t.markWait = s.markWait
  | .pages => t.pages = s.pages
  | .job => t.job = s.job
  | .jobSerial => t.jobSerial = s.jobSerial
  | .camera => t.camera = s.camera
  | .photo => t.photo = s.photo
  | .slots => t.slots = s.slots
  | .counters => t.counters = s.counters
  | .port => t.port = s.port
  | .issueSlot => t.issueSlot = s.issueSlot
  | .reader => t.reader = s.reader
  | .notices => t.notices = s.notices
  | .rstin => t.rstin = s.rstin
  | .out => t.out = s.out
  | .freeCount => t.freeCount = s.freeCount
  | .pending => t.pending = s.pending

/-- `t` differs from `s` at most in the fields that `touched` names. -/
def OnlyIn (touched : Field → Bool) (s t : State) : Prop := ∀ f, touched f = false → f.same s t

/-- The named fields. -/
def fields (l : List Field) (f : Field) : Bool := decide (f ∈ l)

/-- What handing back a result touches: the running job, the Chain Reader, its transfers and the notices. -/
def chainSide : List Field := [.job, .reader, .port, .notices]

/-- What the Page Manager may touch at the end of an event: beside the chain side, queue, losses, pages, and, where a job
that waits on its seal ends there, turntable, station list, and a free value its detail may be. -/
def pageSide : List Field := [.job, .reader, .port, .notices, .staging, .loss, .pages, .turntable, .photo, .freeCount]

/-! ## Invariants -/

/-- The numbers under which a requester's outstanding transfers were issued. -/
def Port.ids (x : Port) (r : Requester) : List Nat := (x.outOf r).map (·.id)

/-- A requester's outstanding transfers stand in the order of their issue, and the next number is beyond them all (R165,
log 64). -/
def Port.numbered (x : Port) : Prop := ∀ r, (x.ids r).Pairwise (· < ·) ∧ ∀ n ∈ x.ids r, n < x.nextId

/-- What waits on a data path's own order is that path's (R161). -/
def Port.sorted (x : Port) : Prop :=
  (∀ t ∈ x.recordWait, t.requester = .record) ∧ (∀ t ∈ x.photoWait, t.requester = .photo)

/-- The bounds of the block's buffers: staging queue (R79), outstanding transfers (R161, R164), open shot list (R40),
row buffer (R133); with what keeps the transfers bounded and apart: each path's waiting transfers are its own, and no
two outstanding ones bear one number. -/
structure Bounded (s : State) : Prop where
  queue    : entriesSize s.staging.entries ≤ queueCapacity
  points   : pointSize s.staging.entries ≤ pointLimit
  port     : ∀ r, (s.port.outOf r).length ≤ maxOutstanding r
  shots    : s.shots.length ≤ shotCapacity
  rows     : s.photo.rows.length ≤ rowCapacity
  waiting  : s.port.sorted
  numbered : s.port.numbered

/-- ATTN stands as its mode says: LEVEL follows the unmasked pending causes and has no pulse (R189), PULSE is asserted
exactly during a pulse (R190). -/
def Notices.sound (n : Notices) : Prop :=
  match n.mode with
  | .level => n.attn = decide (unmasked n ≠ 0) ∧ n.pulseEnd = none
  | .pulse => n.attn = n.pulseEnd.isSome

/-- ATTN stands as its mode says. -/
def AttentionSound (s : State) : Prop := s.notices.sound

/-- What the running SCAN job's end waits for; no scan waits for nothing. -/
def State.endWaitOf (s : State) : EndWait :=
  match s.scanJob with
  | none => .none
  | some j => j.endWait

/-- The beam permit holds exactly under the four conditions of R22, a valid slot given, and exactly while the open line
is FIRING (R27, R30); with what keeps that so: a SCANNING job waits for no end, and a line whose firing is not over is
OPEN and has taken no stop. -/
structure PermitSound (s : State) : Prop where
  noEnd  : s.scanning = true → s.endWaitOf = .none
  isOpen : s.sched.firing.live = true → s.line.phase = .assembling ∧ s.line.stopTaken = false
  firing : s.sched.permit = true ↔ s.sched.firing = .firing
  exact  : s.sched.permit = true ↔ (s.permitHolds = true ∧ s.scanSlot.isSome = true)

/-- The jitter index is the next shot number modulo 16 (R24). -/
def JitterFollows (s : State) : Prop := s.sched.jitterIndex = s.sched.nextShot % 16

/-- No requester's oldest outstanding transfer has its answer: what may be reported has been (R165). -/
def OldestUnanswered (s : State) : Prop := ∀ r o rest, s.port.outOf r = o :: rest → o.answer = .awaited

/-! ## What several statements share -/

/-- A transfer is the oldest outstanding one of its requester, issued under number `id`; its requester still wants it, and
neither it nor any behind it has been answered. -/
def OldestAwaits (id : Nat) (s : State) (t : Transfer) (rest : List Outstanding) : Prop :=
  (∃ till, s.port.outOf t.requester = ⟨id, t, till, .awaited⟩ :: rest) ∧ t.live = true ∧ ∀ o ∈ rest, o.answer = .awaited

/-- The state in which the completion of the oldest transfer `t` is reported: the command's moment taken, the transfer no
longer outstanding, and its data in memory if it is a write (R165). -/
def reported (m : Moment) (t : Transfer) (rest : List Outstanding) (s : State) : State :=
  landed t ((observe m s).setPort (s.port.setOut t.requester rest))

/-- A block of a kind has been taken and its TAKEN write `t` is outstanding under number `id`; no job runs and no
write-back is lost (R173, R174). -/
def AwaitsDispatch (id : Nat) (s : State) (k : JobKind) (t : Transfer) (rest : List Outstanding) : Prop :=
  s.job = none ∧ s.reader.writeBackLost = false ∧ s.blockJob = some k ∧ t.requester = .chain ∧
  t.purpose = .takenWrite ∧ OldestAwaits id s t rest

/-- The state in which a job is dispatched: its TAKEN write reported, and a job number of its own given (R174). -/
def dispatched (m : Moment) (t : Transfer) (rest : List Outstanding) (s : State) : State :=
  ((reported m t rest s).setJobSerial (s.jobSerial + 1)).setReader { s.reader with activity := .job }

/-- Fields are to be written to the block: each of their writes stands in the block write list, or has been asked for and
waits for its grant (R174). What the writes of fields carry is said in ResultIsWrittenBack. -/
def ToWrite (fs : Fields) (t : State) : Prop :=
  ∀ w ∈ fs.toWrites, w ∈ t.reader.writeList ∨
    maskedTransfer .chain .blockWrite (t.reader.cursor.getD 0 + w.offset) w.data w.mask ∈ t.port.control

/-- The reader is writing a job's result, its job-end fields before it, and no job runs (R175). -/
def HandsBack (r : JobResult) (t : State) : Prop :=
  t.job = none ∧ t.reader.activity = .result ∧ t.reader.result = some r ∧ ToWrite r.fields t

/-- The job that ran in state `v` has ended after the loss of a write-back: its result is discarded, nothing more is
written to its block, and the reader halts (R172, R183). -/
def HaltsLost (v u : State) : Prop :=
  u.job = none ∧ u.notices.pending = v.notices.pending ||| 16 ∧
  u.reader = { v.reader with
    state := .halted, haltCause := some .writeBackLost, activity := .idle, lookAgain := false, taken := none,
    haltPending := false, writeBackLost := false, writeList := [], writeBusy := false, result := none }

/-- The running job ends in state `v`: it hands a result back, or, after the loss of a write-back, the reader halts
instead (R175, R183). -/
structure JobEnds (r : JobResult) (v u : State) : Prop where
  result : v.reader.writeBackLost = false → HandsBack r u ∧ u.notices = v.notices
  lost   : v.reader.writeBackLost = true → HaltsLost v u

/-- A progress write-back of some fields, `v` being the state before it: its writes join the tail of the block write
list, of which the first is asked for where none is under way (R174); once a write-back is lost nothing joins the list
(R183). -/
structure WroteBack (fs : Fields) (v u : State) : Prop where
  lost   : v.reader.writeBackLost = true → u.reader = v.reader ∧ u.port = v.port
  joins  : v.reader.writeBackLost = false → v.reader.writeBusy = true →
    u.reader = { v.reader with writeList := v.reader.writeList ++ fs.toWrites } ∧ u.port = v.port
  issues : ∀ w rest, v.reader.writeBackLost = false → v.reader.writeBusy = false →
    v.reader.writeList ++ fs.toWrites = w :: rest →
    u.reader = { v.reader with writeList := rest, writeBusy := true } ∧
    u.port = v.port.request (maskedTransfer .chain .blockWrite (v.reader.cursor.getD 0 + w.offset) w.data w.mask)

/-- The byte that a write under a mask puts at an offset of the block, none where it puts none (R162). -/
def BlockWrite.puts (w : BlockWrite) (i : Nat) : Option Byte :=
  if w.offset ≤ i ∧ w.mask[i - w.offset]? = some true then w.data[i - w.offset]? else none

/-- Writes to a block put exactly the bytes of some fields there, each in whole 8-byte units and 256 bytes at most (R162,
R174). -/
structure Carries (fs : Fields) (ws : List BlockWrite) : Prop where
  bytes : ∀ i x, (∃ w ∈ ws, w.puts i = some x) ↔ ∃ f ∈ fs, f.1 ≤ i ∧ f.2[i - f.1]? = some x
  units : ∀ w ∈ ws, w.mask.length = w.data.length ∧ w.offset % 8 = 0 ∧ w.data.length % 8 = 0 ∧ w.data.length ≤ 256

/-- A short job has reached its outcome: it hands its result back, or, with the seal-at-end flag of its block, waits on
the job-end mark it has placed behind every record queued (R87, R101, R160, R179). -/
def Finishes (kind : JobKind) (r : JobResult) (seals : Bool) (queued : Nat) (t : State) : Prop :=
  if seals then
    t.job = some (.sealWait kind r) ∧
    t.pages.mark = some { bound := queued, reason := if r.code = .none then .jobEnd else .abort, begun := false }
  else HandsBack r t

/-- The row under which a job of a kind is dispatched. -/
def jobCommand (k : JobKind) (m : Moment) : Instr :=
  match k with
  | .setup => .setup m
  | .spin => .spin m
  | .park => .park m
  | .turn => .turn m
  | .profile => .profile m
  | .report => .report m
  | .scan => .scan m
  | .photo => .photo m
  | .mark => .mark m

/-- The kind of a job that waits for something other than its seal, of the kinds that an ABORT simply ends. -/
def Job.waits : Job → Option JobKind
  | .spinWait => some .spin
  | .turnWait => some .turn
  | .profileRead _ _ => some .profile
  | .reportWrite => some .report
  | .markWait => some .mark
  | .sealWait _ _ | .scan _ | .photo _ => none

/-- The reader as LOOK or a poll tick leaves it (R177). -/
structure ChainWoken (b u : State) : Prop where
  ready  : b.reader.state = .waitReady → b.reader.activity = .idle →
    u = { b with
      reader := { b.reader with activity := .examining none },
      port := (b.port.request (readTransfer .chain (.examination 0) b.blockAddr 256)).request
        (readTransfer .chain (.examination 1) (b.blockAddr + 256) 256) }
  link   : b.reader.state = .waitLink → b.reader.activity = .idle →
    u = { b with
      reader := { b.reader with activity := .link },
      port := b.port.request (readTransfer .chain .link (b.reader.lastFinished.getD 0 + 8) 8) }
  busy   : (b.reader.state = .waitReady ∨ b.reader.state = .waitLink) → b.reader.activity ≠ .idle →
    u = { b with reader := { b.reader with lookAgain := true } }
  others : b.reader.state ≠ .waitReady → b.reader.state ≠ .waitLink → u = b

/-! ## A scan's lines and its end -/

/-- Scan `j` ends in state `v`: the head decelerates, the stations are released, and write-back and result are handed over
(R126, R127); after the loss of a write-back the reader halts instead (R183). -/
structure ScanEnds (j : ScanJob) (v u : State) : Prop where
  turntable : u.turntable = (decelerate v).turntable
  stations  : u.photo = { v.photo with stations := [], inlineBase := none }
  ends      : JobEnds (scanResult j v.azimuth v.photo.stations) v u
  others    : OnlyIn (fields [.turntable, .photo, .job, .reader, .port, .notices]) v u

/-- A queued record that its job may have discarded: a LINE HEADER, SHOT or LINE TRAILER whose write has not begun
(R85). -/
def Discardable (v : State) (e : Entry) : Bool := decide (e.job = v.jobSerial) && !e.issued && e.record.line?.isSome

/-- A queued record is the trailer of a line, the line named with its job. -/
def IsTrailerOf (line : Option (Nat × Nat)) (e : Entry) : Bool :=
  match e.record with
  | .trailer t => decide (line = some (e.job, t.line))
  | _ => false

/-- Scan `j` is discarded in state `v`: its mark or drain point is withdrawn, its queued records are removed, the shots
among them lost, and it ends without a seal (R85, R124); with its trailer among them the discarding line becomes none
(R105). -/
def ScanDiscarded (j : ScanJob) (v u : State) : Prop :=
  ScanEnds
    { j with
      shotsLost := satAdd 32 j.shotsLost
        (v.staging.entries.filter (fun e => Discardable v e && e.record.shot?.isSome)).length }
    { v with
      staging := { v.staging with entries := v.staging.entries.filter (fun e => !Discardable v e) },
      pages := { v.pages with
        mark := none, drain := none
        discarding := if v.staging.entries.any (fun e => Discardable v e && IsTrailerOf v.pages.discarding e) then none
          else v.pages.discarding } } u

/-- The photo wait of scan `j` has ended in state `v`, and its drain begins: the first that holds of a discard asked for
in the photo wait or due in PAGE-WAIT, an end at once in PAGE-FAULT, a job-end mark, and a drain point (R124, R126; that
the discard comes before PAGE-FAULT, log 53). -/
structure Drains (j : ScanJob) (v u : State) : Prop where
  discard : j.discardDue = true ∨ (j.abortTaken = true ∧ v.pages.wait = true) → ScanDiscarded j v u
  fault   : j.discardDue = false → j.abortTaken = false ∨ v.pages.wait = false → v.pages.fault = true → ScanEnds j v u
  mark    : j.discardDue = false → j.abortTaken = false ∨ v.pages.wait = false → v.pages.fault = false →
    v.seals = true ∨ j.cause ≠ none →
    u = { v with
      job := some (.scan { j with endWait := .mark }),
      pages := { v.pages with
        mark := some ⟨v.staging.nextSeq, if j.cause = none then .jobEnd else .abort, false⟩ } }
  drain   : j.discardDue = false → j.abortTaken = false ∨ v.pages.wait = false → v.pages.fault = false →
    v.seals = false → j.cause = none →
    u = { v with
      job := some (.scan { j with endWait := .drain }), pages := { v.pages with drain := some v.staging.nextSeq } }

/-- Scan `j` leaves SCANNING for ENDING in state `v`: the sector is cleared and the permit falls; with an inline
photograph in hand the scan waits for its end, and otherwise the drain begins (R122, R125). -/
structure LeavesScanning (j : ScanJob) (v u : State) : Prop where
  waits  : (∃ p, v.photo.current = some p ∧ p.isInline = true) →
    u = { v with
      sector := ⟨none, false⟩, sched := { v.sched with permit := false }, job := some (.scan { j with phase := .ending }) }
  drains : (∀ p, v.photo.current = some p → p.isInline = false) →
    Drains { j with phase := .ending } { v with sector := ⟨none, false⟩, sched := { v.sched with permit := false } } u

/-- The job's values after line `n` has closed in state `w` (R118), its shots lost staying at their 32-bit top (log 42).
-/
def afterClose (n : Nat) (k : ScanJob) (w : State) : ScanJob :=
  { k with
    linesCompleted := k.linesCompleted + 1, lastClosed := some n, zone := w.tracker.zone,
    flags := k.flags.union { w.line.flags with gapEcho := w.line.flags.gapEcho || decide (w.intake.straysBefore ≠ 0) },
    shotsLost := satAdd 32 k.shotsLost w.line.shotsLost }

/-- Line `n` of scan `k`, its firing over with report `e`, closes in state `w`: its trailer is queued behind the GAP
that is due, or counts as another record lost, and a LOST line has none; the job takes its values and writes its
progress back (R70 to R73, R82, R84, R118). -/
structure LineCloses (n : Nat) (e : EndReport) (k : ScanJob) (w v : State) : Prop where
  line     : v.line = { w.line with
    phase := .none, number := none,
    flags := { w.line.flags with gapEcho := w.line.flags.gapEcho || decide (w.intake.straysBefore ≠ 0) } }
  sched    : v.sched = { w.sched with firing := .noLine }
  lostLine : w.line.lost = true → v.staging = w.staging ∧ v.loss = w.loss
  trailer  : ∀ flags r, w.line.lost = false →
    flags = { w.line.flags with gapEcho := w.line.flags.gapEcho || decide (w.intake.straysBefore ≠ 0) } →
    r = TrailerRec.mk n e.shots e.targets w.line.stored w.line.shotsLost w.intake.attached w.intake.dropped
      w.intake.blanked w.intake.strays w.intake.straysBefore w.line.refMisses w.tracker.zone
      (summaryOf w.line.marks flags) flags →
    (w.loss = Loss.zero → w.occupancy + 64 ≤ 32768 →
      v.loss = w.loss ∧
      v.staging = ⟨w.staging.entries ++ [⟨w.staging.nextSeq, w.jobSerial, .trailer r, false⟩], w.staging.nextSeq + 1⟩) ∧
    (w.loss ≠ Loss.zero → w.occupancy + 96 ≤ 32768 →
      v.loss = Loss.zero ∧
      v.staging = ⟨w.staging.entries ++ [⟨w.staging.nextSeq, w.jobSerial, .gap w.loss, false⟩] ++
        [⟨w.staging.nextSeq + 1, w.jobSerial, .trailer r, false⟩], w.staging.nextSeq + 1 + 1⟩) ∧
    (32768 < w.occupancy + (if w.loss = Loss.zero then 64 else 96) →
      v.staging = w.staging ∧ v.loss = { w.loss with others := satAdd 32 w.loss.others 1 })
  job      : v.job = some (.scan (afterClose n k w))
  progress : WroteBack
    [(0x40, leBytes 4 (k.linesCompleted + 1)), (0x44, leBytes 4 n), (0x50, leBytes 8 w.sched.nextShot),
     (0x58, leBytes 4 w.intake.jobStrays), (0x5C, leBytes 1 (afterClose n k w).flags.toByte),
     (0x5D, leBytes 1 w.tracker.zone)] w v
  others   : OnlyIn (fields [.line, .sched, .staging, .loss, .job, .reader, .port]) w v

/-- After a line of scan `k` has closed, SCANNING goes on, or, with the last line closed or a failure cause held, is
left in the same event (R122). -/
def ScanGoesOn (k : ScanJob) (v u : State) : Prop :=
  (k.linesCompleted < k.params.lines → k.cause = none → u = v) ∧
  (k.params.lines ≤ k.linesCompleted ∨ k.cause ≠ none → LeavesScanning k v u)

/-- Line `n` of scan `k`, its firing over with report `e` in state `w`, drains while shots of it are in flight, and
closes in this event with none (R70). -/
structure LineDrains (n : Nat) (e : EndReport) (k : ScanJob) (w u : State) : Prop where
  inFlight : w.lineHasShots n = true → u = w
  closes   : w.lineHasShots n = false → ∃ v, LineCloses n e k w v ∧ ScanGoesOn (afterClose n k w) v u

/-- A failure that has a stop reason reaches scan `j`, SCANNING, in state `v`, and ends the firing of a line that is
still firing with cause `ending` (R36, R69, R70, R120, R122). A stop issued before is not issued again; with no line
open the scan leaves SCANNING; an open line is marked, its firing is over, and it drains or closes; a line that drains
already is marked, and may close. The premises on firing, permit and a stop taken are those of BeamPermitExactKept. -/
structure ScanStops (cause : ResultCode) (reason : StopReason) (ending : EndCause) (j : ScanJob) (v u : State) : Prop where
  again    : j.stop ≠ none → v.sched.permit = false →
    u = { v with job := some (.scan { j with cause := firstCause j.cause cause }) }
  noLine   : ∀ k, k = { j with cause := firstCause j.cause cause, stop := some reason } → j.stop = none →
    v.line.phase = .none → v.sched.firing.live = false → LeavesScanning k v u
  opened   : ∀ n e k w, k = { j with cause := firstCause j.cause cause, stop := some reason } → j.stop = none →
    v.line.phase = .assembling → v.line.number = some n → v.sched.firing.live = true → v.line.stopTaken = false →
    e = ⟨n, v.sched.lineShots, v.sched.lineTargets, v.sched.lineFirst, v.sched.lineLast, ending⟩ →
    w = { v with
      job := some (.scan k),
      sched := { v.sched with firing := .ended, scheduled := none, shotWaits := false, permit := false },
      line := { v.line with
        phase := .draining, marks := v.line.marks.withStop reason, stopTaken := true, report := some e } } →
    LineDrains n e k w u
  draining : ∀ n e k w, k = { j with cause := firstCause j.cause cause, stop := some reason } → j.stop = none →
    v.line.phase = .draining → v.line.number = some n → v.line.report = some e → v.sched.firing.live = false →
    v.sched.permit = false →
    w = { v with
      job := some (.scan k), line := { v.line with marks := v.line.marks.withStop reason, stopTaken := true } } →
    LineDrains n e k w u

/-- A short job reaches its outcome in state `v`: with the seal-at-end flag of its block it waits on the job-end mark it
places behind every record queued, and otherwise it ends (R87, R101, R160, R179). -/
structure Concludes (kind : JobKind) (r : JobResult) (v u : State) : Prop where
  seals : v.seals = true →
    u.job = some (.sealWait kind r) ∧ u.notices = v.notices ∧
    u.pages.mark = some { bound := v.staging.nextSeq, reason := if r.code = .none then .jobEnd else .abort, begun := false }
  ends  : v.seals = false → JobEnds r v u

/-- An ABORT has reached scan `j` before SCANNING in state `v`: it decelerates and ends ABORTED, at once or behind its
seal; where it waits on that seal already, it ends at once until the seal has begun (R112 to R116; log 31). -/
structure EarlyScanAborted (j : ScanJob) (v u : State) : Prop where
  seals : j.endWait = .none → v.seals = true →
    u.turntable = (decelerate v).turntable ∧ u.job = some (.scan { j with cause := some .aborted, endWait := .mark }) ∧
    u.pages = { v.pages with mark := some ⟨v.staging.nextSeq, .abort, false⟩ } ∧
    OnlyIn (fields [.turntable, .job, .pages]) v u
  ends  : j.endWait = .none → v.seals = false → ScanEnds { j with cause := some .aborted } v u
  begun : j.endWait ≠ .none → v.sealBegun = true → u = v
  waits : j.endWait ≠ .none → v.sealBegun = false →
    ScanEnds j { v with pages := { v.pages with mark := none, drain := none } } u

/-- An ABORT has reached scan `j` in ENDING in state `v`: it is noted, and its discard is put off in the photo wait (log
53), made while draining, and left out once its seal has begun (R124). -/
structure EndingScanAborted (j : ScanJob) (v u : State) : Prop where
  photo : j.endWait = .none →
    u = { v with
      job := some (.scan { j with abortTaken := true, cause := firstCause j.cause .aborted, discardDue := true }) }
  begun : j.endWait ≠ .none → v.sealBegun = true →
    u = { v with job := some (.scan { j with abortTaken := true, cause := firstCause j.cause .aborted }) }
  drain : j.endWait ≠ .none → v.sealBegun = false →
    ScanDiscarded { j with abortTaken := true, cause := firstCause j.cause .aborted } v u

/-- An ABORT has reached PHOTO job `a` in state `v`. With no photograph in hand it decelerates and goes to its end; an
exposure runs on, rows are stopped, and once they are over the photograph goes on; a job that waits on its seal ends at
once until the seal has begun, and with it after that (R142, R143). The detail of a failure that comes after the last
station is open (log 15, 34). -/
structure PhotoJobAborted (a : PhotoJob) (v u : State) : Prop where
  idle   : ∀ c, c = { a with abortTaken := true, cause := firstCause a.cause .aborted } → a.sealWait = false →
    v.photo.state.busy = false →
    u.turntable = (decelerate v).turntable ∧
    u.photo.state = (if v.camera.presence = .present then .idle else .absent) ∧
    (v.seals = true →
      u.job = some (.photo { c with sealWait := true }) ∧ u.pages.mark = some ⟨v.staging.nextSeq, .abort, false⟩ ∧
      u.notices = v.notices) ∧
    (v.seals = false →
      u.photo.stations = [] ∧ ∃ detail, (a.lateCause = false → detail = a.index) ∧
        JobEnds (photoResult c detail v.photo.stations) v u) ∧
    (a.lateCause = false → u.freeCount = v.freeCount) ∧
    OnlyIn (fields [.job, .reader, .port, .pages, .turntable, .photo, .notices, .freeCount]) v u
  expose : ∀ c p, c = { a with abortTaken := true, cause := firstCause a.cause .aborted } → a.sealWait = false →
    v.photo.current = some p → v.photo.state = .exposing →
    u = { v with job := some (.photo c), photo := { v.photo with current := some { p with endCause := some .abort } } }
  rows   : ∀ c p, c = { a with abortTaken := true, cause := firstCause a.cause .aborted } → a.sealWait = false →
    v.photo.current = some p → v.photo.state = .readout → p.accepting = true →
    u = photoProgress { v with
      job := some (.photo c),
      photo := { v.photo with current := some { p with endCause := some .abort, accepting := false, rowEnd := none } },
      out := v.out ++ [.cameraStop] }
  noRows : ∀ c p, c = { a with abortTaken := true, cause := firstCause a.cause .aborted } → a.sealWait = false →
    v.photo.current = some p → v.photo.state = .readout → p.accepting = false → u = { v with job := some (.photo c) }
  begun  : ∀ c, c = { a with abortTaken := true, cause := firstCause a.cause .aborted } → a.sealWait = true →
    v.sealBegun = true →
    u = { v with job := some (.photo { c with lateCause := a.lateCause || decide (a.cause = none) }) }
  waits  : ∀ c, c = { a with abortTaken := true, cause := firstCause a.cause .aborted } → a.sealWait = true →
    v.sealBegun = false →
    u.pages.mark = none ∧ u.photo.stations = [] ∧
    (∃ detail, (a.lateCause = false → a.cause ≠ none → detail = a.index) ∧
      JobEnds (photoResult c detail v.photo.stations) v u) ∧
    OnlyIn (fields [.job, .reader, .port, .pages, .photo, .notices, .freeCount]) v u

/-- An ABORT, or the loss of a write-back, has reached `job`, running in state `v` and no scan in SCANNING (R181, R183).
A SPIN, TURN, PROFILE, REPORT or MARK job that waits ends ABORTED, at once or behind its seal; the turntable of a TURN
decelerates, reads and writes of the job still waiting are withdrawn (for a PROFILE source read the model's choice, log
70), and a MARK's record stays queued (R10, R19, R87, R155, R159). A job that waits on its seal ends at once until the
seal has begun, a PROFILE or REPORT job that had failed with its own result, and ABORTED with the seal after that (R87,
R160, R179; log 32). A detail that the spec does not state is open (log 15). -/
structure JobAborted (job : Job) (v u : State) : Prop where
  waiting : ∀ kind, job.waits = some kind →
    (∃ detail, Concludes kind ⟨.aborted, detail, []⟩ v u) ∧
    u.turntable = (if job = .turnWait then (decelerate v).turntable else v.turntable) ∧
    u.markWait = (if job = .markWait then none else v.markWait) ∧
    (kind = .profile → ∀ x ∈ u.port.control, x.purpose ≠ .profileRead) ∧
    (kind = .report → ∀ x ∈ u.port.control, x.purpose ≠ .reportWrite) ∧
    OnlyIn (fields [.job, .reader, .port, .pages, .turntable, .markWait, .notices, .freeCount]) v u
  early   : ∀ j, job = .scan j → j.phase = .hold ∨ j.phase = .position ∨ j.phase = .runIn → EarlyScanAborted j v u
  ending  : ∀ j, job = .scan j → j.phase = .ending → EndingScanAborted j v u
  photo   : ∀ a, job = .photo a → PhotoJobAborted a v u
  sealed  : ∀ kind r, job = .sealWait kind r →
    (v.sealBegun = true → ∃ detail,
      u = { v with job := some (.sealWait kind ⟨.aborted, detail, []⟩), freeCount := v.freeCount + 1 }) ∧
    (v.sealBegun = false →
      u.pages.mark = none ∧
      (kind = .profile ∨ kind = .report → r.code ≠ .none → JobEnds r v u) ∧
      ((kind ≠ .profile ∧ kind ≠ .report) ∨ r.code = .none → ∃ detail, JobEnds ⟨.aborted, detail, []⟩ v u) ∧
      OnlyIn (fields [.job, .reader, .port, .pages, .notices, .freeCount]) v u)

/-- An ABORT at the inline photograph in hand, if there is one: exposed, it runs on with its end cause; its rows are
accepted no more; and once they are not, nothing is left to stop (R123, R142, R145). -/
structure InlineAborted (b v : State) : Prop where
  noInline : (∀ p, b.photo.current = some p → p.isInline = false) → v = b
  exposing : ∀ p, b.photo.current = some p → p.isInline = true → b.photo.state = .exposing →
    v = { b with photo := { b.photo with current := some { p with endCause := some .abort } } }
  rows     : ∀ p, b.photo.current = some p → p.isInline = true → b.photo.state ≠ .exposing → p.accepting = true →
    v = photoProgress { b with
      photo := { b.photo with current := some { p with endCause := some .abort, accepting := false, rowEnd := none } },
      out := b.out ++ [.cameraStop] }
  rowsOver : ∀ p, b.photo.current = some p → p.isInline = true → b.photo.state ≠ .exposing → p.accepting = false → v = b

/-! ## Drives, stations and transfers -/

/-- The track request of RUN-IN has been issued: the turntable TRACKS at the line step times the mirror's target rate, in
hundredths of a count per second (R15, R114). -/
structure TrackIssued (b : State) (j : ScanJob) (u : State) : Prop where
  turntable : u.turntable = { b.turntable with
    state := .tracking, trackRate := j.params.step * b.mirror.target, target := none, settleEnd := none,
    slewEnd := none, errorCount := 0, requester := some b.jobSerial, answered := false }
  job       : u.job = some (.scan { j with runInStage := .travel })

/-- The head is HELD at a target, within the hold band: a move request to it is answered at once (R12). -/
abbrev HeldAt (target : Angle) (s : State) : Prop :=
  s.turntable.state = .held ∧ s.turntable.target = some target ∧ circleDistance s.azimuth target ≤ 64

/-- The running job's move request has been taken with the head elsewhere: a fresh slew to the target, and a fault cleared
(R12). -/
def SentTo (target : Angle) (settleMs : Nat) (b u : State) : Prop :=
  u.turntable = { b.turntable with
    state := .slewing, target := some target, settleMs := settleMs, settleEnd := none,
    slewEnd := some (b.now + 60 * fineSec),
    errorCount := (if b.turntable.state = .fault then 0 else b.turntable.errorCount),
    requester := some b.jobSerial, answered := false }

/-- The running job's move request has been answered at once (R12). -/
def AnsweredAtOnce (b u : State) : Prop :=
  u.turntable = { b.turntable with requester := some b.jobSerial, answered := true }

/-- A station is being exposed, an inline one at the line given: Expose has been sent last, and a fresh photograph is in
hand, its timers running (R133, R134, R140, R144). -/
structure StationExposed (index : Nat) (st : Station) (line : Option Nat) (b u : State) : Prop where
  state : u.photo.state = .exposing
  sent  : u.out = b.out ++ [.expose (modeOf st.mode) st.exposure]
  fresh : u.photo.current = some {
    tag := b.tag, station := index, isInline := line.isSome, buffer := st.buffer, size := st.size, mode := modeOf st.mode,
    exposure := st.exposure, rowsFit := min (modeOf st.mode).rowsExpected ((st.size - 64) / (modeOf st.mode).rowSize),
    rowsTaken := 0, rowsStored := 0, accepting := false, trigger := b.now, midAzimuth := none, midShot := none,
    line := line, endCause := none, midEnd := some (b.now + st.exposure * 64000 / 2),
    exposureEnd := some (b.now + st.exposure * 64000), rowEnd := none, headerIssued := false }

/-- A SCAN job that is not yet SCANNING has failed: the head decelerates, and the job ends FAILED at once, or behind its
seal (R116). -/
structure ScanFailedEarly (cause : ResultCode) (j : ScanJob) (b u : State) : Prop where
  turntable : u.turntable = (decelerate b).turntable
  seals     : b.seals = true →
    u.job = some (.scan { j with cause := some cause, endWait := .mark }) ∧
    u.pages.mark = some ⟨b.staging.nextSeq, .abort, false⟩
  ends      : b.seals = false → b.reader.writeBackLost = false →
    HandsBack (scanResult { j with cause := some cause } b.azimuth b.photo.stations) u

/-- The camera of a PHOTO job in ARMED is lost: the head decelerates, the station stays NOT-REACHED, and the job goes to
its end, CAMERA-FAULT if it held no cause (R141, R143). -/
structure StationLost (a : PhotoJob) (b u : State) : Prop where
  turntable : u.turntable = (decelerate b).turntable
  photo     : u.photo.state = .absent ∧ u.photo.current = b.photo.current
  seals     : b.seals = true →
    u.job = some (.photo { a with cause := firstCause a.cause .cameraFault, sealWait := true }) ∧
    u.photo.stations = b.photo.stations ∧ u.pages.mark = some ⟨b.staging.nextSeq, .abort, false⟩
  ends      : b.seals = false → b.reader.writeBackLost = false → a.lateCause = false →
    HandsBack (photoResult { a with cause := firstCause a.cause .cameraFault } a.index b.photo.stations) u

/-- A field of `n` bytes as it is stored: its value, or every bit set for none (R192). -/
def storedAs (n : Nat) (v : Option Nat) : Nat :=
  match v with
  | none => 2 ^ (8 * n) - 1
  | some x => x % 2 ^ (8 * n)

/-- The field write of a page's take or seal, whose descriptor lies at an address: fill, sequence, the seal reason's
code, first line and first shot, each at its place, under a mask of exactly their bytes (R91, R98, R192, R196). That it
spans the 32 bytes from 18h on is the model's choice (log 71). -/
structure FieldWrite (purpose : Purpose) (p : Page) (reason descriptor : Nat) (w : Transfer) : Prop where
  who       : w.requester = .descriptor ∧ w.purpose = purpose ∧ w.write = true ∧ w.live = true
  span      : w.addr = addrOf (descriptor + 0x18) ∧ w.len = 32 ∧ w.data.length = 32
  fill      : field w.data 0x04 4 = p.fill % 2 ^ 32
  sequence  : field w.data 0x08 4 = p.sequence % 2 ^ 32
  reason    : field w.data 0x0C 1 = reason
  firstLine : field w.data 0x10 4 = storedAs 4 p.firstLine
  firstShot : field w.data 0x18 8 = storedAs 8 p.firstShot
  mask      : w.mask = List.replicate 4 false ++ List.replicate 9 true ++ List.replicate 3 false ++
    List.replicate 4 true ++ List.replicate 4 false ++ List.replicate 8 true

/-- A requester may be granted another transfer: it has fewer than 4 outstanding, and the descriptor requester, which
issues one access at a time, none (R90, R161, R164). -/
abbrev HasRoom (s : State) (r : Requester) : Prop :=
  (s.port.outOf r).length < (match r with | .descriptor => 1 | .chain | .record | .photo => 4)

/-- GRANT has issued a transfer out of a port from whose waiting transfers it has been taken: it holds the issue slot, and
is outstanding under the next number with 50 µs to its timeout (R161, R163, R167). -/
def Granted (m : Moment) (s b : State) (t : Transfer) (left : Port) : Prop :=
  exec (.grant m) s = .next { b with
    port := { left.setOut t.requester
        (s.port.outOf t.requester ++ [⟨s.port.nextId, t, some (b.now + 50 * 64000), .awaited⟩]) with
      nextId := s.port.nextId + 1 },
    issueSlot := some (t.requester, b.now), out := [.issued s.port.nextId t] }

/-- The running job of `b` has been told of a memory fault by the Page Manager; at a descriptor access `descriptor`
(R87, R104, R106, R116, R120, R125, R126, R128, R141, R143, R160, R179). Details the spec does not state are open (log
15, 34). -/
structure JobToldOfFault (descriptor : Bool) (b u : State) : Prop where
  others     : b.job = none ∨ b.job = some .spinWait ∨ b.job = some .turnWait ∨
    (∃ slot src, b.job = some (.profileRead slot src)) ∨ b.job = some .reportWrite → u.job = b.job ∧ u.reader = b.reader
  mark       : b.job = some .markWait → u.markWait = none ∧ ∃ detail, HandsBack ⟨.memoryFault, detail, []⟩ u
  sealing    : ∀ kind r, b.job = some (.sealWait kind r) → HandsBack r u
  scanBefore : ∀ j, b.job = some (.scan j) → j.phase = .hold ∨ j.phase = .position ∨ j.phase = .runIn →
    (j.endWait = .none →
      u.turntable = (decelerate b).turntable ∧
      (b.seals = true → u.job = some (.scan { j with cause := some .memoryFault, endWait := .mark }) ∧
        u.pages.mark = some ⟨b.staging.nextSeq, .abort, false⟩) ∧
      (b.seals = false →
        HandsBack (scanResult { j with cause := some .memoryFault } b.azimuth b.photo.stations) u)) ∧
    (j.endWait ≠ .none → HandsBack (scanResult j b.azimuth b.photo.stations) u)
  scanning   : ∀ j, b.job = some (.scan j) → j.phase = .scanning →
    (j.stop ≠ none → u.job = some (.scan { j with cause := firstCause j.cause .memoryFault })) ∧
    ∃ v x, OnlyIn (fields [.staging, .pages, .port, .notices]) b v ∧ v.pages.wait = b.pages.wait ∧
      v.pages.fault = (b.pages.fault || descriptor) ∧
      v.staging.entries.map (·.record) = b.staging.entries.map (·.record) ∧
      ScanStops .memoryFault .memoryFault .stop j v x ∧ OnlyIn (fields [.staging, .loss, .pages]) x u
  scanEnding : ∀ j, b.job = some (.scan j) → j.phase = .ending →
    (j.endWait = .none → u.job = some (.scan { j with cause := firstCause j.cause .memoryFault })) ∧
    (j.endWait ≠ .none →
      HandsBack (scanResult { j with cause := firstCause j.cause .memoryFault } b.azimuth b.photo.stations) u)
  photo      : ∀ a, b.job = some (.photo a) →
    (a.sealWait = true → ∃ detail,
      HandsBack (photoResult { a with cause := firstCause a.cause .memoryFault } detail b.photo.stations) u ∧
      (a.cause ≠ none → a.lateCause = false → detail = a.index)) ∧
    (a.sealWait = false → b.photo.state.busy = true →
      u.job = some (.photo { a with cause := firstCause a.cause .memoryFault })) ∧
    (a.sealWait = false → b.photo.state.busy = false →
      (b.seals = true → descriptor = false →
        u.job = some (.photo { a with cause := firstCause a.cause .memoryFault, sealWait := true }) ∧
        u.pages.mark = some ⟨b.staging.nextSeq, .abort, false⟩) ∧
      (b.seals = false ∨ descriptor = true → a.lateCause = false →
        HandsBack (photoResult { a with cause := firstCause a.cause .memoryFault } a.index b.photo.stations) u))

/-- The losses after a record has been lost with its line or page (R105); where a GAP record's first lost line meets one
held already, the one held stands (the model's choice, log 72). -/
def lossOf (l : Loss) (e : Entry) : Loss :=
  match e.record with
  | .shot _ => { l with shots := satAdd 32 l.shots 1 }
  | .photo _ | .mark _ _ => { l with others := satAdd 32 l.others 1 }
  | .gap g =>
    { first := (match l.first with | none => g.first | some f => some f), lines := satAdd 32 l.lines g.lines,
      shots := satAdd 32 l.shots g.shots, others := satAdd 32 l.others g.others }
  | .header _ | .trailer _ => l

/-- The losses after a line has been lost (R83, R105). -/
def lineLoss (l : Loss) (x : Nat × HeaderRec) : Loss :=
  { l with
    first := (match l.first with | none => some (x.2.line, x.2.tag) | some f => some f), lines := satAdd 32 l.lines 1 }

/-- The current page has been abandoned: `out` are the queued records whose write stands in the port, `back` those that
wait (again), `rest` the writes still outstanding (R104, R105). The line in progress and those whose header is out are
lost; of the last of them the records that wait go too; and once no write is outstanding the records out go. -/
structure Abandoned (out back : List Entry) (rest : List Outstanding) (s u : State) : Prop where
  lines   : ∀ lost gone d, lost = s.pages.line.toList ++ out.filterMap (fun e => e.record.header?.map (fun h => (e.job, h))) →
    d = lost.getLast?.map (fun x => (x.1, x.2.line)) →
    gone = back.filter (fun e => decide (d.isSome ∧ e.lineId = d)) ++ (if rest = [] then out else []) →
    u.loss = gone.foldl lossOf (lost.foldl lineLoss s.loss) ∧
    u.staging.entries = (if rest = [] then [] else out) ++ back.filter (fun e => !decide (d.isSome ∧ e.lineId = d)) ∧
    (d ≠ none → u.pages.line = none) ∧
    (d ≠ none → (∀ e ∈ gone, ∀ t, e.record = .trailer t → e.lineId ≠ d) → u.pages.discarding = d)

/-- A command makes the transfer at a place among its requester's outstanding ones fault: the FAULT register and the
FAULT cause (R168), and, once it is the oldest, what its requester does with it (R104 to R106, R137, R138, R155, R159,
R165, R169, R183). -/
structure Faults (c : Instr) (q : Requester) (timeout : Bool) (place : Nat) (o : Outstanding) (s b : State) : Prop where
  latched    : ∃ t, exec c s = .next t ∧
    t.port.fault = ⟨some o.transfer.requester, o.transfer.write, timeout, o.transfer.addr⟩ ∧
    t.notices.pending &&& 32 = 32
  behind     : 1 ≤ place → OldestUnanswered s → ∃ u, exec c s = .next (advancePages u) ∧
    u.port.outOf q = (s.port.outOf q).set place ⟨o.id, o.transfer, none, .faulted⟩ ∧
    u.notices.pending = s.notices.pending ||| 32 ∧ OnlyIn (fields [.port, .notices]) b u
  reader     : ∀ rest, place = 0 → q = .chain → o.transfer.requester = .chain → OldestAwaits o.id s o.transfer rest →
    (o.transfer.purpose.isReaderRead = true ∨ o.transfer.purpose = .takenWrite ∨ o.transfer.purpose = .resultCode ∨
      o.transfer.purpose = .resultState ∨ (o.transfer.purpose = .blockWrite ∧ s.job = none)) →
    ∃ u, exec c s = .next (advancePages u) ∧ u.reader.state = .halted ∧ u.reader.haltCause = some .writeBackLost ∧
      u.reader.taken = none ∧ u.reader.result = none ∧ u.reader.writeList = [] ∧ u.reader.haltPending = false ∧
      u.reader.lastFinished = s.reader.lastFinished ∧ u.notices.pending = s.notices.pending ||| 32 ||| 16 ∧
      OnlyIn (fields [.reader, .port, .notices]) b u
  writeBack  : ∀ rest, place = 0 → q = .chain → o.transfer.requester = .chain → OldestAwaits o.id s o.transfer rest →
    o.transfer.purpose = .blockWrite →
    (∀ j, s.job = some (.scan j) → j.phase = .scanning →
      ∃ v x u, exec c s = .next (advancePages u) ∧ v.reader = s.reader.lost ∧
        v.notices.pending = s.notices.pending ||| 32 ∧ OnlyIn (fields [.reader, .port, .notices]) b v ∧
        InlineAborted v x ∧ ScanStops .aborted .abort .stop { j with abortTaken := true } x u) ∧
    (∀ job, s.job = some job → (∀ j, job = .scan j → j.phase ≠ .scanning) →
      ∃ v u, exec c s = .next (advancePages u) ∧ v.reader = s.reader.lost ∧
        v.notices.pending = s.notices.pending ||| 32 ∧ OnlyIn (fields [.reader, .port, .notices]) b v ∧
        JobAborted job v u) ∧
    (∀ a p, s.job = some (.photo a) → a.sealWait = false → s.photo.state = .exposing → s.photo.current = some p →
      ∃ u, exec c s = .next (advancePages u) ∧ u.reader = s.reader.lost ∧
        u.job = some (.photo { a with abortTaken := true, cause := firstCause a.cause .aborted }) ∧
        u.photo.current = some { p with endCause := some .abort } ∧ u.notices.pending = s.notices.pending ||| 32) ∧
    (∀ a, s.job = some (.photo a) → a.sealWait = false → s.photo.state = .armed → s.seals = false →
      ∃ u, exec c s = .next (advancePages u) ∧ u.job = none ∧ u.reader.state = .halted ∧
        u.reader.haltCause = some .writeBackLost ∧ u.reader.taken = none ∧ u.reader.result = none ∧
        u.reader.writeList = [] ∧ u.reader.haltPending = false ∧ u.reader.writeBackLost = false ∧
        u.turntable = (decelerate b).turntable ∧ u.notices.pending = s.notices.pending ||| 32 ||| 16)
  access     : ∀ rest kind, place = 0 → q = .chain → o.transfer.requester = .chain →
    OldestAwaits o.id s o.transfer rest → s.reader.writeBackLost = false →
    ((∃ slot src, s.job = some (.profileRead slot src)) ∧ o.transfer.purpose = .profileRead ∧ kind = .profile) ∨
      (s.job = some .reportWrite ∧ o.transfer.purpose = .reportWrite ∧ kind = .report) →
    ∃ u, exec c s = .next (advancePages u) ∧ Finishes kind ⟨.memoryFault, 0, []⟩ s.seals s.staging.nextSeq u ∧
      u.slots = s.slots ∧ u.notices.pending = s.notices.pending ||| 32
  descriptor : ∀ rest, place = 0 → q = .descriptor → o.transfer.requester = .descriptor →
    OldestAwaits o.id s o.transfer rest →
    (o.transfer.purpose = .descriptorRead ∨ o.transfer.purpose = .takeField ∨ o.transfer.purpose = .takeState ∨
      o.transfer.purpose = .sealField ∨ o.transfer.purpose = .sealState) →
    ∃ u, exec c s = .next (advancePages u) ∧ u.pages.fault = true ∧ u.pages.current = none ∧ u.pages.pass = none ∧
      (s.job = none → u.pages.mark = none ∧ u.staging = s.staging ∧ u.notices.pending = s.notices.pending ||| 32 ∧
        OnlyIn (fields [.pages, .port, .notices]) b u) ∧
      (s.reader.writeBackLost = false → JobToldOfFault true b u ∧ u.notices.pending = s.notices.pending ||| 32)
  record     : ∀ rest p, place = 0 → q = .record → o.transfer.requester = .record → OldestAwaits o.id s o.transfer rest →
    o.transfer.purpose = .record ∨ o.transfer.purpose = .continuation → s.pages.current = some p →
    ∃ u, exec c s = .next (advancePages u) ∧ (∀ y ∈ u.port.recordWait, y.requester ≠ .record) ∧
      (s.reader.writeBackLost = false → JobToldOfFault false b u ∧ u.notices.pending = s.notices.pending ||| 32) ∧
      ((∀ y ∈ s.port.recordWait, y.requester = .record) →
        u.pages.current = (if rest = [] then none else some { p with stage := .abandoned, sealing := none }) ∧
        (∀ out asked waiting, s.staging.entries = out ++ asked ++ waiting → (∀ e ∈ out ++ asked, e.issued = true) →
          (∀ e ∈ waiting, e.issued = false) →
          asked.length = (s.port.recordWait.filter (fun y => decide (y.purpose = .record))).length →
          (s.scanning = true → s.line.phase ≠ .none ∧ ∃ n, s.line.number = some n ∧ s.lineHasShots n = true) →
          Abandoned out ((asked ++ waiting).map (fun e => { e with issued := false })) rest s u))
  photo      : ∀ rest p, place = 0 → q = .photo → o.transfer.requester = .photo → OldestAwaits o.id s o.transfer rest →
    (∃ last, o.transfer.purpose = .row last) ∨ o.transfer.purpose = .photoHeader → s.photo.current = some p →
    ∃ u, exec c s = .next (advancePages u) ∧ (∀ y ∈ u.port.photoWait, y.requester ≠ .photo) ∧
      (rest ≠ [] →
        u.photo = { s.photo with rows := [], current := some { p with
          endCause := some .memory, accepting := false, midEnd := none, exposureEnd := none, rowEnd := none } } ∧
        u.out = (if o.transfer.purpose = .photoHeader then [] else [.cameraStop]) ∧
        u.notices.pending = s.notices.pending ||| 32 ∧ OnlyIn (fields [.photo, .port, .notices, .out]) b u) ∧
      (rest = [] → s.job = none ∨ s.scanning = true →
        u.photo.current = none ∧ u.photo.rows = [] ∧ u.photo.stations = setStatus p.station .fault s.photo.stations ∧
        u.photo.state = (if s.camera.presence = .present ∧ s.camera.checkDue = false then .idle else .absent) ∧
        u.out = (if o.transfer.purpose = .photoHeader then [] else [.cameraStop]) ∧ u.job = s.job ∧
        u.staging = s.staging ∧ u.loss = s.loss ∧ u.notices.pending = s.notices.pending ||| 32) ∧
      (∀ a, rest = [] → s.job = some (.photo a) → a.cause = none → a.lateCause = false →
        s.reader.writeBackLost = false →
        u.staging = s.staging ∧ u.loss = s.loss ∧
        (s.seals = true →
          u.job = some (.photo { a with done := a.done + 1, cause := some .memoryFault, sealWait := true }) ∧
          u.pages.mark = some ⟨s.staging.nextSeq, .abort, false⟩) ∧
        (s.seals = false → ∃ fs, HandsBack ⟨.memoryFault, a.index, fs⟩ u ∧
          fs = (0x28, leBytes 4 (a.done + 1)) :: statusFields 0 (setStatus p.station .fault s.photo.stations) ∧
          u.photo.stations = []))

/-- A camera fault has been taken at the photograph in hand (R136): Stop is sent; while it is exposed or its rows are
accepted its end cause becomes CAMERA, unless it is MEMORY, with no row accepted any more and its timers stopped; after
that its end cause stands. -/
structure CameraFaulted (p : Photograph) (b u : State) : Prop where
  stop  : .cameraStop ∈ u.out
  taken : b.photo.state = .exposing ∨ p.accepting = true → ∃ x, u.photo.current = some x ∧
    x.endCause = (if p.endCause = some .memory then some .memory else some .camera) ∧ x.accepting = false ∧
    x.midEnd = none ∧ x.exposureEnd = none ∧ x.rowEnd = none ∧ x.rowsTaken = p.rowsTaken ∧ x.rowsStored = p.rowsStored
  after : b.photo.state ≠ .exposing → p.accepting = false → u.photo = b.photo

/-- The commands by which the memory completes a transfer of a requester. -/
def completionsOf (q : Requester) (m : Moment) (data : List Byte) : List Instr :=
  match q with
  | .chain =>
    [.spin m, .park m, .turn m, .mark m, .setup m, .profile m, .report m, .scan m, .photo m, .takenWriteComplete m,
     .examinationReadComplete m data, .blockWriteComplete m, .resultCodeWriteComplete m, .resultStateWriteComplete m,
     .linkReadComplete m data, .profileReadComplete m data, .reportWriteComplete m]
  | .descriptor =>
    [.descriptorReadComplete m data, .takeFieldWriteComplete m, .takeStateWriteComplete m, .sealFieldWriteComplete m,
     .sealStateWriteComplete m]
  | .record => [.recordWriteComplete m]
  | .photo => [.rowWriteComplete m, .headerWriteComplete m]

/-- Neither the job-end mark nor the drain point has been reached and not yet acted on (R101). -/
def State.markQuiet (s : State) : Prop :=
  (∀ k, s.pages.mark = some k → k.begun = true ∨ s.reached k.bound = false) ∧
  (∀ d, s.pages.mark = none → s.pages.drain = some d → s.reached d = false)

/-- Item `n` of check 1 of R109 passes, the items 1 to 9 as the rule lists them; `slot` is the slot named, if valid, and
`target` the mirror's target rate. -/
def scanItem (p : ScanParams) (slot : Option Slot) (target : Nat) : Nat → Prop
  | 1 => p.slot ≤ 3
  | 2 => p.startAz ≤ 4194303
  | 3 => 1 ≤ p.step ∧ p.step ≤ 65536
  | 4 => 1 ≤ p.lines ∧ p.lines ≤ 1000000
  | 5 => 1 ≤ p.sectorStart ∧ p.sectorStart < p.sectorStop ∧ p.sectorStop ≤ 4194303 ∧
    ∀ x, slot = some x → ∀ a, p.sectorStart ≤ a → a < p.sectorStop →
      (x.profile.blindStart < x.profile.blindStop → a < x.profile.blindStart ∨ x.profile.blindStop ≤ a) ∧
      (x.profile.blindStop < x.profile.blindStart → a < x.profile.blindStart ∧ x.profile.blindStop ≤ a)
  | 6 => 1 ≤ p.echoLimit ∧ p.echoLimit ≤ 8
  | 7 => p.startZone ≤ 31 ∧ ∀ x, slot = some x → p.startZone < x.bound
  | 8 => p.count ≤ 16
  | 9 => p.step * target ≤ 34952500
  | _ => True

/-- Check `n` of R153 passes, the checks 3 to 18 as the rule lists them, with the ranges of R148. -/
def profileItem (p : Profile) : Nat → Prop
  | 3 => 32000 ≤ p.base ∧ p.base ≤ 1280000
  | 4 => ∀ x ∈ p.jitter, x ≤ 16383
  | 5 => 64000 ≤ p.window ∧ p.window ≤ 2560000
  | 6 => 640 ≤ p.blanking ∧ p.blanking ≤ 128000
  | 7 => p.refInterval = 0 ∨ (256 ≤ p.refInterval ∧ p.refInterval ≤ 65536)
  | 8 => p.refConstant ≤ 32000
  | 9 => -32000 ≤ p.zeroOffset ∧ p.zeroOffset ≤ 32000
  | 10 => 80000 ≤ p.factor ∧ p.factor ≤ 100000
  | 11 => 1 ≤ p.gate ∧ p.gate ≤ 65535
  | 12 => 1 ≤ p.switchCount ∧ p.switchCount ≤ 15
  | 13 => p.blindStart ≤ 4194303
  | 14 => p.blindStop ≤ 4194303
  | 15 => 100 ≤ p.settleMs ∧ p.settleMs ≤ 5000
  | 16 => p.cameraOffset ≤ 4194303
  | 17 => p.blanking < p.window
  | 18 => p.inFlightBound ≤ 32
  | _ => True

/-- Inline station `i` of a scan is crossed at an index at which the head has travelled so far: it is NOT-REACHED, no
photograph of it is in hand, and its distance from the start is at most the travel (R144). -/
def Crossed (v : State) (base : InlineBase) (travel : Int) (i : Nat) : Prop :=
  ∃ x, v.photo.stations[i]? = some x ∧ x.status = .notReached ∧ (∀ p, v.photo.current = some p → p.station ≠ i) ∧
    ((x.station.azimuth : Int) + base.offset - base.startAz) % 4194304 ≤ travel

/-- A station's fields are in range, with the longest exposure its job allows (R108, R139, R192). -/
def Station.inRange (st : Station) (longest : Nat) : Prop :=
  st.azimuth ≤ 4194303 ∧ st.buffer % 64 = 0 ∧ st.buffer < 2 ^ 48 ∧ 64 ≤ st.size ∧ st.mode ≤ 1 ∧ 50 ≤ st.exposure ∧
  st.exposure ≤ longest

/-- The running job waits on its mark or drain point (R101). -/
def State.waitsOnPages (s : State) : Bool :=
  match s.job with
  | some (.sealWait _ _) => true
  | some (.scan j) => decide (j.endWait ≠ .none)
  | some (.photo p) => p.sealWait
  | some .spinWait | some .turnWait | some (.profileRead _ _) | some .reportWrite | some .markWait | none => false

end Sys2Proof.Machine
end

