-- ==== Sys2Proof/Certificates/Slice0/Obligations.lean ====
section
/-! DEFINITION. The statements for the provers. `b` is throughout the state as the command finds it: its moment taken, the
signals of the command before gone. Where a conclusion reads `.next (advancePages u)`, the Page Manager acts last in the
event; what that may touch is said once, in PageManagerActsLast. -/

open Sys2Proof Sys2Proof.Machine

/-! ## The machine -/

/-- A step takes the command at the front of the queue and runs it on the state with the queue's rest. -/
def Obligations.StepTakesFrontCommand : Prop :=
  ∀ (c : Instr) (rest : List Instr) (s : State), s.pending = c :: rest → step s = exec c (s.setPending rest)

/-- With no command waiting the block idles: nothing moves but the time counter, which counts one fine unit; past its top
value its reading is open (the model's choice, log 2). -/
def Obligations.EmptyQueueIdles : Prop :=
  ∀ s : State, s.pending = [] →
    (s.time ≠ BitVec.allOnes 64 → step s = .next { s with time := s.time + 1, out := [] }) ∧
    (s.time = BitVec.allOnes 64 → ∃ x, step s = .next { s with time := x, out := [] })

/-- Every command in every state answers a next state (an event of which the spec says nothing moves nothing: the
model's choice, log 3), and leaves the waiting commands alone. Every one but the resets and REGISTER_WRITE (which
RegisterWriteReachesItsRegister covers) leaves the counter at its moment's reading, never set back, the azimuth at the
encoder's, and the angle on by the encoder's steps, wrapping at the top, or at 0 at an index mark (R1, R23, section 1.3;
that a command brings its moment is the model's, log 1). RSTIN may be released with it (log 46), and the rest watch goes
on while the azimuth stays within 16 counts of the one it began at (log 59). -/
def Obligations.CommandsAnswerNext : Prop :=
  ∀ (c : Instr) (s : State), ∃ t, exec c s = .next t ∧ t.pending = s.pending ∧
    ((∀ m, c ≠ .powerOnReset m ∧ c ≠ .reset m) → (∀ m o n v, c ≠ .registerWrite m o n v) →
      t.time = (if s.time ≤ c.moment.time then c.moment.time else s.time) ∧ t.azimuth = c.moment.azimuth ∧
      ((∃ m, c = .mirrorIndexMark m) → t.angle = 0) ∧
      ((∀ m, c ≠ .mirrorIndexMark m) → t.angle = s.angle + BitVec.ofNat 22 c.moment.steps) ∧
      t.rstin = (s.rstin && c.moment.rstin) ∧
      (circleDistance c.moment.azimuth s.rest.azimuth ≤ 16 → t.rest = s.rest) ∧
      (16 < circleDistance c.moment.azimuth s.rest.azimuth → t.rest = ⟨t.now, c.moment.azimuth⟩))

/-- The Page Manager as it acts last in an event. It moves queue, losses, pages, its port and its notices, withdraws no
transfer of the control class, and ends no job but one that waits on it; with nothing queued, no page, no mark and no
drain point it does nothing. With a page that takes records it asks for the write of the first record that waits, at the
page's base and issue position, behind a continuation header where its line has none in the page (R95, R97); a trailer
that reaches the high-water of an auto-seal page begins the seal (R99), and a record that does not fit begins it with
reason FULL (R96), with the seal's fields written, each at its place, once the page is drained (R98, R196). With no page
a record that waits begins a pass, or, with no table or in PAGE-FAULT, exhaustion (R90, R93). A mark that is reached
seals the page, joins a seal begun, or tells its job, a short job, a SCAN or a PHOTO job, that there is nothing to seal
(the detail of a PHOTO job's late failure is open, log 34), and a drain point that is reached tells the scan (R101). A
record of the discarding line goes unwritten (R105). That it acts at the end of an event is log 25, that a continuation
header is a transfer of its own log 23, that a write is issued by asking the port for it log 22, that exhaustion in
PAGE-FAULT comes in the event that finds a record waiting log 27; that the seal's field write begins at 18h and spans 32
bytes is the model's choice (log 71). -/
def Obligations.PageManagerActsLast : Prop :=
  (∀ u : State,
    OnlyIn (fields pageSide) u (advancePages u) ∧
    (u.waitsOnPages = false →
      OnlyIn (fields [.staging, .loss, .pages, .port, .notices]) u (advancePages u) ∧
      ∀ x ∈ u.port.control, x ∈ (advancePages u).port.control) ∧
    (u.waitsOnPages = false → u.staging.entries = [] → u.pages.current = none → u.pages.mark = none →
      u.pages.drain = none → advancePages u = u)) ∧
  (∀ (u : State) (e : Entry), u.waitsOnPages = false → u.markQuiet → u.firstUnissued = some e →
    (u.pages.discarding = none ∨ e.lineId ≠ u.pages.discarding) →
    (∀ p, u.pages.current = some p → p.stage = .ready → p.sealing = none →
      (needsContinuation u.pages.line p e = false → p.issue + e.record.size ≤ p.size → u.recordsInFlight < 4 →
        (∃ more, (advancePages u).port.recordWait = u.port.recordWait ++
          writeTransfer .record .record (p.base + p.issue) e.record.bytes :: more) ∧
        (∃ y ∈ (advancePages u).staging.entries, y = { e with issued := true }) ∧
        (u.staging.entries.filter (fun y => !y.issued) = [e] → (∀ y ∈ u.staging.entries, y.seq = e.seq → y = e) →
          ∃ q, (advancePages u).pages.current = some q ∧ q.issue = p.issue + e.record.size ∧
            q.sealing = (match e.record with
              | .trailer _ => if p.autoSeal = true ∧ p.highWater ≤ p.issue + 64 then some .highWater else none
              | _ => none))) ∧
      (∀ job h, u.pages.line = some (job, h) → needsContinuation u.pages.line p e = true →
        p.issue + e.record.size + 48 ≤ p.size → u.recordsInFlight < 4 →
        ∃ more, (advancePages u).port.recordWait = u.port.recordWait ++
          writeTransfer .record .continuation (p.base + p.issue) (headerBytes true h) :: more) ∧
      (∀ job h, u.pages.line = some (job, h) →
        (needsContinuation u.pages.line p e = true ↔
          p.holdsHeader = false ∧ p.contIssued = false ∧ e.job = job ∧
          ((∃ r, e.record = .shot r ∧ r.line = h.line) ∨ ∃ r, e.record = .trailer r ∧ r.line = h.line))) ∧
      (u.pages.line = none → needsContinuation u.pages.line p e = false) ∧
      (p.size < p.issue + e.record.size + (if needsContinuation u.pages.line p e then 48 else 0) →
        (u.drained = false → advancePages u = { u with
          pages := { u.pages with current := some { p with sealing := some .full } } }) ∧
        (u.drained = true → ∃ w, advancePages u = { u with
            pages := { u.pages with current := some { p with sealing := some .full, stage := .sealField } },
            port := u.port.request w } ∧
          FieldWrite .sealField p 1 (descriptorAddr (u.pages.table.getD (0, 0)) p.index) w))) ∧
    (u.pages.current = none → u.pages.pass = none → u.pages.wait = false →
      (∀ t, u.pages.fault = false → u.pages.table = some t →
        advancePages u = { u with
          pages := { u.pages with pass := some 0 },
          port := u.port.request (readTransfer .descriptor .descriptorRead
            (t.1 + 64 * (u.pages.nextExamine % t.2)) 64) }) ∧
      (u.pages.fault = true ∨ u.pages.table = none →
        advancePages u = raise .pageWait { u with pages := { u.pages with wait := true } }))) ∧
  (∀ (u : State) (k : EndMark), u.pages.mark = some k → k.begun = false → u.reached k.bound = true →
    u.pages.discarding = none →
    (∀ p, u.pages.current = some p → p.stage = .ready → u.waitsOnPages = true →
      (∀ j, u.job = some (.scan j) → j.abortTaken = true → u.pages.wait = false) →
      ∃ q, (advancePages u).pages.current = some q ∧
        (advancePages u).pages.mark = some { k with begun := true } ∧
        q.sealing = (match p.sealing with | none => some k.reason | some r => some r) ∧
        (u.drained = true → q.stage = .sealField) ∧ (u.drained = false → q.stage = .ready)) ∧
    (∀ kind r, u.pages.current = none → u.job = some (.sealWait kind r) → u.reader.writeBackLost = false →
      HandsBack r (advancePages u) ∧ (advancePages u).pages.mark = none) ∧
    (∀ j, u.pages.current = none → u.job = some (.scan j) → j.endWait ≠ .none → u.reader.writeBackLost = false →
      HandsBack (scanResult j u.azimuth u.photo.stations) (advancePages u) ∧ (advancePages u).pages.mark = none) ∧
    (∀ a, u.pages.current = none → u.job = some (.photo a) → a.sealWait = true → u.reader.writeBackLost = false →
      (∃ detail, (a.lateCause = false → detail = a.index) ∧
        HandsBack (photoResult a detail u.photo.stations) (advancePages u)) ∧
      (advancePages u).photo.stations = [] ∧ (advancePages u).pages.mark = none)) ∧
  (∀ (u : State) (d : Nat) (j : ScanJob), u.pages.mark = none → u.pages.drain = some d → u.reached d = true →
    u.pages.discarding = none → u.job = some (.scan j) → j.endWait ≠ .none → u.reader.writeBackLost = false →
    HandsBack (scanResult j u.azimuth u.photo.stations) (advancePages u) ∧ (advancePages u).pages.drain = none) ∧
  (∀ (u : State) (e : Entry) (r : ShotRec) (d : Nat × Nat), u.waitsOnPages = false → u.staging.entries = [e] →
    e.issued = false → e.record = .shot r → u.pages.discarding = some d → d = (e.job, r.line) → u.pages.current = none →
    u.pages.mark = none → u.pages.drain = none →
    advancePages u = { u with
      staging := { u.staging with entries := [] }, loss := { u.loss with shots := satAdd 32 u.loss.shots 1 } })

/-! ## Invariants -/

/-- Every step keeps the bounds of the buffers: 32,768 bytes of records and 32,512 of the point class (R79), four
outstanding transfers a requester (R161), one of the descriptor requester's (R90, R164), 32 open shots (R40), four
buffered rows (R133); and that what waits on a data path's own order is that path's, on which the transfers' bound
rests, and that no two outstanding transfers of a requester bear one number (the model's numbers, log 64), on which it
rests that an answer finds its own transfer (R167). -/
def Obligations.BoundsKept : Prop := ∀ s t, Bounded s → step s = .next t → Bounded t

/-- Every step keeps ATTN as its mode says (R189, R190). -/
def Obligations.AttentionFollowsModeKept : Prop := ∀ s t, AttentionSound s → step s = .next t → AttentionSound t

/-- Every step keeps the beam permit true exactly while its four conditions are (R22), and the line FIRING exactly while
the permit holds (R27). -/
def Obligations.BeamPermitExactKept : Prop := ∀ s t, PermitSound s → step s = .next t → PermitSound t

/-- Every step keeps the jitter index at the next shot number modulo 16 (R24, R25, R31). -/
def Obligations.JitterIndexKept : Prop := ∀ s t, JitterFollows s → step s = .next t → JitterFollows t

/-- Every step leaves no answered transfer unreported at the head of a requester's order (R165). -/
def Obligations.OutcomesReportedInOrderKept : Prop :=
  ∀ s t, OldestUnanswered s → step s = .next t → OldestUnanswered t

/-- LASER TRIG is driven only by a command that finds the beam permit's four conditions true and the line FIRING (R22),
and then the shot stands at the tail of the open shot list, with the path and the number it was fired under (R31). -/
def Obligations.LaserFiresOnlyUnderPermit : Prop :=
  ∀ s t path, PermitSound s → step s = .next t → .laserTrig path ∈ t.out →
    s.mirror.state = .locked ∧ s.emission.asserted = true ∧ s.scanning = true ∧ s.sector.inside = true ∧
    s.sched.firing = .firing ∧
    ∃ o, t.shots.getLast? = some o ∧ o.kind = path ∧ o.number = s.sched.nextShot

/-- The state right after reset meets every invariant. -/
def Obligations.ResetMeetsInvariants : Prop :=
  Bounded State.reset ∧ AttentionSound State.reset ∧ PermitSound State.reset ∧ JitterFollows State.reset ∧
  OldestUnanswered State.reset

/-! ## Resets -/

/-- POWER_ON_RESET, from any state: the values that the spec gives every block after power-on. The azimuth, and what the
pins drive, are read from the pins (log 46); Stop and the counter's sync are sent (R23, R146); ATTN is deasserted
(R191). The model's own: that a self-check entered while Error is asserted waits for it to clear (log 35); the empty
load buffer and block image, and that job and transfer numbers, the count of free values and the queue go on (log 10,
64); that the rest watch begins with the reset (log 59). -/
def Obligations.PowerOnResetState : Prop :=
  ∀ (m : Moment) (s : State), ∃ t, exec (.powerOnReset m) s = .next t ∧
    t.time = 0 ∧ t.angle = 0 ∧ t.azimuth = m.azimuth ∧
    t.mirror.state = .spinningDown ∧ t.mirror.target = 0 ∧ t.mirror.rate = 0 ∧ t.mirror.lastIndex = none ∧
    t.mirror.lockCount = 0 ∧ t.mirror.spinUpEnd = none ∧ t.mirror.watchdogFrom = none ∧
    t.mirror.rateWatchEnd = fineSec ∧
    t.turntable.state = .decelerating ∧ t.turntable.target = none ∧ t.turntable.slewEnd = none ∧
    t.turntable.settleEnd = none ∧ t.turntable.errorCount = 0 ∧ t.turntable.requester = none ∧
    t.rest = ⟨0, m.azimuth⟩ ∧ t.rstin = m.rstin ∧ t.attnPin = false ∧ t.issueSlot = none ∧
    t.emission = ⟨s.emission.input, false, if s.emission.input then some (50 * fineMs) else none⟩ ∧
    t.sector = ⟨none, false⟩ ∧
    t.sched = ⟨0, none, 0, none, false, .noLine, 0, 0, none, none, false, .target⟩ ∧
    t.shots = [] ∧ t.tracker = ⟨0, none, 0, none⟩ ∧ t.intake = ⟨0, 0, 0, 0, 0, 0, 0, 0⟩ ∧ t.line = LineState.fresh ∧
    t.staging.entries = [] ∧ t.loss = Loss.zero ∧ t.markWait = none ∧ t.pages = Pages.clear ∧ t.job = none ∧
    t.camera.presentIn = s.camera.presentIn ∧ t.camera.errorIn = s.camera.errorIn ∧
    (s.camera.presentIn = false → t.camera.presence = .wait ∧ t.camera.presenceEnd = some (2 * fineSec)) ∧
    (s.camera.presentIn = true → t.camera.presence = .check ∧
      t.camera.checkEnd = if s.camera.errorIn then none else some (500 * fineMs)) ∧
    t.photo = ⟨.absent, none, [], [], none⟩ ∧ t.slots = ⟨none, none, none, none, []⟩ ∧ t.counters = ⟨0, 0, 0, 0⟩ ∧
    t.port = ⟨[], [], [], [], [], [], [], .photo, s.port.nextId, ⟨none, false, false, 0⟩⟩ ∧ t.reader = Reader.clear 0 ∧
    t.notices = ⟨0, 0, .level, false, none⟩ ∧ t.out = [.cameraStop, .counterSync 0] ∧ t.jobSerial = s.jobSerial ∧
    t.freeCount = s.freeCount ∧ t.pending = s.pending

/-- RESET, from any state: jobs, lines, shots, queue, pages, transfers and notices are gone and the counter restarts at
0; the measured rate, the angle, the Emission Permit, the presence machine, the profiles with their running offsets, the
device counters, the FAULT register and the poll interval stay (R8, R18, R20, R23, R131, R147, R156, R170, R184); ATTN
is deasserted (R191). The model's own: what is left of a timer that goes on counts from the new 0 (log 18), and so does
the rest watch (log 59); the photo machine IDLE, and presence kept, where a CHECK was due behind a photograph (log 36);
the queue that goes on, with the numbers of jobs and transfers and the count of free values, and the block image that is
empty (log 10, 64). -/
def Obligations.SoftResetState : Prop :=
  ∀ (m : Moment) (s b : State), b = observe m s → ∃ t, exec (.reset m) s = .next t ∧
    t.time = 0 ∧ t.angle = b.angle ∧ t.azimuth = m.azimuth ∧
    t.mirror.state = (if s.mirror.state = .parked then .parked else .spinningDown) ∧ t.mirror.target = 0 ∧
    t.mirror.rate = s.mirror.rate ∧ t.mirror.lastIndex = none ∧ t.mirror.lockCount = 0 ∧ t.mirror.spinUpEnd = none ∧
    t.mirror.watchdogFrom = none ∧ t.mirror.rateWatchEnd = s.mirror.rateWatchEnd - b.now ∧
    t.turntable.state =
      (if s.turntable.state = .stopped ∨ s.turntable.state = .held then .stopped else .decelerating) ∧
    t.turntable.target = none ∧ t.turntable.slewEnd = none ∧ t.turntable.settleEnd = none ∧
    t.turntable.errorCount = 0 ∧ t.turntable.requester = none ∧
    t.rest = ⟨0, m.azimuth⟩ ∧ t.rstin = (s.rstin && m.rstin) ∧ t.attnPin = false ∧ t.issueSlot = none ∧
    t.emission.input = s.emission.input ∧ t.emission.asserted = s.emission.asserted ∧
    t.emission.countEnd = s.emission.countEnd.map (· - b.now) ∧
    t.sector = ⟨none, false⟩ ∧
    t.sched = ⟨0, none, 0, none, false, .noLine, 0, 0, none, none, false, .target⟩ ∧
    t.shots = [] ∧ t.tracker = ⟨0, none, 0, none⟩ ∧ t.intake = ⟨0, 0, 0, 0, 0, 0, 0, 0⟩ ∧ t.line = LineState.fresh ∧
    t.staging.entries = [] ∧ t.loss = Loss.zero ∧ t.markWait = none ∧ t.pages = Pages.clear ∧ t.job = none ∧
    t.camera.presence = s.camera.presence ∧ t.camera.presentIn = s.camera.presentIn ∧
    t.camera.errorIn = s.camera.errorIn ∧ t.camera.presenceEnd = s.camera.presenceEnd.map (· - b.now) ∧
    t.camera.checkEnd = s.camera.checkEnd.map (· - b.now) ∧ t.camera.checkAfterWait = s.camera.checkAfterWait ∧
    t.photo = ⟨if s.camera.presence = .present then .idle else .absent, none, [], [], none⟩ ∧
    (∀ i, t.slots.get i = s.slots.get i) ∧ t.counters = s.counters ∧
    t.port = ⟨[], [], [], [], [], [], [], .photo, s.port.nextId, s.port.fault⟩ ∧ t.reader = Reader.clear s.reader.pollMs ∧
    t.notices = ⟨0, 0, .level, false, none⟩ ∧ t.out = [.cameraStop, .counterSync 0] ∧ t.jobSerial = s.jobSerial ∧
    t.freeCount = s.freeCount ∧ t.pending = s.pending

/-! ## The register window -/

/-- The eight registers as they are read: IDENT, CONTROL with the states of reader, mirror, turntable, photo machine and
pages in its bit fields, NOTICE, NOTICE PEEK, NOTICE MASK, and FAULT with its particulars; CHAIN START and LOOK read 0
(R168, R180). A read of NOTICE that takes in byte 0 returns the pending causes, masked ones too, and clears them; any
other returns 0 and clears nothing. ATTN follows (LEVEL) or any pulse runs on (PULSE). A read of NOTICE PEEK returns the
same and changes nothing (R187, R189, R190); that it is no command of its own is the model's (log 7). A read of fewer
than 8 bytes of any register returns the bytes addressed (R180, R187). A write of NOTICE MASK takes the low 8 bits as
the whole mask and leaves the causes pending; ATTN follows under LEVEL, and under PULSE a pulse of 1 µs begins exactly
where the unmasked pending causes go from none to some (R188 to R190). The pulse ends after its 1 µs, and not before;
with none running its end does nothing (log 3). A raise sets the cause's bit, and moves ATTN as a mask write does (R185,
R186, R189, R190). While RSTIN is asserted the ATTN pin is deasserted (R191). -/
def Obligations.NoticeReadMaskAndPulse : Prop :=
  (∀ u : State,
     (registerValue u 0x00).toNat = 2401 * 65536 + 1 ∧ registerValue u 0x08 = 0 ∧ registerValue u 0x10 = 0 ∧
     (registerValue u 0x18).toNat = u.reader.state.code + haltCode u.reader.haltCause * 16 +
       (if u.reader.haltPending then 64 else 0) + u.mirror.state.code * 256 + u.turntable.state.code * 4096 +
       u.photo.state.code * 65536 + (if u.pages.wait then 1048576 else 0) + (if u.pages.fault then 2097152 else 0) +
       (if u.pages.bad then 4194304 else 0) ∧
     registerValue u 0x20 = u.notices.pending.setWidth 64 ∧ registerValue u 0x28 = u.notices.pending.setWidth 64 ∧
     registerValue u 0x30 = u.notices.mask.setWidth 64 ∧
     (registerValue u 0x38).toNat = requesterCode u.port.fault.requester + (if u.port.fault.write then 8 else 0) +
       (if u.port.fault.timeout then 16 else 0) + u.port.fault.addr.toNat * 65536) ∧
  [ReaderState.unset, .waitReady, .running, .waitLink, .halted].map (·.code) = [0, 1, 2, 3, 4] ∧
  [none, some HaltCause.staleBlock, some .halt, some .writeBackLost].map haltCode = [0, 1, 2, 3] ∧
  [MirrorState.parked, .spinningUp, .locked, .unlocked, .spinningDown, .fault].map (·.code) = [0, 1, 2, 3, 4, 5] ∧
  [TurntableState.stopped, .slewing, .settling, .held, .tracking, .decelerating, .fault].map (·.code) =
    [0, 1, 2, 3, 4, 5, 6] ∧
  [PhotoState.absent, .idle, .armed, .exposing, .readout].map (·.code) = [0, 1, 2, 3, 4] ∧
  [none, some Requester.chain, some .descriptor, some .record, some .photo].map requesterCode = [0, 1, 2, 3, 4] ∧
  [Cause.jobEnd, .pageSealed, .pageWait, .chainWait, .halted, .fault, .refused, .camera].map Cause.bit =
    [1, 2, 4, 8, 16, 32, 64, 128] ∧
  (∀ (c : Cause) (u : State) (n : Notices), n = (raise c u).notices →
     raise c u = { u with notices := n } ∧ n.pending = u.notices.pending ||| c.bit ∧ n.mask = u.notices.mask ∧
     n.mode = u.notices.mode ∧
     (n.mode = .level → n.attn = decide (n.pending &&& ~~~n.mask ≠ 0) ∧ n.pulseEnd = u.notices.pulseEnd) ∧
     (n.mode = .pulse → u.notices.pending &&& ~~~n.mask = 0 → n.pending &&& ~~~n.mask ≠ 0 →
       n.attn = true ∧ n.pulseEnd = some (u.now + 64000)) ∧
     (n.mode = .pulse → u.notices.pending &&& ~~~n.mask ≠ 0 ∨ n.pending &&& ~~~n.mask = 0 →
       n.attn = u.notices.attn ∧ n.pulseEnd = u.notices.pulseEnd)) ∧
  (∀ (m : Moment) (first count : Nat) (s b : State), b = observe m s → 1 ≤ count → first + count ≤ 8 →
     registerValue s 0x20 = s.notices.pending.setWidth 64 ∧ registerValue s 0x28 = s.notices.pending.setWidth 64 ∧
     (first = 0 → ∃ t, exec (.notice m first count) s = .next t ∧
       t.out = [.readData (s.notices.pending.setWidth 64)] ∧
       t.notices = { s.notices with
         pending := 0, attn := (match s.notices.mode with | .level => false | .pulse => s.notices.attn) } ∧
       OnlyIn (fields [.notices, .out]) b t) ∧
     (first ≠ 0 → exec (.notice m first count) s = .next { b with out := [.readData 0] })) ∧
  (∀ (u : State) (k first count : Nat), k < 8 → 1 ≤ count → first + count ≤ 8 →
     (registerRead u (8 * k + first) count).toNat =
       (registerValue u (8 * k)).toNat / 2 ^ (8 * first) % 2 ^ (8 * count) ∧
     (k = 4 ∨ k = 5 → registerRead u (8 * k + first) count = if first = 0 then u.notices.pending.setWidth 64 else 0)) ∧
  (∀ u : State, (u.rstin = true → u.attnPin = false) ∧ (u.rstin = false → u.attnPin = u.notices.attn)) ∧
  (∀ (m : Moment) (v : Word) (s b : State), b = observe m s →
     (∃ t, exec (.noticeMask m v) s = .next t ∧ OnlyIn (fields [.notices]) b t ∧
       t.notices.mask = v.setWidth 8 ∧ t.notices.pending = s.notices.pending ∧ t.notices.mode = s.notices.mode ∧
       (s.notices.mode = .level →
         t.notices.attn = decide (s.notices.pending &&& ~~~(v.setWidth 8) ≠ 0) ∧
         t.notices.pulseEnd = s.notices.pulseEnd) ∧
       (s.notices.mode = .pulse → s.notices.pending &&& ~~~s.notices.mask = 0 →
         s.notices.pending &&& ~~~(v.setWidth 8) ≠ 0 →
           t.notices.attn = true ∧ t.notices.pulseEnd = some (b.now + 64000)) ∧
       (s.notices.mode = .pulse →
         (s.notices.pending &&& ~~~s.notices.mask ≠ 0 ∨ s.notices.pending &&& ~~~(v.setWidth 8) = 0) →
           t.notices.attn = s.notices.attn ∧ t.notices.pulseEnd = s.notices.pulseEnd)) ∧
     (∀ e, s.notices.pulseEnd = some e → e ≤ b.now →
       exec (.pulseEnd m) s = .next { b with notices := { s.notices with attn := false, pulseEnd := none } }) ∧
     ((s.notices.pulseEnd = none ∨ ∃ e, s.notices.pulseEnd = some e ∧ b.now < e) → exec (.pulseEnd m) s = .next b))

/-- A write of 8 bytes does what the command of its register and code does (that REGISTER_WRITE is any write of the
window, and a full one therefore that command, is the model's reading, log 8); a shorter one, one to a register that
takes no write, and a CONTROL code that names no action change nothing but to raise REFUSED (R180, R181). -/
def Obligations.RegisterWriteReachesItsRegister : Prop :=
  ∀ (m : Moment) (offset count : Nat) (v : Word) (s b : State), b = observe m s →
    offset < 64 → 1 ≤ count → offset % 8 + count ≤ 8 →
    (count < 8 → exec (.registerWrite m offset count v) s = .next (raise .refused b)) ∧
    (count = 8 →
      (offset = 0x00 ∨ offset = 0x20 ∨ offset = 0x28 ∨ offset = 0x38 →
        exec (.registerWrite m offset count v) s = .next (raise .refused b)) ∧
      (offset = 0x08 → exec (.registerWrite m offset count v) s = exec (.chainStart m v) s) ∧
      (offset = 0x10 → exec (.registerWrite m offset count v) s = exec (.look m) s) ∧
      (offset = 0x30 → exec (.registerWrite m offset count v) s = exec (.noticeMask m v) s) ∧
      (offset = 0x18 →
        (v.toNat % 256 = 1 → exec (.registerWrite m offset count v) s = exec (.abort m) s) ∧
        (v.toNat % 256 = 2 → exec (.registerWrite m offset count v) s = exec (.halt m) s) ∧
        (v.toNat % 256 = 3 → exec (.registerWrite m offset count v) s = exec (.resume m) s) ∧
        (v.toNat % 256 = 4 → exec (.registerWrite m offset count v) s = exec (.cut m) s) ∧
        (v.toNat % 256 = 5 → exec (.registerWrite m offset count v) s = exec (.reset m) s) ∧
        (v.toNat % 256 = 0 ∨ 5 < v.toNat % 256 →
          exec (.registerWrite m offset count v) s = .next (raise .refused b))))

/-- What a CONTROL action or a CHAIN START write that is not accepted does: it makes REFUSED pending, which may move ATTN,
and changes nothing else (R100, R180 to R182, R186). That a CUT at a page that is being abandoned is not accepted is the
model's choice (log 58). -/
def Obligations.RefusedActionsChangeNothing : Prop :=
  ∀ (m : Moment) (s b : State), b = observe m s →
    OnlyIn (fields [.notices]) b (raise .refused b) ∧
    (raise .refused b).notices.pending = s.notices.pending ||| 64 ∧
    (raise .refused b).notices.mask = s.notices.mask ∧ (raise .refused b).notices.mode = s.notices.mode ∧
    (s.job = none → exec (.abort m) s = .next (raise .refused b)) ∧
    (s.reader.state = .unset ∨ s.reader.state = .halted → exec (.halt m) s = .next (raise .refused b)) ∧
    (s.reader.state ≠ .halted → exec (.resume m) s = .next (raise .refused b)) ∧
    (s.pages.current = none ∨ (∃ p r, s.pages.current = some p ∧ p.sealing = some r) ∨
        (∃ p, s.pages.current = some p ∧ p.stage = .abandoned) →
      exec (.cut m) s = .next (raise .refused b)) ∧
    (∀ v : Word, ((s.reader.state ≠ .unset ∧ s.reader.state ≠ .halted) ∨ v.toNat % 2 ^ 48 = 0 ∨
        v.toNat % 2 ^ 48 % 64 ≠ 0 ∨ 2 ^ 48 - 512 < v.toNat % 2 ^ 48) →
      exec (.chainStart m v) s = .next (raise .refused b))

/-- HALT, RESUME and CHAIN START where they are accepted, by reader state (R172, R180, R182): a HALT in a wait state
halts at once and ignores the reads under way (a fault of one is latched all the same, log 52; that a read still
waiting for its grant stays in the control order, to be issued and ignored, is the model's choice, log 66), one in
RUNNING sets halt pending (once a write-back is lost it sets nothing more, R183); RESUME reads the last finished block's
link, or with none examines the cursor block; CHAIN START sets the cursor and examines the block there, on the address
in bits 47 to 0 whatever bits 63 to 48 hold (the model's choice, log 9). -/
def Obligations.ReaderActionsTakeEffect : Prop :=
  ∀ (m : Moment) (v : Word) (s b : State), b = observe m s →
    (s.reader.state = .waitReady ∨ s.reader.state = .waitLink →
      ∃ t, exec (.halt m) s = .next t ∧ OnlyIn (fields [.reader, .port, .notices]) b t ∧
        t.reader = { s.reader with state := .halted, haltCause := some .halt, activity := .idle, lookAgain := false } ∧
        t.port = s.port.ignore (fun x => x.purpose.isReaderRead) ∧
        t.notices.pending = s.notices.pending ||| 16) ∧
    (s.reader.state = .running → s.reader.writeBackLost = false →
      exec (.halt m) s = .next { b with reader := { s.reader with haltPending := true } }) ∧
    (s.reader.state = .running → s.reader.writeBackLost = true → exec (.halt m) s = .next b) ∧
    (∀ a, s.reader.state = .halted → s.reader.lastFinished = some a →
      exec (.resume m) s = .next { b with
        reader := { s.reader with haltCause := none, state := .running, activity := .link },
        port := s.port.request (readTransfer .chain .link (a + 8) 8) }) ∧
    (∀ a, s.reader.state = .halted → s.reader.lastFinished = none → s.reader.cursor = some a →
      exec (.resume m) s = .next { b with
        reader := { s.reader with haltCause := none, state := .running, activity := .examining none },
        port := (s.port.request (readTransfer .chain (.examination 0) a 256)).request
          (readTransfer .chain (.examination 1) (a + 256) 256) }) ∧
    (∀ a, a = v.toNat % 2 ^ 48 → s.reader.state = .unset ∨ s.reader.state = .halted → a ≠ 0 → a % 64 = 0 →
      a ≤ 2 ^ 48 - 512 →
      exec (.chainStart m v) s = .next { b with
        reader := { s.reader with cursor := some a, lastFinished := none, haltCause := none, state := .running,
                                  activity := .examining none },
        port := (s.port.request (readTransfer .chain (.examination 0) a 256)).request
          (readTransfer .chain (.examination 1) (a + 256) 256) })

/-- CUT at a current page whose seal has not begun and that is not being abandoned (log 58): its seal begins with reason
CUT (R100). On a drained page with nothing queued the seal's field write is asked for in the same event, with fill,
sequence, reason, first line and first shot (R98, R196); that it begins at 18h and spans 32 bytes is the model's choice
(log 71). -/
def Obligations.CutBeginsSeal : Prop :=
  ∀ (m : Moment) (s b : State) (p : Page), b = observe m s → s.pages.current = some p → p.sealing = none →
    p.stage ≠ .abandoned →
    exec (.cut m) s =
      .next (advancePages { b with pages := { s.pages with current := some { p with sealing := some .cut } } }) ∧
    (p.stage = .ready → s.staging.entries = [] → s.pages.mark = none → s.pages.drain = none →
      s.port.recordWait = [] → s.port.recordOut = [] → s.waitsOnPages = false →
      ∃ t, exec (.cut m) s = .next t ∧
        t.pages.current = some { p with sealing := some .cut, stage := .sealField } ∧
        ∃ w, t.port = s.port.request w ∧
          FieldWrite .sealField p 3 (descriptorAddr (s.pages.table.getD (0, 0)) p.index) w)

/-- LOOK and a poll tick that is due wake the reader where it waits: in WAIT-READY it examines the cursor block again,
in WAIT-LINK it reads the last finished block's link again, and where that is already under way it looks again
afterwards; in other states nothing (R172, R177; a LOOK in RUNNING does not reach the reader, against the example of
section 10.8, log 39). The Page Manager is woken too, its request behind the reader's (R94; the model's choice of order,
log 62): during a pass it looks again, otherwise a record that waits with no page begins a pass, or, with no table or in
PAGE-FAULT, exhaustion (R90, R93). A poll tick that is not due, or with the interval off, does nothing (log 3); one that
is due starts the next interval. -/
def Obligations.LookAndPollWake : Prop :=
  ∀ (m : Moment) (s b : State), b = observe m s →
    (∃ u, exec (.look m) s = .next (advancePages (wakePages u)) ∧ ChainWoken b u) ∧
    (1 ≤ s.reader.pollMs → s.reader.pollFrom + s.reader.pollMs * fineMs ≤ b.now →
      ∃ u, exec (.pollTick m) s = .next (advancePages (wakePages u)) ∧
        ChainWoken { b with reader := { s.reader with pollFrom := s.reader.pollFrom + s.reader.pollMs * fineMs } } u) ∧
    (s.reader.pollMs = 0 ∨ b.now < s.reader.pollFrom + s.reader.pollMs * fineMs → exec (.pollTick m) s = .next b) ∧
    (∀ u : State, u.pages.pass ≠ none → wakePages u = { u with pages := { u.pages with lookAgain := true } }) ∧
    (∀ (u : State) (table : Nat × Nat), u.pages.pass = none → u.pages.current = none → u.recordWaits = true →
      u.pages.fault = false → u.pages.table = some table →
      wakePages u = { u with
        pages := { u.pages with pass := some 0 },
        port := u.port.request (readTransfer .descriptor .descriptorRead
          (table.1 + 64 * (u.pages.nextExamine % table.2)) 64) }) ∧
    (∀ u : State, u.pages.pass = none → u.pages.current = none → u.recordWaits = true →
      u.pages.fault = true ∨ u.pages.table = none → u.waitsOnPages = false →
      (u.pages.wait = true → wakePages u = u) ∧
      (u.pages.wait = false → wakePages u = raise .pageWait { u with pages := { u.pages with wait := true } })) ∧
    (∀ u : State, u.pages.pass = none → u.pages.current ≠ none ∨ u.recordWaits = false → wakePages u = u)

/-- ABORT at a job that is not a SCAN in SCANNING. A SPIN, TURN, PROFILE, REPORT or MARK job that waits ends FAILED
ABORTED, at once or behind its seal; the turntable of a TURN decelerates, reads and writes of the job still waiting are
withdrawn (for a PROFILE source read the model's choice, log 70), a MARK's record stays queued, and the mirror goes on as
it was (R10, R19, R87, R155, R159). A SCAN before SCANNING decelerates and ends ABORTED, at once or behind its seal, and
one that waits on that seal ends at once until the seal has begun (R112 to R116; log 31); one in ENDING discards its
queued records and ends (R85, R105), in the photo wait later (log 53), and once its seal has begun only notes the abort
(R124, R126). A PHOTO job follows its photograph: in ARMED it decelerates and goes to its end, an exposure runs on, rows
are stopped (R142, R143). A job that waits on its seal ends at once until the seal has begun, and with it after that (R87,
R143, R160, R179; log 32). Details the spec does not state are open (log 15, 34). Once a write-back is lost the ABORT is
passed to the job all the same, and where the job ends the reader halts and no result is written (R183). -/
def Obligations.AbortEndsWaitingJob : Prop :=
  ∀ (m : Moment) (s b : State) (job : Job), b = observe m s → s.job = some job →
    (∀ j, job = .scan j → j.phase ≠ .scanning) →
    ∃ u, exec (.abort m) s = .next (advancePages u) ∧ JobAborted job b u

/-- A failure that stops a scan in SCANNING: ABORT, the fall of the Emission Permit indication, and the loss of lock of
a LOCKED mirror, by its index watchdog or at an index that ends a revolution outside the loss band. The job has its
failure cause and one stop request; with no line open it leaves SCANNING in this event; the firing of an open line ends
and the line is marked, and it drains, or closes in this event where none of its shots is in flight; a line that drains
already is marked (R4, R20, R30, R36, R42, R69, R70, R118, R120, R122 to R126). An ABORT reaches an inline photograph
too (R123, R145). That the permit falls first, so that the line of a permit lost ends with cause PERMIT and the stop
request finds its firing ended, is read from the spec by inference (log 45), and so is that the mark is set before the
end report is taken (log 44). After it the index reaches the Page Manager while the scan still runs (R1, R94). ABORT in
the other phases is AbortEndsWaitingJob's. -/
def Obligations.FailureStopsScanLine : Prop :=
  ∀ (m : Moment) (s b : State) (j : ScanJob) (ending : EndCause), b = observe m s → s.job = some (.scan j) →
    j.phase = .scanning → ending = (if s.sched.permit = true ∧ s.sched.firing = .firing then .permit else .stop) →
    (∃ v u, exec (.abort m) s = .next (advancePages u) ∧ InlineAborted b v ∧
      ScanStops .aborted .abort .stop { j with abortTaken := true } v u) ∧
    (s.emission.asserted = true →
      ∃ u, exec (.emitPermitDeasserted m) s = .next (advancePages u) ∧
        ScanStops .emissionOff .emission ending j { b with emission := ⟨false, false, none⟩ } u) ∧
    (∀ f, s.mirror.state = .locked → s.mirror.watchdogFrom = some f → 2 * (100 * fineSec) ≤ (b.now - f) * s.mirror.target →
      ∃ u, exec (.indexWatchdogExpiry m) s = .next (advancePages u) ∧
        ScanStops .mirrorLost .mirror ending j
          { b with mirror := { s.mirror with
              state := .unlocked, lockCount := 0, watchdogFrom := none, spinUpEnd := some (b.now + 30 * fineSec) } } u) ∧
    (∀ f, s.mirror.state = .locked → s.mirror.lastIndex = some f → outsideLossBand s.mirror.target (b.now - f) = true →
      ∃ u, exec (.mirrorIndexMark m) s = .next (advancePages (if u.scanJob.isSome = true then wakePages u else u)) ∧
        ScanStops .mirrorLost .mirror ending j { b with angle := 0, mirror := markMirror b.now s.mirror } u)

/-! ## The mirror -/

/-- An index mark sets the angle to 0, its time is held, the rate watch runs one second from it, and with an index time
held before it the revolution is measured: 6,400,000,000,000 divided by its length, to the nearest hundredth of a rev/s,
at most 65,535 (R1, R2). With no drive on, the state stays (R2, R6). Outside a scan an index that changes no mirror
state moves nothing but the mirror and what the Page Manager does last. -/
def Obligations.IndexMarkMeasuresRate : Prop :=
  ∀ (m : Moment) (s b : State), b = observe m s → ∃ t, exec (.mirrorIndexMark m) s = .next t ∧
    t.angle = 0 ∧ t.mirror.lastIndex = some b.now ∧ t.mirror.rateWatchEnd = b.now + fineSec ∧
    t.mirror.target = s.mirror.target ∧
    (s.mirror.lastIndex = none → t.mirror.rate = s.mirror.rate ∧ t.mirror.state = s.mirror.state ∧
      t.mirror.lockCount = s.mirror.lockCount) ∧
    (∀ f, s.mirror.lastIndex = some f → f < b.now →
      ∃ r, 2 * (r * (b.now - f)) ≤ 2 * 6400000000000 + (b.now - f) ∧
        2 * 6400000000000 ≤ 2 * (r * (b.now - f)) + (b.now - f) ∧ t.mirror.rate = min 65535 r) ∧
    (s.mirror.state = .parked ∨ s.mirror.state = .spinningDown ∨ s.mirror.state = .fault →
      t.mirror.state = s.mirror.state ∧ t.mirror.lockCount = s.mirror.lockCount ∧
      t.mirror.spinUpEnd = s.mirror.spinUpEnd ∧ t.mirror.watchdogFrom = s.mirror.watchdogFrom) ∧
    (s.scanJob = none → t.mirror.state = s.mirror.state → OnlyIn (fields ([.angle, .mirror] ++ pageSide)) b t)

/-- In SPINNING-UP and UNLOCKED a revolution within 0.5 % of the target counts toward lock, the sixteenth in a row locks
the mirror and stops the spin-up limit, and one out of band starts the count again (R3). A SPIN job that waits is then
DONE (R10; its detail is open, log 15), and a scan in HOLD sends the head to its run-in point (R112, R113), or, where
the head is HELD there already, is in RUN-IN at once and takes this same index there, since Sweep Control takes an index
first (R1, R12, R114; that the scan is told LOCKED and then takes the index is log 49, the entry distance of an odd step,
rounded down, log 55). -/
def Obligations.SixteenRevolutionsLock : Prop :=
  ∀ (m : Moment) (s b : State) (f : Nat), b = observe m s → s.mirror.state = .spinningUp ∨ s.mirror.state = .unlocked →
    s.mirror.lastIndex = some f →
    ∃ u, (exec (.mirrorIndexMark m) s = .next (advancePages u) ∨
          exec (.mirrorIndexMark m) s = .next (advancePages (wakePages u))) ∧
      (inLockBand s.mirror.target (b.now - f) = false →
        u.mirror.lockCount = 0 ∧ u.mirror.state = s.mirror.state ∧ u.mirror.spinUpEnd = s.mirror.spinUpEnd) ∧
      (inLockBand s.mirror.target (b.now - f) = true → s.mirror.lockCount + 1 < 16 →
        u.mirror.lockCount = s.mirror.lockCount + 1 ∧ u.mirror.state = s.mirror.state ∧
        u.mirror.spinUpEnd = s.mirror.spinUpEnd) ∧
      (inLockBand s.mirror.target (b.now - f) = true → 16 ≤ s.mirror.lockCount + 1 →
        u.mirror.lockCount = 16 ∧ u.mirror.state = .locked ∧ u.mirror.spinUpEnd = none ∧
        u.mirror.watchdogFrom = some b.now ∧
        (PermitSound s → s.job = some .spinWait → s.reader.writeBackLost = false →
          ∃ detail, Finishes .spin ⟨.none, detail, []⟩ s.seals s.staging.nextSeq u) ∧
        (∀ j, PermitSound s → s.job = some (.scan j) → j.phase = .hold → j.endWait = .none →
          (¬ HeldAt (runInPointOf j.params) b →
            u.turntable.state = .slewing ∧ u.turntable.target = some (runInPointOf j.params) ∧
            u.turntable.slewEnd = some (b.now + 60 * fineSec) ∧
            u.job = some (.scan { j with phase := .position, runInPoint := runInPointOf j.params })) ∧
          (∀ k, HeldAt (runInPointOf j.params) b →
            k = { j with
              phase := .runIn, runInPoint := runInPointOf j.params,
              indexCount := (16384 + j.params.step - 1) / j.params.step,
              runInDelay := runInDelayOf j.params.step s.mirror.target, entryDistance := (32768 - j.params.step) / 2,
              runInStage := .index } →
            (leadOf j.params.step ≠ 0 →
              u.job = some (.scan { k with runInStage := .delay (b.now + k.runInDelay) }) ∧ AnsweredAtOnce b u) ∧
            (leadOf j.params.step = 0 → TrackIssued b k u)))) ∧
      (inLockBand s.mirror.target (b.now - f) = true ↔
        200 * ((6400000000000 : Int) - (s.mirror.target * (b.now - f) : Nat)).natAbs ≤ s.mirror.target * (b.now - f))

/-- A LOCKED mirror loses lock at a revolution more than 2 % off the target, or when two nominal periods pass without an
index; the permit falls with it, and in either case a scan in POSITION or RUN-IN fails MIRROR-LOST (R4, R7, R22, R113,
R114, R116; in the event of an index the Page Manager takes the index too, R1); a scan in SCANNING is
FailureStopsScanLine's. A revolution inside the band starts the watchdog afresh, and a watchdog that is not due does
nothing (log 3). -/
def Obligations.LossOfLock : Prop :=
  ∀ (m : Moment) (s b : State) (f : Nat), b = observe m s → PermitSound s → s.mirror.state = .locked →
    (s.mirror.lastIndex = some f →
      ∃ t, exec (.mirrorIndexMark m) s = .next t ∧
        (outsideLossBand s.mirror.target (b.now - f) = true →
          t.mirror.state = .unlocked ∧ t.mirror.lockCount = 0 ∧ t.mirror.watchdogFrom = none ∧
          t.mirror.spinUpEnd = some (b.now + 30 * fineSec) ∧ t.sched.permit = false) ∧
        (outsideLossBand s.mirror.target (b.now - f) = false →
          t.mirror.state = .locked ∧ t.mirror.watchdogFrom = some b.now ∧ t.mirror.lockCount = s.mirror.lockCount) ∧
        (outsideLossBand s.mirror.target (b.now - f) = true ↔
          s.mirror.target * (b.now - f) <
            50 * ((6400000000000 : Int) - (s.mirror.target * (b.now - f) : Nat)).natAbs) ∧
        (∀ j, outsideLossBand s.mirror.target (b.now - f) = true → s.job = some (.scan j) →
          j.phase = .position ∨ j.phase = .runIn → j.endWait = .none →
          ∃ u, t = advancePages (if s.seals then wakePages u else u) ∧ ScanFailedEarly .mirrorLost j b u)) ∧
    (s.mirror.watchdogFrom = some f → 2 * 6400000000000 ≤ (b.now - f) * s.mirror.target →
      ∃ u, exec (.indexWatchdogExpiry m) s = .next (advancePages u) ∧
        u.mirror = { s.mirror with
          state := .unlocked, lockCount := 0, watchdogFrom := none, spinUpEnd := some (b.now + 30 * fineSec) } ∧
        u.sched.permit = false ∧
        (∀ j, s.job = some (.scan j) → j.phase = .position ∨ j.phase = .runIn → j.endWait = .none →
          ScanFailedEarly .mirrorLost j b u)) ∧
    (s.mirror.watchdogFrom = some f → (b.now - f) * s.mirror.target < 2 * 6400000000000 →
      exec (.indexWatchdogExpiry m) s = .next b)

/-- The rate watch and the spin-up limit. One second without an index: the measured rate is 0, the index time is
forgotten, and a mirror SPINNING-DOWN is PARKED with target 0 (R2, R6; that the watch then runs on is the model's, log
19). Thirty seconds without lock in SPINNING-UP or UNLOCKED: the mirror is in FAULT with its drive off, FAULT is raised,
a SPIN job that waits ends FAILED SPIN-FAIL with the measured rate (R5, R10), and a scan in HOLD fails SPIN-FAIL (R7,
R112, R116). Not due, or stopped, neither does anything (log 3). -/
def Obligations.MirrorTimers : Prop :=
  ∀ (m : Moment) (s b : State), b = observe m s →
    (s.mirror.rateWatchEnd ≤ b.now →
      exec (.rateWatchExpiry m) s = .next { b with mirror := { s.mirror with
        lastIndex := none, rate := 0, rateWatchEnd := b.now + fineSec,
        state := (if s.mirror.state = .spinningDown then .parked else s.mirror.state),
        target := (if s.mirror.state = .spinningDown then 0 else s.mirror.target) } }) ∧
    (b.now < s.mirror.rateWatchEnd → exec (.rateWatchExpiry m) s = .next b) ∧
    (∀ e, s.mirror.state = .spinningUp ∨ s.mirror.state = .unlocked → s.mirror.spinUpEnd = some e → e ≤ b.now →
      ∃ u, exec (.spinUpLimitExpiry m) s = .next (advancePages u) ∧
        u.mirror = { s.mirror with state := .fault, lockCount := 0, spinUpEnd := none } ∧
        u.mirror.state.driveOn = false ∧ u.notices.pending &&& 32 = 32 ∧
        (PermitSound s → s.reader.writeBackLost = false →
          u.notices.pending = s.notices.pending ||| 32 ∧
          (s.job = some .spinWait →
            Finishes .spin ⟨.spinFail, s.mirror.rate, []⟩ s.seals s.staging.nextSeq u) ∧
          (∀ j, s.job = some (.scan j) → j.phase = .hold → j.endWait = .none → ScanFailedEarly .spinFail j b u))) ∧
    ((s.mirror.state ≠ .spinningUp ∧ s.mirror.state ≠ .unlocked) ∨ s.mirror.spinUpEnd = none ∨
        (∃ e, s.mirror.spinUpEnd = some e ∧ b.now < e) →
      exec (.spinUpLimitExpiry m) s = .next b)

/-! ## Jobs -/

/-- A SPIN job at its dispatch: a rate outside 500 to 20,000 is BAD-PARAM 1 and the mirror is not touched; a rate in range
is applied by mirror state (R9), and the job is DONE, or waits for lock (R10; the detail of DONE is open, log 15). -/
def Obligations.SpinTaken : Prop :=
  ∀ (m : Moment) (s d : State) (x : Transfer) (rest : List Outstanding) (rate : Nat),
    AwaitsDispatch m.transfer s .spin x rest → d = dispatched m x rest s → rate = spinRate s.reader.block →
    (rate < 500 ∨ 20000 < rate →
      ∃ u, exec (.spin m) s = .next (advancePages u) ∧ HandsBack ⟨.badParam, 1, []⟩ u ∧
        OnlyIn (fields [.job, .reader, .port]) d u) ∧
    (500 ≤ rate → rate ≤ 20000 →
      ∃ u detail, exec (.spin m) s = .next (advancePages u) ∧
        (s.mirror.state = .parked ∨ s.mirror.state = .spinningDown ∨ s.mirror.state = .fault →
          u.mirror = { s.mirror with
            state := .spinningUp, target := rate, lockCount := 0, spinUpEnd := some (d.now + 30 * fineSec) }) ∧
        (s.mirror.state = .spinningUp ∨ s.mirror.state = .unlocked →
          u.mirror = { s.mirror with target := rate, lockCount := 0 }) ∧
        (s.mirror.state = .locked → rate = s.mirror.target → u.mirror = s.mirror) ∧
        (s.mirror.state = .locked → rate ≠ s.mirror.target →
          u.mirror = { s.mirror with
            state := .unlocked, target := rate, lockCount := 0, watchdogFrom := none,
            spinUpEnd := some (d.now + 30 * fineSec) }) ∧
        (spinWaits s.reader.block = false ∨ (s.mirror.state = .locked ∧ rate = s.mirror.target) →
          Finishes .spin ⟨.none, detail, []⟩ s.seals s.staging.nextSeq u) ∧
        (spinWaits s.reader.block = true → s.mirror.state ≠ .locked ∨ rate ≠ s.mirror.target →
          u.job = some .spinWait ∧ u.reader = d.reader) ∧
        OnlyIn (fields [.mirror, .job, .reader, .port, .pages, .freeCount]) d u)

/-- A PARK job at its dispatch: the mirror moves by its state, and the job is DONE at once or behind its seal (R11). Its
detail is open (log 15). -/
def Obligations.ParkTaken : Prop :=
  ∀ (m : Moment) (s d : State) (x : Transfer) (rest : List Outstanding),
    AwaitsDispatch m.transfer s .park x rest → d = dispatched m x rest s →
    ∃ u detail, exec (.park m) s = .next (advancePages u) ∧
      (s.mirror.state = .parked ∨ s.mirror.state = .spinningDown → u.mirror = s.mirror) ∧
      (s.mirror.state = .spinningUp ∨ s.mirror.state = .locked ∨ s.mirror.state = .unlocked →
        u.mirror = { s.mirror with state := .spinningDown, lockCount := 0, spinUpEnd := none, watchdogFrom := none } ∧
        u.mirror.state.driveOn = false) ∧
      (s.mirror.state = .fault → u.mirror = { s.mirror with state := .parked, target := 0 }) ∧
      Finishes .park ⟨.none, detail, []⟩ s.seals s.staging.nextSeq u ∧
      OnlyIn (fields [.mirror, .job, .reader, .port, .pages, .freeCount]) d u

/-- A TURN job at its dispatch: its checks in order, and then a move request with the slot's settle time, answered at once
where the turntable is HELD there already (R12, R19; the details of NO-PROFILE and DONE are open, log 15). -/
def Obligations.TurnTaken : Prop :=
  ∀ (m : Moment) (s d : State) (x : Transfer) (rest : List Outstanding) (az slot : Nat),
    AwaitsDispatch m.transfer s .turn x rest → d = dispatched m x rest s → az = turnAzimuth s.reader.block →
    slot = turnSlot s.reader.block →
    (4194303 < az →
      ∃ u, exec (.turn m) s = .next (advancePages u) ∧ HandsBack ⟨.badParam, 1, []⟩ u ∧
        OnlyIn (fields [.job, .reader, .port]) d u) ∧
    (az ≤ 4194303 → 3 < slot →
      ∃ u, exec (.turn m) s = .next (advancePages u) ∧ HandsBack ⟨.badParam, 2, []⟩ u ∧
        OnlyIn (fields [.job, .reader, .port]) d u) ∧
    (az ≤ 4194303 → slot ≤ 3 → s.slots.get slot = none →
      ∃ u detail, exec (.turn m) s = .next (advancePages u) ∧ HandsBack ⟨.noProfile, detail, []⟩ u ∧
        OnlyIn (fields [.job, .reader, .port, .freeCount]) d u) ∧
    (∀ sl, az ≤ 4194303 → slot ≤ 3 → s.slots.get slot = some sl →
      (s.turntable.state = .held → s.turntable.target = some (BitVec.ofNat 22 az) →
        circleDistance m.azimuth (BitVec.ofNat 22 az) ≤ 64 →
        ∃ u detail, exec (.turn m) s = .next (advancePages u) ∧
          Finishes .turn ⟨.none, detail, []⟩ s.seals s.staging.nextSeq u ∧
          u.turntable = { s.turntable with requester := some (s.jobSerial + 1), answered := true } ∧
          OnlyIn (fields [.turntable, .job, .reader, .port, .pages, .freeCount]) d u) ∧
      (s.turntable.state ≠ .held ∨ s.turntable.target ≠ some (BitVec.ofNat 22 az) ∨
          64 < circleDistance m.azimuth (BitVec.ofNat 22 az) →
        exec (.turn m) s = .next (advancePages { d with
          job := some .turnWait,
          turntable := { s.turntable with
            state := .slewing, target := some (BitVec.ofNat 22 az), settleMs := sl.profile.settleMs, settleEnd := none,
            slewEnd := some (d.now + 60 * fineSec),
            errorCount := (if s.turntable.state = .fault then 0 else s.turntable.errorCount),
            requester := some (s.jobSerial + 1), answered := false } })))

/-- A MARK job at its dispatch: its record carries the block's tag and the line time and is offered in the reserve class;
admitted, behind the GAP that is due, the job waits for it, and not admitted, it counts as another record lost and the job
is DONE with detail 1 (R79, R82, R84, R87). -/
def Obligations.MarkTaken : Prop :=
  ∀ (m : Moment) (s d : State) (x : Transfer) (rest : List Outstanding) (record : Rec),
    AwaitsDispatch m.transfer s .mark x rest → d = dispatched m x rest s →
    record = .mark (blockTag s.reader.block) (d.now / 64000) →
    (s.loss = Loss.zero → s.occupancy + 24 ≤ 32768 →
      exec (.mark m) s = .next (advancePages { d with
        staging := ⟨s.staging.entries ++ [⟨s.staging.nextSeq, s.jobSerial + 1, record, false⟩], s.staging.nextSeq + 1⟩,
        markWait := some s.staging.nextSeq, job := some .markWait })) ∧
    (s.loss ≠ Loss.zero → s.occupancy + 24 + 32 ≤ 32768 →
      exec (.mark m) s = .next (advancePages { d with
        staging := ⟨s.staging.entries ++ [⟨s.staging.nextSeq, s.jobSerial + 1, .gap s.loss, false⟩] ++
          [⟨s.staging.nextSeq + 1, s.jobSerial + 1, record, false⟩], s.staging.nextSeq + 1 + 1⟩,
        loss := Loss.zero, markWait := some (s.staging.nextSeq + 1), job := some .markWait })) ∧
    (32768 < s.occupancy + 24 + (if s.loss = Loss.zero then 0 else 32) →
      ∃ u, exec (.mark m) s = .next (advancePages u) ∧ u.loss = s.loss.addOther ∧ u.staging = s.staging ∧
        Finishes .mark ⟨.none, 1, []⟩ s.seals s.staging.nextSeq u ∧
        OnlyIn (fields [.loss, .job, .reader, .port, .pages]) d u)

/-- A SETUP job at its dispatch: its four checks in order, of which the first fails for an address above 48 bits
whatever the count (R192); PAGE-OPEN while a page is current; and otherwise a fresh table, poll interval and attention
mode, with a pass in progress ended (R89, R102, R178), and ATTN as the change of mode asks (R191). That the ended pass's
read is withdrawn where it still waits for its grant is the model's choice (log 70), and the detail of PAGE-OPEN is open
(log 15). -/
def Obligations.SetupTaken : Prop :=
  ∀ (m : Moment) (s d : State) (x : Transfer) (rest : List Outstanding) (a c poll mode : Nat),
    AwaitsDispatch m.transfer s .setup x rest → d = dispatched m x rest s → a = setupAddress s.reader.block →
    c = setupCount s.reader.block → poll = setupPoll s.reader.block → mode = setupMode s.reader.block →
    (∀ n, (n = 1 ∧ (a % 64 ≠ 0 ∨ 2 ^ 48 ≤ a ∨ 2 ^ 48 < a + 64 * c)) ∨
        (n = 2 ∧ a % 64 = 0 ∧ a < 2 ^ 48 ∧ a + 64 * c ≤ 2 ^ 48 ∧ (c < 4 ∨ 256 < c)) ∨
        (n = 3 ∧ a % 64 = 0 ∧ a < 2 ^ 48 ∧ a + 64 * c ≤ 2 ^ 48 ∧ 4 ≤ c ∧ c ≤ 256 ∧ 1000 < poll) ∨
        (n = 4 ∧ a % 64 = 0 ∧ a < 2 ^ 48 ∧ a + 64 * c ≤ 2 ^ 48 ∧ 4 ≤ c ∧ c ≤ 256 ∧ poll ≤ 1000 ∧ 1 < mode) →
      ∃ u, exec (.setup m) s = .next (advancePages u) ∧ HandsBack ⟨.badParam, n, []⟩ u ∧
        OnlyIn (fields [.job, .reader, .port]) d u) ∧
    (a % 64 = 0 → a < 2 ^ 48 → a + 64 * c ≤ 2 ^ 48 → 4 ≤ c → c ≤ 256 → poll ≤ 1000 → mode ≤ 1 →
      (s.pages.current ≠ none →
        ∃ u detail, exec (.setup m) s = .next (advancePages u) ∧
          Finishes .setup ⟨.pageOpen, detail, []⟩ s.seals s.staging.nextSeq u ∧ u.reader.pollMs = s.reader.pollMs ∧
          OnlyIn (fields [.job, .reader, .port, .pages, .freeCount]) d u) ∧
      (s.pages.current = none →
        ∃ u, exec (.setup m) s = .next (advancePages u) ∧
          Finishes .setup ⟨.none, 0, []⟩ s.seals s.staging.nextSeq u ∧
          u.pages.table = some (a, c) ∧ u.pages.nextExamine = 0 ∧ u.pages.sequence = 0 ∧ u.pages.current = none ∧
          u.pages.pass = none ∧ u.pages.wait = false ∧ u.pages.fault = false ∧ u.pages.bad = false ∧
          u.pages.line = s.pages.line ∧ u.pages.discarding = s.pages.discarding ∧
          u.reader.pollMs = poll ∧ u.reader.pollFrom = d.now ∧
          (∀ y ∈ u.port.control, y.purpose ≠ .descriptorRead) ∧
          u.notices.mode = (if mode = 0 then .level else .pulse) ∧ u.notices.pending = s.notices.pending ∧
          u.notices.mask = s.notices.mask ∧
          (u.notices.mode = s.notices.mode → u.notices = s.notices) ∧
          (s.notices.mode = .level → mode = 1 →
            u.notices.attn = decide (unmasked s.notices ≠ 0) ∧
            u.notices.pulseEnd = if unmasked s.notices ≠ 0 then some (d.now + 64000) else none) ∧
          (s.notices.mode = .pulse → mode = 0 →
            u.notices.attn = decide (unmasked s.notices ≠ 0) ∧ u.notices.pulseEnd = none) ∧
          OnlyIn (fields [.job, .reader, .port, .pages, .notices]) d u))

/-- A PROFILE job: its two checks and the read of 192 bytes at its dispatch (R152); when the bytes have come, the checks
of R153 in order, and the slot replaced whole, valid, with its in-flight bound and its offset at the initial one, or
left as it was (R154). The fields of the image, which of the checks is the first to fail, and the in-flight bound are
said at the front (R108, R148, R153, R197). -/
def Obligations.ProfileLoaded : Prop :=
  (∀ (y : List Byte) (p : Profile), p = profileOf y →
    p.base = field y 0x00 4 ∧ p.window = field y 0x04 4 ∧ p.blanking = field y 0x08 4 ∧ p.refInterval = field y 0x0C 4 ∧
    p.refConstant = field y 0x10 4 ∧ p.factor = field y 0x18 4 ∧ p.gate = field y 0x1C 2 ∧
    p.switchCount = field y 0x1E 1 ∧ p.blindStart = field y 0x20 4 ∧ p.blindStop = field y 0x24 4 ∧
    p.settleMs = field y 0x28 2 ∧ p.cameraOffset = field y 0x2C 4 ∧
    (field y 0x14 4 : Int) = p.zeroOffset % 2 ^ 32 ∧ -2 ^ 31 ≤ p.zeroOffset ∧ p.zeroOffset < 2 ^ 31 ∧
    p.jitter.length = 16 ∧ (∀ i, i < 16 → p.jitter[i]? = some (field y (0x30 + 2 * i) 2)) ∧
    p.correction.length = 32 ∧
    (∀ i, i < 32 → ∃ c, p.correction[i]? = some c ∧ (field y (0x50 + 2 * i) 2 : Int) = c % 2 ^ 16 ∧ -2 ^ 15 ≤ c ∧
      c < 2 ^ 15)) ∧
  (∀ (p : Profile) (n : Nat), firstFailure p.checks = some n ↔
    3 ≤ n ∧ n ≤ 18 ∧ ¬ profileItem p n ∧ ∀ k, 3 ≤ k → k < n → profileItem p k) ∧
  (∀ (p : Profile) (least : Nat), least ∈ p.jitter → (∀ x ∈ p.jitter, least ≤ x) → least ≤ 16383 →
    1 ≤ p.base + least →
    p.window + 128000 ≤ p.inFlightBound * (p.base + least) ∧
    p.inFlightBound * (p.base + least) < p.window + 128000 + (p.base + least)) ∧
  (∀ (m : Moment) (s d : State) (x : Transfer) (rest : List Outstanding) (slot src : Nat),
    AwaitsDispatch m.transfer s .profile x rest → d = dispatched m x rest s → slot = profileSlot s.reader.block →
    src = profileSource s.reader.block →
    (∀ n, (n = 1 ∧ 3 < slot) ∨ (n = 2 ∧ slot ≤ 3 ∧ (src % 64 ≠ 0 ∨ 2 ^ 48 < src + 192)) →
      ∃ u, exec (.profile m) s = .next (advancePages u) ∧ HandsBack ⟨.badParam, n, []⟩ u ∧
        OnlyIn (fields [.job, .reader, .port]) d u) ∧
    (slot ≤ 3 → src % 64 = 0 → src + 192 ≤ 2 ^ 48 →
      exec (.profile m) s = .next (advancePages { d with
        job := some (.profileRead slot src),
        port := d.port.request ⟨.chain, .profileRead, false, BitVec.ofNat 48 src, 192, [], [], true⟩ }))) ∧
  (∀ (m : Moment) (s r : State) (x : Transfer) (rest : List Outstanding) (data : List Byte) (slot src : Nat),
    s.job = some (.profileRead slot src) → s.reader.writeBackLost = false → x.requester = .chain →
    x.purpose = .profileRead → OldestAwaits m.transfer s x rest → r = reported m x rest s →
    ∃ u, exec (.profileReadComplete m data) s = .next (advancePages u) ∧ u.slots.buffer = data ∧
      (∀ n, firstFailure (profileOf data).checks = some n →
        Finishes .profile ⟨.badParam, n, []⟩ s.seals s.staging.nextSeq u ∧ ∀ i, u.slots.get i = s.slots.get i) ∧
      (firstFailure (profileOf data).checks = none →
        Finishes .profile ⟨.none, 0, []⟩ s.seals s.staging.nextSeq u ∧
        (∀ i, i ≠ slot → u.slots.get i = s.slots.get i) ∧
        (slot ≤ 3 → u.slots.get slot = some ⟨profileOf data, (profileOf data).inFlightBound, (profileOf data).zeroOffset⟩)
        ∧ (profileOf data).inFlightBound ≤ 32) ∧
      OnlyIn (fields [.slots, .job, .reader, .port, .pages]) r u)

/-- A REPORT job: a bad destination is BAD-PARAM 1; otherwise the snapshot of R158, sampled in this event, is written as
256 bytes (R157), each value at its place and every byte beside them 0 (R192, R199), and once they are in memory the job
is DONE with detail 0 (R159). -/
def Obligations.ReportWritten : Prop :=
  (∀ (m : Moment) (s d : State) (x : Transfer) (rest : List Outstanding) (dest : Nat),
    AwaitsDispatch m.transfer s .report x rest → d = dispatched m x rest s → dest = reportDest s.reader.block →
    (dest % 64 ≠ 0 ∨ 2 ^ 48 < dest + 256 →
      ∃ u, exec (.report m) s = .next (advancePages u) ∧ HandsBack ⟨.badParam, 1, []⟩ u ∧
        OnlyIn (fields [.job, .reader, .port]) d u) ∧
    (dest % 64 = 0 → dest + 256 ≤ 2 ^ 48 →
      exec (.report m) s = .next (advancePages { d with
        job := some .reportWrite,
        port := d.port.request ⟨.chain, .reportWrite, true, BitVec.ofNat 48 dest, 256, snapshotBytes d,
          List.replicate 256 true, true⟩ }) ∧
      (∀ y, y = snapshotBytes d →
        y.length = 256 ∧ field y 0x00 2 = 2401 ∧ field y 0x02 2 = 1 ∧ field y 0x04 4 = 0 ∧
        field y 0x08 8 = d.now / 64000 ∧ field y 0x10 1 = s.mirror.state.code ∧
        field y 0x11 1 = s.turntable.state.code ∧ field y 0x12 1 = (if s.emission.asserted then 1 else 0) ∧
        field y 0x13 1 = s.camera.presence.code ∧ field y 0x14 2 = s.mirror.target % 2 ^ 16 ∧
        field y 0x16 2 = s.mirror.rate % 2 ^ 16 ∧ field y 0x18 4 = m.azimuth.toNat ∧ field y 0x1C 4 = 0 ∧
        (∀ i, i < 4 →
          (s.slots.get i = none → field y (0x20 + 8 * i) 8 = 0) ∧
          (∀ x, s.slots.get i = some x →
            field y (0x20 + 8 * i) 1 = 1 ∧ field y (0x20 + 8 * i + 1) 1 = x.bound % 2 ^ 8 ∧
            field y (0x20 + 8 * i + 2) 2 = 0 ∧ (field y (0x20 + 8 * i + 4) 4 : Int) = x.offset % 2 ^ 32)) ∧
        field y 0x40 2 = (match s.pages.table with | none => 0 | some t => t.2 % 2 ^ 16) ∧
        field y 0x42 2 = s.pages.nextExamine % 2 ^ 16 ∧
        field y 0x44 1 = (if s.pages.wait then 1 else 0) + (if s.pages.fault then 2 else 0) ∧ field y 0x45 3 = 0 ∧
        field y 0x48 4 = s.pages.sequence % 2 ^ 32 ∧ field y 0x4C 4 = 0 ∧
        field y 0x50 8 = s.counters.shots % 2 ^ 64 ∧ field y 0x58 8 = s.counters.echoes % 2 ^ 64 ∧
        field y 0x60 8 = s.counters.strays % 2 ^ 64 ∧ field y 0x68 8 = s.counters.outside % 2 ^ 64 ∧
        y.drop 0x70 = List.replicate 144 0) ∧
      [Presence.wait, .absent, .check, .present].map (·.code) = [0, 1, 2, 3])) ∧
  (∀ (m : Moment) (s r : State) (x : Transfer) (rest : List Outstanding),
    s.job = some .reportWrite → s.reader.writeBackLost = false → x.requester = .chain → x.purpose = .reportWrite →
    x.write = true → OldestAwaits m.transfer s x rest → r = reported m x rest s →
    r.out = [.inMemory x] ∧
    ∃ u, exec (.reportWriteComplete m) s = .next (advancePages u) ∧
      Finishes .report ⟨.none, 0, []⟩ s.seals s.staging.nextSeq u ∧
      OnlyIn (fields [.job, .reader, .port, .pages]) r u)

/-- A SCAN job at its dispatch: the four checks of R109 in order, of which the first that fails ends the job with
nothing else moved; the first is the lowest failing item of the rule's list, the stations after item 9 (R108, R109).
Otherwise the scan starts (R25, R53, R66, R110): the values at take, its stations NOT-REACHED, and HOLD, or with the
mirror LOCKED at once the way to the run-in point, and from there, where the head is HELD there already, into RUN-IN
(R112 to R114; the entry distance of an odd step is rounded down, log 55, and the run-in values are 0 until they are
computed, log 68). -/
def Obligations.ScanTaken : Prop :=
  ∀ (m : Moment) (s d : State) (x : Transfer) (rest : List Outstanding) (p : ScanParams) (item : Nat → Prop),
    AwaitsDispatch m.transfer s .scan x rest → d = dispatched m x rest s → p = scanParams s.reader.block →
    item = scanItem p (s.slots.get p.slot) s.mirror.target →
    (∀ code n,
      (code = .badParam ∧ 1 ≤ n ∧ n ≤ 9 ∧ ¬ item n ∧ ∀ k, 1 ≤ k → k < n → item k) ∨
      (code = .badParam ∧ (∀ k, item k) ∧ 16 ≤ n ∧ (∃ st, p.stations[n - 16]? = some st ∧ ¬ st.inRange 2000) ∧
        ∀ i st, i < n - 16 → p.stations[i]? = some st → st.inRange 2000) ∨
      (code = .noProfile ∧ n = p.slot ∧ (∀ k, item k) ∧ (∀ st ∈ p.stations, st.inRange 2000) ∧
        s.slots.get p.slot = none) ∨
      (code = .emissionOff ∧ n = 0 ∧ (∀ k, item k) ∧ (∀ st ∈ p.stations, st.inRange 2000) ∧
        s.slots.get p.slot ≠ none ∧ s.emission.asserted = false) ∨
      (code = .notSpinning ∧ n = 0 ∧ (∀ k, item k) ∧ (∀ st ∈ p.stations, st.inRange 2000) ∧
        s.slots.get p.slot ≠ none ∧ s.emission.asserted = true ∧ s.mirror.state ≠ .spinningUp ∧
        s.mirror.state ≠ .locked ∧ s.mirror.state ≠ .unlocked) →
      ∃ u, exec (.scan m) s = .next (advancePages u) ∧ HandsBack ⟨code, n, []⟩ u ∧
        OnlyIn (fields [.job, .reader, .port]) d u) ∧
    (∀ sl, (∀ k, item k) → (∀ st ∈ p.stations, st.inRange 2000) → s.slots.get p.slot = some sl →
      s.emission.asserted = true →
      s.mirror.state = .spinningUp ∨ s.mirror.state = .locked ∨ s.mirror.state = .unlocked →
      ∃ u, exec (.scan m) s = .next (advancePages u) ∧
        u.sched = { s.sched with nextShot := 0, lastFire := none, jitterIndex := 0, firing := .noLine } ∧
        u.line = LineState.fresh ∧ u.tracker = ⟨p.startZone, none, 0, none⟩ ∧
        u.intake = { s.intake with pendingStrays := 0, jobStrays := 0 } ∧
        u.photo.stations = p.stations.map (fun st => ⟨st, .notReached⟩) ∧
        u.photo.inlineBase = some ⟨p.startAz, p.step, sl.profile.cameraOffset⟩ ∧
        (s.mirror.state ≠ .locked → u.job = some (.scan (newScan p)) ∧ u.turntable = s.turntable) ∧
        (s.mirror.state = .locked → ¬ HeldAt (runInPointOf p) d →
          u.job = some (.scan { newScan p with phase := .position, runInPoint := runInPointOf p }) ∧
          SentTo (runInPointOf p) sl.profile.settleMs d u) ∧
        (s.mirror.state = .locked → HeldAt (runInPointOf p) d →
          u.job = some (.scan { newScan p with
            phase := .runIn, runInPoint := runInPointOf p, indexCount := (16384 + p.step - 1) / p.step,
            runInDelay := runInDelayOf p.step s.mirror.target, entryDistance := (32768 - p.step) / 2,
            runInStage := .index }) ∧
          AnsweredAtOnce d u) ∧
        OnlyIn (fields [.sched, .line, .tracker, .intake, .photo, .job, .turntable]) d u)

/-- A PHOTO job at its dispatch: the three checks of R139 in order, and otherwise its stations NOT-REACHED, the photo
machine ARMED, and a move request for station 0 with the camera azimuth offset; where the head is HELD there already the
station is exposed at once (R12, R140). -/
def Obligations.PhotoTaken : Prop :=
  ∀ (m : Moment) (s d : State) (x : Transfer) (rest : List Outstanding) (slot count : Nat) (stations : List Station),
    AwaitsDispatch m.transfer s .photo x rest → d = dispatched m x rest s → slot = photoSlot s.reader.block →
    count = photoCount s.reader.block → stations = stationsOf s.reader.block count →
    (∀ code n,
      (code = .badParam ∧ n = 1 ∧ 3 < slot) ∨
      (code = .badParam ∧ n = 2 ∧ slot ≤ 3 ∧ (count = 0 ∨ 16 < count)) ∨
      (code = .badParam ∧ slot ≤ 3 ∧ 1 ≤ count ∧ count ≤ 16 ∧ firstBadStation 1000000 16 stations = some n) ∨
      (code = .noProfile ∧ n = slot ∧ slot ≤ 3 ∧ 1 ≤ count ∧ count ≤ 16 ∧
        firstBadStation 1000000 16 stations = none ∧ s.slots.get slot = none) ∨
      (code = .noCamera ∧ n = s.camera.presence.code ∧ slot ≤ 3 ∧ 1 ≤ count ∧ count ≤ 16 ∧
        firstBadStation 1000000 16 stations = none ∧ s.slots.get slot ≠ none ∧ s.photo.state ≠ .idle) →
      ∃ u, exec (.photo m) s = .next (advancePages u) ∧ HandsBack ⟨code, n, []⟩ u ∧
        OnlyIn (fields [.job, .reader, .port]) d u) ∧
    (∀ sl st target, slot ≤ 3 → 1 ≤ count → count ≤ 16 → firstBadStation 1000000 16 stations = none →
      s.slots.get slot = some sl → s.photo.state = .idle → s.camera.presence = .present → stations.head? = some st →
      target = BitVec.ofNat 22 (st.azimuth + sl.profile.cameraOffset) →
      ∃ u, exec (.photo m) s = .next (advancePages u) ∧
        u.job = some (.photo ⟨slot, 0, 0, none, false, false, false⟩) ∧
        u.photo.stations = stations.map (fun y => ⟨y, .notReached⟩) ∧ u.photo.inlineBase = none ∧
        u.photo.rows = s.photo.rows ∧
        (¬ HeldAt target d →
          u.photo.state = .armed ∧ u.photo.current = s.photo.current ∧ u.out = d.out ∧
          SentTo target sl.profile.settleMs d u) ∧
        (HeldAt target d → StationExposed 0 st none d u ∧ AnsweredAtOnce d u) ∧
        OnlyIn (fields [.job, .photo, .turntable, .out]) d u)

/-- The completion of a TAKEN write dispatches the job of the block's kind (R174): TAKEN_WRITE_COMPLETE and the row of
that kind are one event (log 4), and a row of another kind finds nothing to dispatch (log 3). What a job reads in its
block stands at the offsets of R193 to R195. -/
def Obligations.TakenWriteDispatchesByKind : Prop :=
  (∀ y : List Byte,
    blockState y = field y 0x00 1 ∧ blockLink y = field y 0x08 8 ∧ blockKind y = field y 0x10 1 ∧
    blockNotify y = (field y 0x11 1).testBit 0 ∧ blockSeals y = (field y 0x11 1).testBit 1 ∧
    blockTag y = field y 0x14 4 ∧
    setupAddress y = field y 0x20 8 ∧ setupCount y = field y 0x28 2 ∧ setupMode y = field y 0x2A 1 ∧
    setupPoll y = field y 0x2C 2 ∧ spinRate y = field y 0x20 2 ∧ spinWaits y = (field y 0x22 1).testBit 0 ∧
    turnAzimuth y = field y 0x20 4 ∧ turnSlot y = field y 0x24 1 ∧ profileSlot y = field y 0x20 1 ∧
    profileSource y = field y 0x28 8 ∧ reportDest y = field y 0x20 8 ∧ photoSlot y = field y 0x20 1 ∧
    photoCount y = field y 0x21 1 ∧
    scanParams y = ⟨field y 0x20 1, field y 0x21 1, field y 0x22 1, (field y 0x23 1).testBit 0,
      stationsOf y (field y 0x24 1), field y 0x24 1, field y 0x28 4, field y 0x2C 4, field y 0x30 4, field y 0x38 4,
      field y 0x3C 4⟩ ∧
    (∀ n, n ≤ 16 → (stationsOf y n).length = n ∧
      ∀ i, i < n → (stationsOf y n)[i]? = some ⟨field y (0x80 + 24 * i) 8, field y (0x88 + 24 * i) 4,
        field y (0x8C + 24 * i) 4, field y (0x90 + 24 * i) 4, field y (0x94 + 24 * i) 1⟩)) ∧
  [0, 1, 2, 3, 4, 5, 6, 7, 8, 9, 10].map JobKind.ofCode = [none, some .setup, some .spin, some .park, some .turn,
    some .profile, some .report, some .scan, some .photo, some .mark, none] ∧
  (∀ (m : Moment) (s : State) (k : JobKind), s.blockJob = some k →
    exec (.takenWriteComplete m) s = exec (jobCommand k m) s ∧
    ∀ k', k' ≠ k → exec (jobCommand k' m) s = .next (observe m s)) ∧
  (∀ (m : Moment) (s d : State) (k : JobKind) (x : Transfer) (rest : List Outstanding),
    AwaitsDispatch m.transfer s k x rest → d = dispatched m x rest s →
    exec (.takenWriteComplete m) s = .next (advancePages (takeJob d k)) ∧
    d.reader.activity = .job ∧ d.jobSerial = s.jobSerial + 1)

/-! ## The turntable -/

/-- The hold band, 64 counts either way of the target: entered in SLEWING it starts the settle time (R12, R13); left in
SETTLING it goes back to SLEWING under the same limit, and left in HELD to SLEWING with 60 s afresh (R13, R14). In
DECELERATING the head is STOPPED, its drive off, once its azimuth has changed by no more than 16 counts over 10 ms (R18;
that the commands' samples say so, and that the watch runs in every state, is the model's choice, log 59). A settled
turntable is HELD, its limit stopped, and the job whose move it was is answered once (log 51); at the slew limit it is
in FAULT with its drive off and its target gone, FAULT is raised, and the job whose request is in force fails
TURNTABLE-FAULT (R13, R14, R17, R19, R113, R116, R140, R141; the entry distance of an odd step is rounded down, log 55).
In other states, and not due, these events move nothing (log 3). The turntable drive: in SLEWING toward the target by
the shorter way, clockwise where both are equal, at no more than 349,525 counts/s; holding it in SETTLING and HELD;
clockwise at the tracking rate; ramping down; off in STOPPED and FAULT (section 1.3, R13 to R15, R18). -/
def Obligations.TurntableMoves : Prop :=
  (∀ (m : Moment) (s b : State) (a : Angle), b = observe m s → s.turntable.target = some a →
     (circleDistance m.azimuth a ≤ 64 →
       (s.turntable.state = .slewing →
         exec (.holdBandEntry m) s = .next { b with turntable := { s.turntable with
           state := .settling, settleEnd := some (b.now + s.turntable.settleMs * fineMs) } }) ∧
       exec (.holdBandExit m) s = .next b) ∧
     (64 < circleDistance m.azimuth a →
       (s.turntable.state = .settling →
         exec (.holdBandExit m) s =
           .next { b with turntable := { s.turntable with state := .slewing, settleEnd := none } }) ∧
       (s.turntable.state = .held →
         exec (.holdBandExit m) s =
           .next { b with turntable := { s.turntable with
             state := .slewing, slewEnd := some (b.now + 60 * fineSec) } }) ∧
       exec (.holdBandEntry m) s = .next b)) ∧
  (∀ (m : Moment) (s b : State), b = observe m s →
     (circleDistance m.azimuth s.rest.azimuth ≤ 16 → b.rest = s.rest) ∧
     (16 < circleDistance m.azimuth s.rest.azimuth → b.rest = ⟨b.now, m.azimuth⟩) ∧
     (s.turntable.state = .decelerating → b.rest.since + 10 * fineMs ≤ b.now →
       ∃ t, exec (.turntableAtRest m) s = .next t ∧
         t = { b with turntable := { s.turntable with state := .stopped } } ∧ t.headDrive = .off) ∧
     (s.turntable.state ≠ .decelerating ∨ b.now < b.rest.since + 10 * fineMs →
       exec (.turntableAtRest m) s = .next b)) ∧
  (∀ (m : Moment) (s b : State) (e : Nat), b = observe m s → e ≤ b.now → s.reader.writeBackLost = false →
     (s.turntable.state = .settling → s.turntable.settleEnd = some e →
       ∃ u, exec (.settleTimerExpiry m) s = .next (advancePages u) ∧
         u.turntable.state = .held ∧ u.turntable.target = s.turntable.target ∧ u.turntable.settleEnd = none ∧
         u.turntable.slewEnd = none ∧
         (s.turntable.requester ≠ some s.jobSerial ∨ s.turntable.answered = true →
           OnlyIn (fields [.turntable]) b u) ∧
         (s.turntable.requester = some s.jobSerial → s.turntable.answered = false →
           (s.job = some .turnWait → ∃ detail, Finishes .turn ⟨.none, detail, []⟩ s.seals s.staging.nextSeq u) ∧
           (∀ j, s.job = some (.scan j) → j.phase = .position → j.endWait = .none →
             u.job = some (.scan { j with
               phase := .runIn, indexCount := (16384 + j.params.step - 1) / j.params.step,
               runInDelay := runInDelayOf j.params.step s.mirror.target, entryDistance := (32768 - j.params.step) / 2,
               runInStage := .index })) ∧
           (∀ p st, s.job = some (.photo p) → s.photo.state = .armed → s.photo.stations[p.index]? = some st →
             u.photo.state = .exposing ∧ u.out = [.expose (modeOf st.station.mode) st.station.exposure] ∧
             ∃ q, u.photo.current = some q ∧ q.station = p.index ∧ q.trigger = b.now ∧ q.tag = s.tag ∧
               q.midEnd = some (b.now + st.station.exposure * 64000 / 2) ∧
               q.exposureEnd = some (b.now + st.station.exposure * 64000) ∧ q.rowsTaken = 0 ∧ q.rowsStored = 0))) ∧
     (s.turntable.state = .slewing ∨ s.turntable.state = .settling → s.turntable.slewEnd = some e →
       ∃ u, exec (.slewLimitExpiry m) s = .next (advancePages u) ∧
         u.turntable.state = .fault ∧ u.turntable.target = none ∧ u.turntable.settleEnd = none ∧
         u.turntable.slewEnd = none ∧ u.headDrive = .off ∧
         u.notices.pending = s.notices.pending ||| 32 ∧
         (s.turntable.requester ≠ some s.jobSerial → OnlyIn (fields [.turntable, .notices]) b u) ∧
         (s.turntable.requester = some s.jobSerial →
           (s.job = some .turnWait →
             Finishes .turn ⟨.turntableFault, m.azimuth.toNat, []⟩ s.seals s.staging.nextSeq u) ∧
           (∀ j, s.job = some (.scan j) → j.phase = .position → j.endWait = .none →
             (s.seals = true →
               u.job = some (.scan { j with cause := some .turntableFault, endWait := .mark }) ∧
               u.pages.mark = some ⟨s.staging.nextSeq, .abort, false⟩) ∧
             (s.seals = false →
               HandsBack (scanResult { j with cause := some .turntableFault } m.azimuth s.photo.stations) u)) ∧
           (∀ a, s.job = some (.photo a) → a.sealWait = false → a.lateCause = false → s.photo.state = .armed →
             (s.seals = true →
               u.job = some (.photo { a with cause := firstCause a.cause .turntableFault, sealWait := true }) ∧
               u.pages.mark = some ⟨s.staging.nextSeq, .abort, false⟩) ∧
             (s.seals = false →
               HandsBack (photoResult { a with cause := firstCause a.cause .turntableFault } a.index
                 s.photo.stations) u))))) ∧
  (∀ (m : Moment) (s b : State), b = observe m s →
     (s.turntable.state ≠ .slewing → exec (.holdBandEntry m) s = .next b) ∧
     (s.turntable.state ≠ .settling → s.turntable.state ≠ .held → exec (.holdBandExit m) s = .next b) ∧
     (s.turntable.state ≠ .settling ∨ s.turntable.settleEnd = none ∨
         (∃ e, s.turntable.settleEnd = some e ∧ b.now < e) → exec (.settleTimerExpiry m) s = .next b) ∧
     ((s.turntable.state ≠ .slewing ∧ s.turntable.state ≠ .settling) ∨ s.turntable.slewEnd = none ∨
         (∃ e, s.turntable.slewEnd = some e ∧ b.now < e) → exec (.slewLimitExpiry m) s = .next b)) ∧
  (∀ u : State,
     (∀ a, u.turntable.state = .slewing → u.turntable.target = some a →
       u.headDrive = .slew (decide ((a - u.azimuth).toNat ≤ (u.azimuth - a).toNat)) 349525) ∧
     (∀ a, u.turntable.state = .settling ∨ u.turntable.state = .held → u.turntable.target = some a →
       u.headDrive = .hold a) ∧
     (u.turntable.state = .tracking → u.headDrive = .track u.turntable.trackRate) ∧
     (u.turntable.state = .decelerating → u.headDrive = .rampDown) ∧
     (u.turntable.state = .stopped ∨ u.turntable.state = .fault → u.headDrive = .off))

/-! ## Emission Permit and sector -/

/-- The Emission Permit indication: deasserted at once with the input; asserted only once the input has been asserted for
50 ms without a break (R20). Outside a scan nothing else moves but the permit's recomputation (R22). An assertion repeated
changes nothing (log 47), and a count that is stopped or not due does nothing (log 3). -/
def Obligations.EmitPermitIndication : Prop :=
  ∀ (m : Moment) (s b : State), b = observe m s →
    (∃ t, exec (.emitPermitDeasserted m) s = .next t ∧ t.emission = ⟨false, false, none⟩ ∧
      (s.emission.asserted = false → OnlyIn (fields [.emission]) b t) ∧
      (s.emission.asserted = true → s.scanJob = none → s.sched.permit = false →
        t = advancePages { b with emission := ⟨false, false, none⟩ })) ∧
    (s.emission.input = false →
      exec (.emitPermitAsserted m) s =
        .next { b with emission := { s.emission with input := true, countEnd := some (b.now + 50 * fineMs) } }) ∧
    (s.emission.input = true → exec (.emitPermitAsserted m) s = .next b) ∧
    (∀ e, s.emission.input = true → s.emission.countEnd = some e → e ≤ b.now →
      ∃ t, exec (.emitPermitCountExpiry m) s = .next t ∧ t.emission = ⟨true, true, none⟩ ∧
        (s.scanJob = none → s.sched.permit = false → OnlyIn (fields [.emission]) b t)) ∧
    (∀ e, s.emission.input = false ∨ s.emission.countEnd = none ∨ (s.emission.countEnd = some e ∧ b.now < e) →
      exec (.emitPermitCountExpiry m) s = .next b)

/-- The mirror angle reaches the sector start in WAITING with every other condition of the permit true: the permit
rises, the line is FIRING, and its first shot is scheduled for now, or, with a shot fired before in the job, no earlier
than the base interval and its own jitter entry after that one (R21, R22, R28). With another condition false the angle
is in the sector and no permit rises (R21, R22); at another angle, or with no sector, nothing happens (the model's
choice, log 3). -/
def Obligations.SectorEntryRaisesPermit : Prop :=
  ∀ (m : Moment) (s b : State), b = observe m s →
    (∀ stop sl, s.sector.bounds = some (b.angle, stop) → s.sched.firing = .waiting → s.scanSlot = some sl →
      s.mirror.state = .locked → s.emission.asserted = true → s.scanning = true →
      exec (.sectorEntry m) s = .next { b with
        sector := ⟨some (b.angle, stop), true⟩,
        sched := { s.sched with
          permit := true, firing := .firing,
          scheduled := some (match s.sched.lastFire with
            | none => b.now
            | some f => max b.now (f + (sl.profile.base + sl.profile.jitter.getD (s.sched.nextShot % 16) 0))) } }) ∧
    (∀ stop, s.sector.bounds = some (b.angle, stop) → s.sched.permit = false →
      s.sched.firing = .noLine ∨ s.sched.firing = .ended ∨ s.mirror.state ≠ .locked ∨ s.emission.asserted = false ∨
        s.scanning = false →
      exec (.sectorEntry m) s = .next { b with sector := ⟨some (b.angle, stop), true⟩ }) ∧
    ((s.sector.bounds = none ∨ ∃ a stop, s.sector.bounds = some (a, stop) ∧ a ≠ b.angle) →
      exec (.sectorEntry m) s = .next b)

/-- The mirror angle reaches the sector stop: in WAITING and FIRING the line's firing ends with cause SECTOR-EXIT, the
shot still scheduled is not fired and takes no number, and the Record Builder has the counts (R30, R37); with shots in
flight the line drains (R70), and with none it closes at once: its trailer is queued, behind the GAP that is due, if
there is room, the job takes the line's values and writes its progress back (R70 to R73, R82, R84, R118), and SCANNING
goes on, or, with the last line closed or a failure cause held, is left for ENDING in this event, its drain beginning
unless an inline photograph is in hand (R122, R124 to R126). The summary is the first of R72's order. An exit at another
angle does nothing (log 3). -/
def Obligations.SectorExitEndsFiring : Prop :=
  ∀ (m : Moment) (s b : State) (start : Angle) (n : Nat), b = observe m s → s.sector.bounds = some (start, b.angle) →
    s.line.phase = .assembling → s.line.number = some n → s.sched.firing = .waiting ∨ s.sched.firing = .firing →
    (s.lineHasShots n = true →
      exec (.sectorExit m) s = .next (advancePages { b with
        sector := ⟨some (start, b.angle), false⟩,
        sched := { s.sched with firing := .ended, scheduled := none, shotWaits := false, permit := false },
        line := { s.line with
          phase := .draining,
          report := some ⟨n, s.sched.lineShots, s.sched.lineTargets, s.sched.lineFirst, s.sched.lineLast,
            .sectorExit⟩ } })) ∧
    (∀ j e w, s.lineHasShots n = false → s.job = some (.scan j) → j.phase = .scanning →
      e = ⟨n, s.sched.lineShots, s.sched.lineTargets, s.sched.lineFirst, s.sched.lineLast, .sectorExit⟩ →
      w = { b with
        sector := ⟨some (start, b.angle), false⟩,
        sched := { s.sched with firing := .ended, scheduled := none, shotWaits := false, permit := false },
        line := { s.line with phase := .draining, report := some e } } →
      ∃ v u, exec (.sectorExit m) s = .next (advancePages u) ∧ LineCloses n e j w v ∧
        ScanGoesOn (afterClose n j w) v u) ∧
    (∀ (x : LineMarks) (g : DetailFlags),
      (x.aborted = true → summaryOf x g = .aborted) ∧
      (x.aborted = false → x.mirrorLost = true → summaryOf x g = .mirrorLost) ∧
      (x.aborted = false → x.mirrorLost = false → x.emissionOff = true → summaryOf x g = .emissionOff) ∧
      (x.aborted = false → x.mirrorLost = false → x.emissionOff = false → x.turntable = true →
        summaryOf x g = .turntable) ∧
      (x = .clear → g.loss = true → summaryOf x g = .loss) ∧
      (x = .clear → g.loss = false → g ≠ .clear → summaryOf x g = .flawed) ∧
      (x = .clear → g = .clear → summaryOf x g = .ok)) ∧
    (∀ a x, s.sector.bounds = some (a, x) → x ≠ b.angle → exec (.sectorExit m) s = .next b)

/-! ## Shots and echoes -/

/-- A scheduled fire time that has come under the permit fires the shot with a place for it: LASER TRIG on the path of
the shot's kind, its entry at the tail of the open shot list with the angles sampled, the counts, and the next shot
scheduled after the base interval and its own jitter entry (R29, R31 to R34, R38). With the list full the shot waits
(R34). A FIRE_TIME taken later than the scheduled time still bears the scheduled one (the model's reading of R31, log
20); not due, or with no permit, nothing fires (log 3). -/
def Obligations.FireTimeFires : Prop :=
  ∀ (m : Moment) (s b : State), b = observe m s →
    (∀ (sl : Slot) (f n line : Nat) (kind : ShotKind), s.scanSlot = some sl → s.sched.scheduled = some f → f ≤ b.now →
      s.sched.permit = true → s.sched.firing = .firing → s.sched.shotWaits = false → n = s.sched.nextShot →
      s.line.number = some line →
      kind = (if sl.profile.refInterval ≠ 0 ∧ n % sl.profile.refInterval = 0 then .reference else .target) →
      (s.shots.length < 32 →
        exec (.fireTime m) s = .next { b with
          shots := s.shots ++ [{
            number := n, kind := kind, fire := f,
            expiry := f + (match kind with | .target => sl.profile.window + 128000 | .reference => 160000),
            angle := b.angle, azimuth := m.azimuth, line := line, echoes := [], overflow := false, zoneSwitch := false,
            attachZone := none }],
          sched := { s.sched with
            nextShot := n + 1, lastFire := some f, jitterIndex := (n + 1) % 16,
            scheduled := some (f + (sl.profile.base + sl.profile.jitter.getD ((n + 1) % 16) 0)),
            lineShots := satAdd 32 s.sched.lineShots 1,
            lineTargets := (match kind with
              | .target => satAdd 32 s.sched.lineTargets 1
              | .reference => s.sched.lineTargets),
            lineFirst := (match s.sched.lineFirst with | none => some n | some k => some k), lineLast := some n,
            path := kind },
          counters := { s.counters with shots := satAdd 64 s.counters.shots 1 },
          out := [.laserTrig kind] }) ∧
      (32 ≤ s.shots.length →
        exec (.fireTime m) s = .next { b with sched := { s.sched with shotWaits := true } })) ∧
    (s.sched.permit = false ∨ s.sched.firing ≠ .firing ∨ s.sched.scheduled = none ∨
        (∃ f, s.sched.scheduled = some f ∧ b.now < f) →
      exec (.fireTime m) s = .next b)

/-- Echo events that reach no line's matching: outside SCANNING they raise the device counter of events outside scans; one
stamped before the last is a stray by its channel; a TARGET event between lines is a stray before the next line (R46, R47,
R49, R62). That an event outside SCANNING leaves the last time stamp alone and is compared with nothing is the model's
reading (log 57), and that in SCANNING the stamp is not compared with the counter its choice (log 60). -/
def Obligations.UnmatchedEchoesAreCounted : Prop :=
  ∀ (m : Moment) (stamp : Word) (amp width : BitVec 16) (sat : Bool) (s b : State), b = observe m s →
    (∀ ch, s.scanning = false →
      exec (.echoEvent m ch stamp amp width sat) s =
        .next { b with counters := { s.counters with outside := satAdd 64 s.counters.outside 1 } }) ∧
    (∀ sl, s.scanning = true → s.scanSlot = some sl → stamp.toNat < s.intake.lastStamp →
      exec (.echoEvent m .reference stamp amp width sat) s = .next { b with
        intake := { s.intake with jobStrays := satAdd 32 s.intake.jobStrays 1 },
        counters := { s.counters with strays := satAdd 64 s.counters.strays 1 } } ∧
      (s.line.phase ≠ .none → exec (.echoEvent m .target stamp amp width sat) s = .next { b with
        intake := { s.intake with
          strays := satAdd 32 s.intake.strays 1, jobStrays := satAdd 32 s.intake.jobStrays 1 },
        counters := { s.counters with strays := satAdd 64 s.counters.strays 1 } })) ∧
    (∀ sl, s.scanning = true → s.scanSlot = some sl → s.line.phase = .none →
      (stamp.toNat < s.intake.lastStamp ∨
        ∀ o ∈ s.shots, ¬ (o.fire ≤ stamp.toNat ∧ stamp.toNat < o.fire + sl.profile.blanking)) →
      exec (.echoEvent m .target stamp amp width sat) s = .next { b with
        intake := { s.intake with
          lastStamp := max s.intake.lastStamp stamp.toNat,
          pendingStrays := satAdd 32 s.intake.pendingStrays 1, jobStrays := satAdd 32 s.intake.jobStrays 1 },
        counters := { s.counters with strays := satAdd 64 s.counters.strays 1 } })

/-- A TARGET event whose stamp lies in the blanking interval of any open shot, TARGET or REFERENCE, is counted in the open
line's blanked count and is not matched; the tracker stays as it was, even where the event would be a candidate echo of an
older shot (R48). -/
def Obligations.BlankedEchoIsCounted : Prop :=
  ∀ (m : Moment) (stamp : Word) (amp width : BitVec 16) (sat : Bool) (s b : State) (sl : Slot) (o : OpenShot),
    b = observe m s → s.scanning = true → s.scanSlot = some sl → s.intake.lastStamp ≤ stamp.toNat → o ∈ s.shots →
    o.fire ≤ stamp.toNat → stamp.toNat < o.fire + sl.profile.blanking →
    exec (.echoEvent m .target stamp amp width sat) s = .next { b with
      intake := { s.intake with lastStamp := stamp.toNat, blanked := satAdd 32 s.intake.blanked 1 } }

/-- A REFERENCE event is attached, uncertain clear, to the open reference shot whose 500 ns window contains its stamp,
both ends included, if that shot holds no echo; otherwise it is a reference stray, which raises the job's stray total
and the device counter and no line's count. It is not blanked and does not move the tracker (R47). -/
def Obligations.ReferenceEchoAttaches : Prop :=
  ∀ (m : Moment) (stamp : Word) (amp width : BitVec 16) (sat : Bool) (s b : State) (sl : Slot),
    b = observe m s → s.scanning = true → s.scanSlot = some sl → s.intake.lastStamp ≤ stamp.toNat →
    (∀ (before after : List OpenShot) (o : OpenShot), s.shots = before ++ o :: after → o.kind = .reference →
      o.fire ≤ stamp.toNat → stamp.toNat ≤ o.fire + 32000 → (∀ x ∈ before ++ after, x.number ≠ o.number) →
      (∀ x ∈ before, x.kind = .reference → stamp.toNat < x.fire ∨ x.fire + 32000 < stamp.toNat) →
      (o.echoes = [] →
        exec (.echoEvent m .reference stamp amp width sat) s = .next { b with
          intake := { s.intake with lastStamp := stamp.toNat },
          shots := before ++ { o with echoes := [{
            stamp := stamp.toNat, amplitude := (if sat then 65535 else amp.toNat), width := width.toNat,
            saturated := sat, uncertain := false }] } :: after }) ∧
      (o.echoes ≠ [] →
        exec (.echoEvent m .reference stamp amp width sat) s = .next { b with
          intake := { s.intake with
            lastStamp := stamp.toNat, jobStrays := satAdd 32 s.intake.jobStrays 1 },
          counters := { s.counters with strays := satAdd 64 s.counters.strays 1 } })) ∧
    ((∀ x ∈ s.shots, x.kind = .reference → stamp.toNat < x.fire ∨ x.fire + 32000 < stamp.toNat) →
      exec (.echoEvent m .reference stamp amp width sat) s = .next { b with
        intake := { s.intake with
          lastStamp := stamp.toNat, jobStrays := satAdd 32 s.intake.jobStrays 1 },
        counters := { s.counters with strays := satAdd 64 s.counters.strays 1 } })

/-- A TARGET event that is not blanked, with a line open: its candidates are numbered into zones from the newest on
(R51); with none it is a stray of the line; and the tracker's choice among their ranges attaches it to a zone, or drops
it there at the echo limit, or makes it a stray (R52, R59). An event attached without the uncertain flag, as the job's
first or as its shot's first echo, sets the last range to the range of its zone, and every other leaves it (R58). -/
def Obligations.TargetEchoGoesWhereTheTrackerSays : Prop :=
  ∀ (m : Moment) (stamp : Word) (amp width : BitVec 16) (sat : Bool) (s b : State) (sl : Slot) (j : ScanJob)
    (cs : List OpenShot) (ranges : List Nat),
    b = observe m s → s.job = some (.scan j) → j.phase = .scanning → s.scanSlot = some sl →
    s.intake.lastStamp ≤ stamp.toNat → s.line.phase ≠ .none →
    (∀ o ∈ s.shots, ¬ (o.fire ≤ stamp.toNat ∧ stamp.toNat < o.fire + sl.profile.blanking)) →
    cs = (s.shots.filter (fun o => decide (o.kind = .target) && decide (o.fire + sl.profile.blanking ≤ stamp.toNat) &&
      decide (stamp.toNat ≤ o.fire + sl.profile.window))).reverse →
    ranges = cs.map (fun o => sl.range ((stamp.toNat : Int) - o.fire) (if sat then 65535 else amp.toNat)) →
    (cs = [] ∨ chooseZone sl.profile.gate sl.profile.switchCount ranges s.tracker = none →
      exec (.echoEvent m .target stamp amp width sat) s = .next { b with
        intake := { s.intake with
          lastStamp := stamp.toNat, strays := satAdd 32 s.intake.strays 1,
          jobStrays := satAdd 32 s.intake.jobStrays 1 },
        counters := { s.counters with strays := satAdd 64 s.counters.strays 1 } }) ∧
    (∀ c o r, cs ≠ [] → chooseZone sl.profile.gate sl.profile.switchCount ranges s.tracker = some c →
      cs[c.zone]? = some o → ranges[c.zone]? = some r →
      (o.echoes.length < j.params.echoLimit →
        exec (.echoEvent m .target stamp amp width sat) s = .next { b with
          intake := { s.intake with lastStamp := stamp.toNat, attached := satAdd 32 s.intake.attached 1 },
          counters := { s.counters with echoes := satAdd 64 s.counters.echoes 1 },
          tracker := { c.tracker with lastRange :=
            (if c.uncertain = false ∧ (c.tracker.lastRange = none ∨ o.echoes = []) then some r
             else c.tracker.lastRange) },
          shots := s.shots.map (fun x => if x.number = o.number then
            { x with
              zoneSwitch := x.zoneSwitch || c.switches,
              echoes := x.echoes ++ [{
                stamp := stamp.toNat, amplitude := (if sat then 65535 else amp.toNat), width := width.toNat,
                saturated := sat, uncertain := c.uncertain }],
              attachZone := (if x.echoes = [] then some c.zone else x.attachZone) } else x) }) ∧
      (j.params.echoLimit ≤ o.echoes.length →
        exec (.echoEvent m .target stamp amp width sat) s = .next { b with
          intake := { s.intake with lastStamp := stamp.toNat, dropped := satAdd 32 s.intake.dropped 1 },
          tracker := c.tracker,
          shots := s.shots.map (fun x => if x.number = o.number then
            { x with zoneSwitch := x.zoneSwitch || c.switches, overflow := true } else x) }))

/-- The zone tracker's choice by the cases of R54 to R57: the first echo of a job goes to the current zone, or to the
highest; the current zone is kept wherever it fits; else the nearest fitting zone is favoured and wins at the switch
count; and where none fits the current zone takes the echo as uncertain, or no zone does. -/
def Obligations.ZoneTrackerChooses : Prop :=
  ∀ (gate count : Nat) (ranges : List Nat) (x : Tracker), ranges ≠ [] →
    (x.lastRange = none →
      chooseZone gate count ranges x =
        some ⟨if x.zone < ranges.length then x.zone else ranges.length - 1, false, false, x⟩) ∧
    (∀ last, x.lastRange = some last →
      (∀ r : Nat, ranges[x.zone]? = some r → rangeGap r last ≤ gate →
        chooseZone gate count ranges x = some ⟨x.zone, false, false, { x with candidate := none, agree := 0 }⟩) ∧
      ((∀ r ∈ ranges, gate < rangeGap r last) →
        (x.zone < ranges.length → chooseZone gate count ranges x = some ⟨x.zone, true, false, x⟩) ∧
        (ranges.length ≤ x.zone → chooseZone gate count ranges x = none)) ∧
      (∀ k r n : Nat, (∀ r' : Nat, ranges[x.zone]? = some r' → gate < rangeGap r' last) → ranges[k]? = some r →
        rangeGap r last ≤ gate → (∀ (i r' : Nat), ranges[i]? = some r' → rangeGap r last ≤ rangeGap r' last) →
        (∀ (i r' : Nat), i < k → ranges[i]? = some r' → rangeGap r last < rangeGap r' last) →
        n = (if x.candidate = some k then x.agree + 1 else 1) →
        (count ≤ n → chooseZone gate count ranges x =
          some ⟨k, false, true, { x with zone := k, candidate := none, agree := 0 }⟩) ∧
        (n < count → x.zone < ranges.length →
          chooseZone gate count ranges x = some ⟨x.zone, true, false, { x with candidate := some k, agree := n }⟩) ∧
        (n < count → ranges.length ≤ x.zone →
          chooseZone gate count ranges x = some ⟨k, true, false, { x with candidate := some k, agree := n }⟩)))

/-- The expiry of a TARGET shot: the entry leaves the list, the order of the others unchanged (R42); its flags join the
line's (R71); and with an echo, or with keep-empties, its SHOT record is offered with the ranges at the offset that
stands, stored if there is room (behind the GAP that is due), and lost otherwise, unless the line is LOST (R68, R74,
R77, R78, R81, R84). After that the line closes if its last shot has gone, and SCANNING goes on or is left (R70, R118,
R122), and a waiting shot fires (R34). A range is the exact product of flight time less offset and factor, corrected and
rounded once, a half upward, and 0 where it would be negative (R52, R74, R149). A REFERENCE shot with no echo is a
reference miss of its line, and the eighth in a row is REFERENCE-LOST: the scan fails and stops its line (R76, R120). An
expiry not due, or of a number not in the list, does nothing (log 3). -/
def Obligations.ShotExpiryClosesShot : Prop :=
  (∀ (sl : Slot) (flight correction exact : Int) (amplitude : Nat),
    correction = sl.profile.correction.getD (amplitude / 2048) 0 →
    exact = (flight - sl.offset) * sl.profile.factor + 10000 * correction →
    (-5000 ≤ exact → 10000 * (sl.range flight amplitude : Int) ≤ exact + 5000 ∧
      exact + 5000 < 10000 * ((sl.range flight amplitude : Int) + 1)) ∧
    (exact < -5000 → sl.range flight amplitude = 0)) ∧
  (∀ (m : Moment) (s b : State) (j : ScanJob) (sl : Slot) (o : OpenShot) (before after : List OpenShot)
      (line : LineState) (r : ShotRec),
    b = observe m s → s.shots = before ++ o :: after → (∀ x ∈ before ++ after, x.number ≠ o.number) →
    o.expiry ≤ b.now → s.job = some (.scan j) → s.scanSlot = some sl → o.kind = .target →
    line = { s.line with flags := { s.line.flags with
      echoOverflow := s.line.flags.echoOverflow || o.overflow, zoneSwitch := s.line.flags.zoneSwitch || o.zoneSwitch,
      uncertain := s.line.flags.uncertain || o.echoes.any (fun e => e.uncertain) } } →
    r = ⟨o.number, o.attachZone, o.angle.toNat, o.azimuth.toNat, o.line, o.overflow, o.zoneSwitch,
      o.echoes.map (fun e => ⟨sl.range ((e.stamp : Int) - o.fire) e.amplitude, e.amplitude, e.width, e.saturated,
        e.uncertain⟩)⟩ →
    ((o.echoes = [] ∧ j.params.keepEmpties = false) ∨ s.line.lost = true →
      exec (.shotExpiry m o.number) s =
        .next (advancePages (placeFree (closeCheck { b with shots := before ++ after, line := line })))) ∧
    (o.echoes ≠ [] ∨ j.params.keepEmpties = true → s.line.lost = false →
      (s.line.truncated = false → s.loss = Loss.zero → s.occupancy + (32 + 16 * o.echoes.length) ≤ 32512 →
        exec (.shotExpiry m o.number) s = .next (advancePages (placeFree (closeCheck { b with
          shots := before ++ after, line := { line with stored := satAdd 32 s.line.stored 1 },
          staging := ⟨s.staging.entries ++ [⟨s.staging.nextSeq, s.jobSerial, .shot r, false⟩],
            s.staging.nextSeq + 1⟩ })))) ∧
      (s.line.truncated = false → s.loss ≠ Loss.zero → s.occupancy + (32 + 16 * o.echoes.length + 32) ≤ 32512 →
        exec (.shotExpiry m o.number) s = .next (advancePages (placeFree (closeCheck { b with
          shots := before ++ after, line := { line with stored := satAdd 32 s.line.stored 1 }, loss := Loss.zero,
          staging := ⟨s.staging.entries ++ [⟨s.staging.nextSeq, s.jobSerial, .gap s.loss, false⟩] ++
            [⟨s.staging.nextSeq + 1, s.jobSerial, .shot r, false⟩], s.staging.nextSeq + 1 + 1⟩ })))) ∧
      (s.line.truncated = true ∨
          32512 < s.occupancy + (32 + 16 * o.echoes.length + (if s.loss = Loss.zero then 0 else 32)) →
        exec (.shotExpiry m o.number) s = .next (advancePages (placeFree (closeCheck { b with
          shots := before ++ after,
          line := { line with
            truncated := true, flags := { line.flags with loss := true }, shotsLost := satAdd 32 s.line.shotsLost 1 },
          loss := { s.loss with shots := satAdd 32 s.loss.shots 1 } })))))) ∧
  (∀ (m : Moment) (s b : State) (j : ScanJob) (sl : Slot) (o : OpenShot) (before after : List OpenShot),
    b = observe m s → s.shots = before ++ o :: after → (∀ x ∈ before ++ after, x.number ≠ o.number) →
    o.expiry ≤ b.now → s.job = some (.scan j) → s.scanSlot = some sl → o.kind = .reference → o.echoes = [] →
    s.line.missRun < 7 →
    exec (.shotExpiry m o.number) s = .next (advancePages (placeFree (closeCheck { b with
      shots := before ++ after,
      line := { s.line with
        flags := { s.line.flags with refMissed := true }, refMisses := satAdd 32 s.line.refMisses 1,
        missRun := s.line.missRun + 1 } })))) ∧
  (∀ (m : Moment) (s b : State) (j : ScanJob) (sl : Slot) (o : OpenShot) (before after : List OpenShot)
      (line : LineState),
    b = observe m s → s.shots = before ++ o :: after → (∀ x ∈ before ++ after, x.number ≠ o.number) →
    o.expiry ≤ b.now → s.job = some (.scan j) → s.scanSlot = some sl → o.kind = .reference → o.echoes = [] →
    line = { s.line with
      flags := { s.line.flags with refMissed := true }, refMisses := satAdd 32 s.line.refMisses 1, missRun := 8 } →
    (8 ≤ s.line.missRun →
      exec (.shotExpiry m o.number) s =
        .next (advancePages (placeFree (closeCheck { b with shots := before ++ after, line := line })))) ∧
    (s.line.missRun = 7 →
      (j.phase = .scanning → ∃ u, exec (.shotExpiry m o.number) s = .next (advancePages (placeFree (closeCheck u))) ∧
        ScanStops .referenceLost .referenceLost .stop j { b with shots := before ++ after, line := line } u))) ∧
  (∀ (m : Moment) (s b : State) (k : Nat), b = observe m s → (∀ o ∈ s.shots, o.number = k → b.now < o.expiry) →
    exec (.shotExpiry m k) s = .next b) ∧
  (∀ (v : State), v.line.phase ≠ .draining ∨ v.line.number = none ∨ v.line.report = none ∨
      (∃ n, v.line.number = some n ∧ v.lineHasShots n = true) → closeCheck v = v) ∧
  (∀ (v : State) (n : Nat) (e : EndReport), v.line.phase = .draining → v.line.number = some n →
    v.line.report = some e → v.lineHasShots n = false → e.cause ≠ .permit ∨ v.line.stopTaken = true →
    closeCheck v = closeLine n e v ∧
    ∀ j, v.job = some (.scan j) → j.phase = .scanning →
      ∃ w, LineCloses n e j v w ∧ ScanGoesOn (afterClose n j v) w (closeCheck v)) ∧
  (∀ (v : State), v.sched.shotWaits = false ∨ v.sched.permit = false ∨ 32 ≤ v.shots.length → placeFree v = v) ∧
  (∀ (v : State), v.sched.shotWaits = true → v.sched.permit = true → v.sched.firing = .firing → v.shots.length < 32 →
    placeFree v = fireShot v.now v)

/-- A REFERENCE shot that closes with an echo moves the running zero offset of the scan's slot: three times the old offset
plus the offset seen (the echo's stamp less the fire time, less the reference path constant), divided by 4 and rounded
toward minus infinity; the run of reference misses is 0 again, and no record is made. The rule's two examples come out
(R75). -/
def Obligations.ReferenceShotMovesOffset : Prop :=
  (∀ (m : Moment) (s b : State) (j : ScanJob) (sl : Slot) (o : OpenShot) (e : Echo) (more : List Echo)
      (before after : List OpenShot) (q : Int),
    b = observe m s → s.shots = before ++ o :: after → (∀ x ∈ before ++ after, x.number ≠ o.number) →
    o.expiry ≤ b.now → s.job = some (.scan j) → s.scanSlot = some sl → o.kind = .reference → o.echoes = e :: more →
    4 * q ≤ 3 * sl.offset + ((e.stamp : Int) - o.fire - sl.profile.refConstant) →
    3 * sl.offset + ((e.stamp : Int) - o.fire - sl.profile.refConstant) < 4 * q + 4 →
    exec (.shotExpiry m o.number) s = .next (advancePages (placeFree (closeCheck { b with
      shots := before ++ after, slots := s.slots.set j.params.slot { sl with offset := q },
      line := { s.line with missRun := 0 } }))) ∧
    (s.slots.set j.params.slot { sl with offset := q }).get j.params.slot = some { sl with offset := q } ∧
    ∀ i, i ≠ j.params.slot → (s.slots.set j.params.slot { sl with offset := q }).get i = s.slots.get i) ∧
  newOffset 1000 (1180 - 172) = 1002 ∧ newOffset (-3) (-10) = -5

/-! ## The scan's phases -/

/-- An index taken in SCANNING with no stop request, no line open and lines to go opens the next line: number, marks,
counts and firing state afresh, the strays before it taken over (R67), the tracking check made while the turntable
tracks (R16, R17, R69), and the LINE HEADER offered in the point class, behind a GAP that is due; not admitted, the line
is LOST and counted (R68, R79, R84). The permit is then computed anew, the Photo Unit looks for stations crossed, and
the Page Manager is woken (R94). Of the stations crossed, whose distance from the start is at most the travel of this
line, the first is exposed with this line's number if the photo machine is IDLE, and every other is MISSED; a station
not crossed is left alone (R144). -/
def Obligations.IndexOpensLine : Prop :=
  (∀ (m : Moment) (s b : State) (j : ScanJob) (n : Nat) (err : Int) (h : HeaderRec),
    b = observe m s → s.job = some (.scan j) → j.phase = .scanning → j.stop = none → s.line.phase = .none →
    s.line.started < j.params.lines → n = s.line.started → (markMirror b.now s.mirror).state = s.mirror.state →
    err = circleError m.azimuth (BitVec.ofNat 22 (j.params.startAz + n * j.params.step)) →
    h = ⟨n, s.tag, m.azimuth.toNat, (markMirror b.now s.mirror).rate, s.tracker.zone, s.sched.nextShot,
      b.now / 64000⟩ →
    ∃ v, exec (.mirrorIndexMark m) s = .next (advancePages (wakePages (crossings n err (recomputePermit v)))) ∧
      v.angle = 0 ∧ v.mirror = markMirror b.now s.mirror ∧ v.line.phase = .assembling ∧ v.line.number = some n ∧
      v.line.started = n + 1 ∧ v.line.truncated = false ∧ v.line.stored = 0 ∧ v.line.shotsLost = 0 ∧
      v.line.refMisses = 0 ∧ v.line.report = none ∧ v.line.stopTaken = false ∧ v.line.missRun = s.line.missRun ∧
      v.sched = { s.sched with
        firing := .waiting, lineShots := 0, lineTargets := 0, lineFirst := none, lineLast := none } ∧
      v.intake = { s.intake with
        attached := 0, dropped := 0, blanked := 0, strays := 0, straysBefore := s.intake.pendingStrays,
        pendingStrays := 0 } ∧
      (s.turntable.state ≠ .tracking ∨ err.natAbs ≤ 600 →
        v.line.flags.azError = false ∧ v.line.marks = .clear ∧ v.job = s.job ∧ v.notices = s.notices ∧
        v.turntable = (if s.turntable.state = .tracking then { s.turntable with errorCount := 0 } else s.turntable)) ∧
      (s.turntable.state = .tracking → 600 < err.natAbs → s.turntable.errorCount + 1 < 3 →
        v.line.flags.azError = true ∧ v.line.marks = .clear ∧ v.job = s.job ∧ v.notices = s.notices ∧
        v.turntable = { s.turntable with errorCount := s.turntable.errorCount + 1 }) ∧
      (s.turntable.state = .tracking → 600 < err.natAbs → 3 ≤ s.turntable.errorCount + 1 →
        v.line.flags.azError = true ∧ v.line.marks = { LineMarks.clear with turntable := true } ∧
        v.turntable.state = .fault ∧ v.turntable.target = none ∧ v.notices.pending = s.notices.pending ||| 32 ∧
        (s.turntable.requester = some s.jobSerial →
          v.job = some (.scan { j with cause := (match j.cause with | none => some .turntableFault | some c => some c) })))
      ∧ (s.loss = Loss.zero → s.occupancy + 48 ≤ 32512 →
        v.line.lost = false ∧ v.line.flags.loss = false ∧ v.loss = Loss.zero ∧
        v.staging.entries = s.staging.entries ++ [⟨s.staging.nextSeq, s.jobSerial, .header h, false⟩]) ∧
      (s.loss ≠ Loss.zero → s.occupancy + 80 ≤ 32512 →
        v.line.lost = false ∧ v.line.flags.loss = false ∧ v.loss = Loss.zero ∧
        v.staging.entries = s.staging.entries ++ [⟨s.staging.nextSeq, s.jobSerial, .gap s.loss, false⟩] ++
          [⟨s.staging.nextSeq + 1, s.jobSerial, .header h, false⟩]) ∧
      (32512 < s.occupancy + (if s.loss = Loss.zero then 48 else 80) →
        v.line.lost = true ∧ v.line.flags.loss = true ∧ v.loss = s.loss.addLine n s.tag ∧ v.staging = s.staging) ∧
      OnlyIn (fields [.angle, .mirror, .line, .intake, .sched, .turntable, .job, .notices, .staging, .loss]) b v) ∧
  (∀ a b : Angle, (circleError a b - ((a.toNat : Int) - b.toNat)) % 4194304 = 0 ∧ (circleError a b).natAbs ≤ 2097152) ∧
  (∀ (v : State) (n : Nat) (err : Int), v.photo.inlineBase = none → crossings n err v = v) ∧
  (∀ (v w : State) (base : InlineBase) (n : Nat) (err travel : Int), v.photo.inlineBase = some base →
    travel = (n : Int) * base.step + err → w = crossings n err v →
    (∀ i, ¬ Crossed v base travel i → w.photo.stations[i]? = v.photo.stations[i]?) ∧
    (∀ i x, Crossed v base travel i → v.photo.stations[i]? = some x → v.photo.state = .idle →
      (∀ k, k < i → ¬ Crossed v base travel k) →
      w.photo.stations[i]? = some x ∧ StationExposed i x.station (some n) v w) ∧
    (∀ i x, Crossed v base travel i → v.photo.stations[i]? = some x →
      v.photo.state ≠ .idle ∨ (∃ k, k < i ∧ Crossed v base travel k) →
      w.photo.stations[i]? = some { x with status := .missed }) ∧
    (v.photo.state ≠ .idle ∨ (∀ i, ¬ Crossed v base travel i) →
      w.photo.state = v.photo.state ∧ w.photo.current = v.photo.current ∧ w.out = v.out) ∧
    w.photo.rows = v.photo.rows ∧ w.photo.inlineBase = v.photo.inlineBase ∧ OnlyIn (fields [.photo, .out]) v w)

/-- RUN-IN: the first index starts the run-in delay, or with no lead issues the track request; the delay's end issues it;
and once the head has travelled the entry distance, and less than half a revolution, the job is SCANNING with its sector
handed over, and is stopped with EMISSION-OFF, and passes on to ENDING, where the indication is deasserted then (R15, R21,
R114, R115, R122). A delay not due, and a
RUN_IN_COMPLETE before the entry distance, do nothing (the model's choice, log 3). -/
def Obligations.RunInLeadsToScanning : Prop :=
  ∀ (m : Moment) (s b : State) (j : ScanJob), b = observe m s → s.job = some (.scan j) → j.phase = .runIn →
    j.endWait = .none →
    ((markMirror b.now s.mirror).state = s.mirror.state → j.runInStage = .index →
      (leadOf j.params.step ≠ 0 →
        exec (.mirrorIndexMark m) s = .next (advancePages (wakePages { b with
          angle := 0, mirror := markMirror b.now s.mirror,
          job := some (.scan { j with runInStage := .delay (b.now + j.runInDelay) }) }))) ∧
      (leadOf j.params.step = 0 → s.turntable.state ≠ .fault →
        ∃ u, exec (.mirrorIndexMark m) s = .next (advancePages (wakePages u)) ∧ TrackIssued b j u ∧
          OnlyIn (fields [.angle, .mirror, .job, .turntable]) b u)) ∧
    (∀ till, j.runInStage = .delay till →
      (till ≤ b.now → s.turntable.state ≠ .fault →
        ∃ u, exec (.runInDelayExpiry m) s = .next (advancePages u) ∧ TrackIssued b j u ∧
          OnlyIn (fields [.job, .turntable]) b u) ∧
      (till ≤ b.now → s.turntable.state = .fault → s.seals = true →
        ∃ u, exec (.runInDelayExpiry m) s = .next (advancePages u) ∧
          u.job = some (.scan { j with cause := some .turntableFault, endWait := .mark }) ∧
          u.pages.mark = some ⟨s.staging.nextSeq, .abort, false⟩ ∧ OnlyIn (fields [.job, .pages]) b u) ∧
      (b.now < till → exec (.runInDelayExpiry m) s = .next b)) ∧
    (j.runInStage = .travel →
      (j.entryDistance ≤ (m.azimuth - j.runInPoint).toNat → (m.azimuth - j.runInPoint).toNat < 2097152 →
        ∃ u, u = { b with
            job := some (.scan { j with phase := .scanning }),
            sector := ⟨some (BitVec.ofNat 22 j.params.sectorStart, BitVec.ofNat 22 j.params.sectorStop), false⟩ } ∧
          (s.emission.asserted = true → exec (.runInComplete m) s = .next (advancePages u)) ∧
          (s.emission.asserted = false →
            ∃ x, exec (.runInComplete m) s = .next (advancePages x) ∧
              ScanStops .emissionOff .emission .stop { j with phase := .scanning } u x)) ∧
      ((m.azimuth - j.runInPoint).toNat < j.entryDistance ∨ 2097152 ≤ (m.azimuth - j.runInPoint).toNat →
        exec (.runInComplete m) s = .next b)) ∧
    (∀ step target, 1 ≤ step → 1 ≤ target →
      leadOf step = indexCountOf step * step - 16384 ∧ 16384 ≤ indexCountOf step * step ∧ leadOf step < step ∧
      2 * (runInDelayOf step target * (step * target)) ≤ 2 * (leadOf step * 6400000000000) + step * target ∧
      2 * (leadOf step * 6400000000000) ≤ 2 * (runInDelayOf step target * (step * target)) + step * target)

/-! ## Pages -/

/-- A descriptor read in a pass: FREE with a valid base and size, its page is taken, with the next sequence number, the
first line and shot of the record that waits first, and PAGE-WAIT clear; otherwise it is skipped, an invalid one with
bad-page set, and the next is read; and after the last of them pages are exhausted (R90 to R93): a scan that drains
after an ABORT is discarded, and any other job waits on (R124, R126); and where an index, a LOOK or a poll tick came
during the pass, pages are looked at again at once (R94), as LookAndPollWake says of a wake. The fields of a descriptor,
those of the take's field write, and the codes of the seal reasons are R196's; that the field write begins at 18h and
spans 32 bytes is the model's choice (log 71). -/
def Obligations.DescriptorReadTakesOrSkips : Prop :=
  (∀ d : List Byte,
    descState d = field d 0x00 1 ∧ descAutoSeal d = (field d 0x08 1).testBit 0 ∧
    descNotify d = (field d 0x08 1).testBit 1 ∧ descHighWater d = field d 0x0C 4 ∧ descBase d = field d 0x10 8 ∧
    descSize d = field d 0x18 4) ∧
  [none, some SealReason.full, some .highWater, some .cut, some .jobEnd, some .abort].map sealCode =
    [0, 1, 2, 3, 4, 5] ∧
  ∀ (m : Moment) (s r : State) (x : Transfer) (rest : List Outstanding) (d : List Byte) (k i : Nat) (table : Nat × Nat),
    OldestAwaits m.transfer s x rest → x.requester = .descriptor → x.purpose = .descriptorRead → r = reported m x rest s →
    s.pages.pass = some k → s.pages.table = some table → i = (s.pages.nextExamine + k) % table.2 →
    (descState d = 1 → descValid d = true →
      ∃ u w p, exec (.descriptorReadComplete m d) s = .next (advancePages u) ∧
        p = (Page.mk i (descAutoSeal d) (descNotify d) (descHighWater d) (descBase d) (descSize d)
          (if s.pages.sequence = 4294967295 then 1 else s.pages.sequence + 1) 0 0
          (s.firstUnissued.bind (fun e => e.record.line?)) (s.firstUnissued.bind (fun e => e.record.shot?))
          false false none .takeField) ∧
        u.pages = { s.pages with
          sequence := p.sequence, current := some p, nextExamine := (if i + 1 = table.2 then 0 else i + 1),
          wait := false, pass := none, lookAgain := false } ∧
        u.port = r.port.request w ∧ FieldWrite .takeField p 0 (table.1 + 64 * i) w ∧
        OnlyIn (fields [.pages, .port]) r u) ∧
    (descState d ≠ 1 ∨ descValid d = false → k + 1 < table.2 →
      exec (.descriptorReadComplete m d) s = .next (advancePages { r with
        pages := { s.pages with
          pass := some (k + 1), bad := s.pages.bad || decide (descState d = 1 ∨ 3 < descState d) },
        port := r.port.request (readTransfer .descriptor .descriptorRead
          (table.1 + 64 * ((s.pages.nextExamine + (k + 1)) % table.2)) 64) })) ∧
    (descState d ≠ 1 ∨ descValid d = false → table.2 ≤ k + 1 →
      ∃ v u, exec (.descriptorReadComplete m d) s =
          .next (advancePages (if s.pages.lookAgain = true then wakePages u else u)) ∧
        v.pages = { s.pages with
          pass := none, lookAgain := false, wait := true,
          bad := s.pages.bad || decide (descState d = 1 ∨ 3 < descState d) } ∧
        (s.pages.wait = false → v.notices.pending = s.notices.pending ||| 4) ∧
        (s.pages.wait = true → v.notices = s.notices) ∧ OnlyIn (fields [.pages, .notices]) r v ∧
        (∀ j, s.job = some (.scan j) → j.phase = .ending → j.endWait ≠ .none → j.abortTaken = true →
          ScanDiscarded j v u) ∧
        ((∀ j, s.job = some (.scan j) → j.phase = .ending → j.endWait ≠ .none → j.abortTaken = false) → u = v)) ∧
    (descValid d = true ↔ 65536 ≤ descSize d ∧ descSize d ≤ 16777216 ∧ descSize d % 4096 = 0 ∧ descBase d % 8 = 0 ∧
      descBase d + descSize d ≤ 2 ^ 48)

/-- The writes of a page's descriptor, each after the one before it: the take's fields, then its state OPEN alone, then
records may be issued (R91); the seal's fields, then its state SEALED alone, then no page is current, PAGE-SEALED is
raised if the page asks for it, and the job that waits on the seal, a short job, a SCAN or a PHOTO job, is told (R98,
R101, R126, R143; the detail of a PHOTO job's failure that came after its last station is open, log 34). -/
def Obligations.DescriptorWritesInOrder : Prop :=
  ∀ (m : Moment) (s r : State) (x : Transfer) (rest : List Outstanding) (p : Page),
    OldestAwaits m.transfer s x rest → x.requester = .descriptor → r = reported m x rest s → s.pages.current = some p →
    (x.purpose = .takeField →
      ∃ w, exec (.takeFieldWriteComplete m) s = .next (advancePages { r with
          pages := { s.pages with current := some { p with stage := .takeState } }, port := r.port.request w }) ∧
        w = ⟨.descriptor, .takeState, true, addrOf (descriptorAddr (s.pages.table.getD (0, 0)) p.index), 8,
          [2, 0, 0, 0, 0, 0, 0, 0], [true, false, false, false, false, false, false, false], true⟩) ∧
    (x.purpose = .takeState →
      exec (.takeStateWriteComplete m) s = .next (advancePages { r with
        pages := { s.pages with current := some { p with stage := .ready } } })) ∧
    (x.purpose = .sealField →
      ∃ w, exec (.sealFieldWriteComplete m) s = .next (advancePages { r with
          pages := { s.pages with current := some { p with stage := .sealState } }, port := r.port.request w }) ∧
        w = ⟨.descriptor, .sealState, true, addrOf (descriptorAddr (s.pages.table.getD (0, 0)) p.index), 8,
          [3, 0, 0, 0, 0, 0, 0, 0], [true, false, false, false, false, false, false, false], true⟩) ∧
    (x.purpose = .sealState →
      ∃ u, exec (.sealStateWriteComplete m) s = .next (advancePages u) ∧ u.pages.current = none ∧
        (p.notify = false → s.sealBegun = false →
          u = { r with pages := { s.pages with current := none } }) ∧
        (p.notify = true → s.sealBegun = false →
          u.notices.pending = s.notices.pending ||| 2 ∧ OnlyIn (fields [.pages, .notices]) r u) ∧
        (∀ kind res, s.sealBegun = true → s.job = some (.sealWait kind res) → s.reader.writeBackLost = false →
          HandsBack res u ∧ u.pages.mark = none) ∧
        (∀ j, s.sealBegun = true → s.job = some (.scan j) → j.endWait ≠ .none → s.reader.writeBackLost = false →
          HandsBack (scanResult j m.azimuth s.photo.stations) u ∧ u.pages.mark = none) ∧
        (∀ a, s.sealBegun = true → s.job = some (.photo a) → a.sealWait = true → s.reader.writeBackLost = false →
          (∃ detail, (a.lateCause = false → detail = a.index) ∧
            HandsBack (photoResult a detail s.photo.stations) u) ∧
          u.photo.stations = [] ∧ u.pages.mark = none))

/-- The completion of a record's write: the fill rises by its size, it leaves the head of the queue, the page's first line
and first shot are set if they are none, and it is reported onward by its kind (R80, R87, R95, R97, R119), a scan's counts
staying at their top (log 42). For the trailer of the running scan the job writes lines stored and last line stored back,
unless a write-back has been lost (R119, R174, R183, R195). The bytes of a record, as they come into the page, are said at
the front (R198). A continuation header, a transfer of its own (log 23), raises the fill, and the page then holds
a header of the line in progress. -/
def Obligations.RecordWriteCompletes : Prop :=
  (∀ (continued : Bool) (h : HeaderRec) (y : List Byte), y = headerBytes continued h →
    y.length = 48 ∧ field y 0x00 1 = 1 ∧ field y 0x01 1 = (if continued then 1 else 0) ∧ field y 0x02 2 = 48 ∧
    field y 0x04 4 = h.tag % 2 ^ 32 ∧ field y 0x08 4 = h.line % 2 ^ 32 ∧ field y 0x0C 4 = h.azimuth % 2 ^ 32 ∧
    field y 0x10 8 = h.firstShot % 2 ^ 64 ∧ field y 0x18 8 = h.lineTime % 2 ^ 64 ∧ field y 0x20 2 = h.rate % 2 ^ 16 ∧
    field y 0x22 1 = h.zone % 2 ^ 8 ∧ y.drop 0x23 = List.replicate 13 0) ∧
  (∀ (r : ShotRec) (y : List Byte), y = Rec.bytes (.shot r) →
    y.length = 32 + 16 * r.echoes.length ∧ field y 0x00 1 = 2 ∧
    field y 0x01 1 = (if r.overflow then 1 else 0) + (if r.zoneSwitch then 2 else 0) ∧
    field y 0x02 2 = (32 + 16 * r.echoes.length) % 2 ^ 16 ∧ field y 0x04 1 = r.echoes.length % 2 ^ 8 ∧
    field y 0x05 1 = (match r.zone with | none => 255 | some z => z % 2 ^ 8) ∧ field y 0x06 2 = 0 ∧
    field y 0x08 8 = r.number % 2 ^ 64 ∧ field y 0x10 4 = r.angle % 2 ^ 32 ∧ field y 0x14 4 = r.azimuth % 2 ^ 32 ∧
    field y 0x18 4 = r.line % 2 ^ 32 ∧ field y 0x1C 4 = 0 ∧
    ∀ i e, r.echoes[i]? = some e →
      field y (0x20 + 16 * i) 4 = e.range % 2 ^ 32 ∧ field y (0x24 + 16 * i) 2 = e.amplitude % 2 ^ 16 ∧
      field y (0x26 + 16 * i) 2 = e.width % 2 ^ 16 ∧
      field y (0x28 + 16 * i) 1 = (if e.saturated then 1 else 0) + (if e.uncertain then 2 else 0) ∧
      field y (0x29 + 16 * i) 7 = 0) ∧
  (∀ (r : TrailerRec) (y : List Byte), y = Rec.bytes (.trailer r) →
    y.length = 64 ∧ field y 0x00 1 = 3 ∧ field y 0x01 1 = r.summary.code ∧ field y 0x02 2 = 64 ∧
    field y 0x04 1 = r.flags.toByte ∧ field y 0x05 1 = r.zone % 2 ^ 8 ∧ field y 0x06 2 = 0 ∧
    field y 0x08 4 = r.line % 2 ^ 32 ∧ field y 0x0C 4 = r.shots % 2 ^ 32 ∧ field y 0x10 4 = r.targets % 2 ^ 32 ∧
    field y 0x14 4 = r.stored % 2 ^ 32 ∧ field y 0x18 4 = r.shotsLost % 2 ^ 32 ∧
    field y 0x1C 4 = r.attached % 2 ^ 32 ∧ field y 0x20 4 = r.dropped % 2 ^ 32 ∧ field y 0x24 4 = r.blanked % 2 ^ 32 ∧
    field y 0x28 4 = r.strays % 2 ^ 32 ∧ field y 0x2C 4 = r.straysBefore % 2 ^ 32 ∧
    field y 0x30 4 = r.refMisses % 2 ^ 32 ∧ y.drop 0x34 = List.replicate 12 0) ∧
  [Summary.ok, .flawed, .loss, .turntable, .emissionOff, .mirrorLost, .aborted].map (·.code) = [0, 1, 2, 3, 4, 5, 6] ∧
  (∀ (l : Loss) (y : List Byte), y = Rec.bytes (.gap l) →
    y.length = 32 ∧ field y 0x00 1 = 4 ∧ field y 0x01 1 = 0 ∧ field y 0x02 2 = 32 ∧
    field y 0x04 4 = (match l.first with | none => 4294967295 | some f => f.2 % 2 ^ 32) ∧
    field y 0x08 4 = (match l.first with | none => 4294967295 | some f => f.1 % 2 ^ 32) ∧
    field y 0x0C 4 = l.lines % 2 ^ 32 ∧ field y 0x10 4 = l.shots % 2 ^ 32 ∧ field y 0x14 4 = l.others % 2 ^ 32 ∧
    y.drop 0x18 = List.replicate 8 0) ∧
  (∀ (p : PhotoRec) (y : List Byte), y = Rec.bytes (.photo p) →
    y.length = 64 ∧ field y 0x00 1 = 5 ∧ field y 0x01 1 = p.status.code ∧ field y 0x02 2 = 64 ∧
    field y 0x04 4 = p.tag % 2 ^ 32 ∧ field y 0x08 1 = p.station % 2 ^ 8 ∧
    field y 0x09 1 = (match p.mode with | .full => 0 | .binned => 1) ∧ field y 0x0A 2 = 0 ∧
    field y 0x0C 4 = p.rowsStored % 2 ^ 32 ∧ field y 0x10 8 = p.buffer % 2 ^ 64 ∧ field y 0x18 8 = p.lineTime % 2 ^ 64 ∧
    field y 0x20 8 = (match p.shot with | none => 18446744073709551615 | some n => n % 2 ^ 64) ∧
    field y 0x28 4 = p.azimuth % 2 ^ 32 ∧
    field y 0x2C 4 = (match p.line with | none => 4294967295 | some n => n % 2 ^ 32) ∧
    y.drop 0x30 = List.replicate 16 0) ∧
  (∀ (tag time : Nat) (y : List Byte), y = Rec.bytes (.mark tag time) →
    y.length = 24 ∧ field y 0x00 1 = 6 ∧ field y 0x01 1 = 0 ∧ field y 0x02 2 = 24 ∧ field y 0x04 4 = tag % 2 ^ 32 ∧
    field y 0x08 8 = time % 2 ^ 64 ∧ y.drop 0x10 = List.replicate 8 0) ∧
  (∀ h, Rec.bytes (.header h) = headerBytes false h) ∧
  ∀ (m : Moment) (s r : State) (x : Transfer) (rest : List Outstanding) (e : Entry) (es : List Entry) (p q : Page),
    OldestAwaits m.transfer s x rest → x.requester = .record → r = reported m x rest s → s.pages.current = some p →
    p.stage ≠ .abandoned → s.staging.entries = e :: es →
    q = { p with
      fill := p.fill + x.len,
      firstLine := (match p.firstLine with | none => e.record.line? | some l => some l),
      firstShot := (match p.firstShot with | none => e.record.shot? | some n => some n) } →
    (x.purpose = .record →
      (∀ h, e.record = .header h →
        exec (.recordWriteComplete m) s = .next (advancePages { r with
          staging := { s.staging with entries := es },
          pages := { s.pages with current := some { q with holdsHeader := true }, line := some (e.job, h) } })) ∧
      (∀ y j, e.record = .shot y → s.job = some (.scan j) → e.job = s.jobSerial →
        exec (.recordWriteComplete m) s = .next (advancePages { r with
          staging := { s.staging with entries := es }, pages := { s.pages with current := some q },
          job := some (.scan { j with
            shotsStored := satAdd 64 j.shotsStored 1, echoesStored := satAdd 64 j.echoesStored y.echoes.length }) })) ∧
      (∀ y, e.record = .shot y → s.scanJob = none ∨ e.job ≠ s.jobSerial →
        exec (.recordWriteComplete m) s = .next (advancePages { r with
          staging := { s.staging with entries := es }, pages := { s.pages with current := some q } })) ∧
      (∀ t, e.record = .trailer t →
        ∃ u, exec (.recordWriteComplete m) s = .next (advancePages u) ∧ u.staging.entries = es ∧
          u.pages = { s.pages with
            current := some q,
            line := (if s.pages.line.map (fun y => (y.1, y.2.line)) = some (e.job, t.line) then none
              else s.pages.line) } ∧
          (∀ j, s.job = some (.scan j) → e.job = s.jobSerial →
            u.job = some (.scan { j with linesStored := j.linesStored + 1, lastStored := some t.line }) ∧
            WroteBack [(0x48, leBytes 4 (j.linesStored + 1)), (0x4C, leBytes 4 t.line)] r u) ∧
          (s.scanJob = none ∨ e.job ≠ s.jobSerial → u.job = s.job ∧ u.reader = s.reader ∧ u.port = r.port) ∧
          OnlyIn (fields [.staging, .pages, .job, .reader, .port]) r u) ∧
      (∀ tag time, e.record = .mark tag time →
        ∃ u, exec (.recordWriteComplete m) s = .next (advancePages u) ∧ u.staging.entries = es ∧
          (s.markWait = some e.seq → s.job = some .markWait → s.reader.writeBackLost = false →
            u.markWait = none ∧ Finishes .mark ⟨.none, 0, []⟩ s.seals s.staging.nextSeq u) ∧
          (s.markWait ≠ some e.seq ∨ s.job ≠ some .markWait →
            u = { r with
              staging := { s.staging with entries := es }, pages := { s.pages with current := some q } })) ∧
      (∀ l, e.record = .gap l →
        exec (.recordWriteComplete m) s = .next (advancePages { r with
          staging := { s.staging with entries := es }, pages := { s.pages with current := some q } })) ∧
      (∀ l, e.record = .photo l →
        exec (.recordWriteComplete m) s = .next (advancePages { r with
          staging := { s.staging with entries := es }, pages := { s.pages with current := some q } }))) ∧
    (x.purpose = .continuation →
      exec (.recordWriteComplete m) s = .next (advancePages { r with
        pages := { s.pages with current := some { p with
          fill := p.fill + x.len, contIssued := false, holdsHeader := true,
          firstLine := (match p.firstLine with
            | none => s.pages.line.map (fun y => y.2.line)
            | some l => some l) } } }))

/-! ## The chain -/

/-- An examination's two reads and a link read: a READY block of known kind is TAKEN by a write of its state alone, one
of unknown kind gets BAD-KIND with the kind read, an EMPTY one puts the reader in WAIT-READY, and any other halts it as
stale (R173); a link of 0 puts it in WAIT-LINK, a valid one moves the cursor and examines the block there, any other
halts (R176). Halt pending takes effect where the reader would begin a new step (R182), look-again where it would wait
(R177), and CHAIN-WAIT is raised only on entry from another state (R172). The model's own: with link 0 and with an
invalid link the cursor stays where it is, also where a RESUME finds it on another block than the finished one, on which
R176 leaves it (log 63); a valid link found in WAIT-LINK puts the reader in RUNNING while it examines the block, against
the example of section 10.8 (log 39). -/
def Obligations.ExaminationAndLinkReads : Prop :=
  ∀ (m : Moment) (s r : State) (x : Transfer) (rest : List Outstanding) (data : List Byte) (c : Nat),
    OldestAwaits m.transfer s x rest → x.requester = .chain → r = reported m x rest s → s.reader.cursor = some c →
    (∀ held, x.purpose = .examination 0 → s.reader.activity = .examining held →
      exec (.examinationReadComplete m data) s =
        .next (advancePages { r with reader := { s.reader with activity := .examining (some data) } })) ∧
    (∀ first blk, x.purpose = .examination 1 → s.reader.activity = .examining (some first) → blk = first ++ data →
      (blockState blk = 1 → 1 ≤ blockKind blk → blockKind blk ≤ 9 →
        exec (.examinationReadComplete m data) s = .next (advancePages { r with
          reader := { s.reader with
            block := blk, state := .running, taken := some c, lookAgain := false, activity := .taking },
          port := r.port.request ⟨.chain, .takenWrite, true, addrOf c, 8, [2, 0, 0, 0, 0, 0, 0, 0],
            [true, false, false, false, false, false, false, false], true⟩ })) ∧
      (blockState blk = 1 → blockKind blk = 0 ∨ 9 < blockKind blk → s.reader.writeBusy = false →
        s.reader.writeList = [] →
        ∃ w, exec (.examinationReadComplete m data) s = .next (advancePages { r with
            reader := { s.reader with
              block := blk, state := .running, lookAgain := false, activity := .result, writeBusy := true,
              result := some ⟨.badKind, blockKind blk, []⟩ },
            port := r.port.request w }) ∧
          w.purpose = .resultCode ∧ w.write = true ∧ w.addr = addrOf (c + 0x18) ∧ field w.data 0 2 = 12 ∧
          field w.data 4 4 = blockKind blk ∧ w.mask = [true, true, false, false, true, true, true, true]) ∧
      (blockState blk = 0 → s.reader.state = .running → s.reader.haltPending = true →
        ∃ u, exec (.examinationReadComplete m data) s = .next (advancePages u) ∧ u.reader.state = .halted ∧
          u.reader.haltCause = some .halt ∧ u.reader.haltPending = false ∧ u.reader.cursor = some c ∧
          u.notices.pending = s.notices.pending ||| 16 ∧ OnlyIn (fields [.reader, .port, .notices]) r u) ∧
      (blockState blk = 0 → s.reader.state = .waitReady → s.reader.lookAgain = true →
        exec (.examinationReadComplete m data) s = .next (advancePages { r with
          reader := { s.reader with block := blk, lookAgain := false, activity := .examining none },
          port := (r.port.request (readTransfer .chain (.examination 0) c 256)).request
            (readTransfer .chain (.examination 1) (c + 256) 256) })) ∧
      (blockState blk = 0 →
        (s.reader.state = .waitReady ∧ s.reader.lookAgain = false) ∨
          (s.reader.state ≠ .waitReady ∧ (s.reader.state ≠ .running ∨ s.reader.haltPending = false)) →
        ∃ u, exec (.examinationReadComplete m data) s = .next (advancePages u) ∧
          u.reader = { s.reader with block := blk, state := .waitReady, activity := .idle, lookAgain := false } ∧
          (s.reader.state = .waitReady → u.notices = s.notices) ∧
          (s.reader.state ≠ .waitReady → u.notices.pending = s.notices.pending ||| 8) ∧
          OnlyIn (fields [.reader, .notices]) r u) ∧
      (2 ≤ blockState blk →
        ∃ u, exec (.examinationReadComplete m data) s = .next (advancePages u) ∧ u.reader.state = .halted ∧
          u.reader.haltCause = some .staleBlock ∧ u.reader.cursor = some c ∧ u.reader.activity = .idle ∧
          u.notices.pending = s.notices.pending ||| 16 ∧ OnlyIn (fields [.reader, .port, .notices]) r u)) ∧
    (∀ link, x.purpose = .link → link = field data 0 8 →
      (link = 0 → s.reader.haltPending = true →
        ∃ u, exec (.linkReadComplete m data) s = .next (advancePages u) ∧ u.reader.state = .halted ∧
          u.reader.haltCause = some .halt ∧ u.reader.haltPending = false ∧ u.reader.cursor = some c ∧
          OnlyIn (fields [.reader, .port, .notices]) r u) ∧
      (link = 0 → s.reader.haltPending = false → s.reader.state ≠ .waitLink ∨ s.reader.lookAgain = false →
        ∃ u, exec (.linkReadComplete m data) s = .next (advancePages u) ∧
          u.reader = { s.reader with state := .waitLink, activity := .idle, lookAgain := false } ∧
          (s.reader.state = .waitLink → u.notices = s.notices) ∧
          (s.reader.state ≠ .waitLink → u.notices.pending = s.notices.pending ||| 8) ∧
          OnlyIn (fields [.reader, .notices]) r u) ∧
      (link = 0 → s.reader.haltPending = false → s.reader.state = .waitLink → s.reader.lookAgain = true →
        exec (.linkReadComplete m data) s = .next (advancePages { r with
          reader := { s.reader with lookAgain := false, activity := .link },
          port := r.port.request (readTransfer .chain .link (s.reader.lastFinished.getD 0 + 8) 8) })) ∧
      (link ≠ 0 → link % 64 = 0 → link ≤ 2 ^ 48 - 512 → s.reader.haltPending = false →
        exec (.linkReadComplete m data) s = .next (advancePages { r with
          reader := { s.reader with
            cursor := some link, lookAgain := false, state := .running, activity := .examining none },
          port := (r.port.request (readTransfer .chain (.examination 0) link 256)).request
            (readTransfer .chain (.examination 1) (link + 256) 256) })) ∧
      (link ≠ 0 → link % 64 = 0 → link ≤ 2 ^ 48 - 512 → s.reader.haltPending = true →
        ∃ u, exec (.linkReadComplete m data) s = .next (advancePages u) ∧ u.reader.state = .halted ∧
          u.reader.haltCause = some .halt ∧ u.reader.haltPending = false ∧ u.reader.cursor = some link ∧
          OnlyIn (fields [.reader, .port, .notices]) r u) ∧
      (link ≠ 0 → link % 64 ≠ 0 ∨ 2 ^ 48 - 512 < link →
        ∃ u, exec (.linkReadComplete m data) s = .next (advancePages u) ∧ u.reader.state = .halted ∧
          u.reader.haltCause = some .staleBlock ∧ u.reader.cursor = some c ∧
          OnlyIn (fields [.reader, .port, .notices]) r u))

/-- The writes to a block come one after another: the write list in its order, then result code and detail, then the
state alone, DONE or FAILED (R174, R175). A write of fields puts exactly their bytes into the block, in whole 8-byte
units and 256 bytes at most (R162; how fields of both halves of the block are cut is the model's choice, log 30). A
SCAN's and a PHOTO job's results carry the write-backs of R127 and R143 at their offsets (R195). When the state is
written the block is released and finished, JOB-END is raised for a FAILED result or with the notify flag, and the link
is read, or the reader halts where halt pending is set (R175, R182). -/
def Obligations.ResultIsWrittenBack : Prop :=
  (∀ fs : Fields, fs ≠ [] → (∀ f ∈ fs, f.2 ≠ [] ∧ f.1 / 256 = (f.1 + f.2.length - 1) / 256 ∧ f.1 + f.2.length ≤ 512) →
    fs.Pairwise (fun f g => f.1 + f.2.length ≤ g.1) → Carries fs fs.toWrites) ∧
  (∀ (j : ScanJob) (azimuth : Angle) (stations : List StationSlot),
    scanResult j azimuth stations = ⟨j.cause.getD .none, if j.cause = none then 0 else j.linesCompleted,
      [(0x60, leBytes 4 (j.linesCompleted - j.linesStored)), (0x64, leBytes 4 j.shotsLost),
       (0x68, leBytes 8 j.shotsStored), (0x70, leBytes 8 j.echoesStored), (0x78, leBytes 4 azimuth.toNat)] ++
      stations.mapIdx (fun i x => (0x80 + 24 * i + 0x15, leBytes 1 x.status.code))⟩) ∧
  (∀ (a : PhotoJob) (detail : Nat) (stations : List StationSlot),
    photoResult a detail stations = ⟨a.cause.getD .none, if a.cause = none then 0 else detail,
      (0x28, leBytes 4 a.done) :: stations.mapIdx (fun i x => (0x80 + 24 * i + 0x15, leBytes 1 x.status.code))⟩) ∧
  [StationStatus.notReached, .done, .truncated, .missed, .fault].map (·.code) = [0, 1, 2, 3, 4] ∧
  [ResultCode.none, .badParam, .noProfile, .emissionOff, .notSpinning, .spinFail, .turntableFault, .mirrorLost,
    .referenceLost, .memoryFault, .aborted, .pageOpen, .badKind, .cameraFault, .noCamera].map (·.code) =
    [0, 1, 2, 3, 4, 5, 6, 7, 8, 9, 10, 11, 12, 13, 14] ∧
  (∀ g : DetailFlags, g.toByte = (if g.refMissed then 1 else 0) + (if g.gapEcho then 2 else 0) +
    (if g.azError then 4 else 0) + (if g.echoOverflow then 8 else 0) + (if g.zoneSwitch then 16 else 0) +
    (if g.uncertain then 32 else 0) + (if g.loss then 64 else 0)) ∧
  ∀ (m : Moment) (s r : State) (x : Transfer) (rest : List Outstanding) (c : Nat),
    OldestAwaits m.transfer s x rest → x.requester = .chain → r = reported m x rest s → s.reader.cursor = some c →
    (x.purpose = .blockWrite →
      (∀ w ws, s.reader.writeList = w :: ws →
        exec (.blockWriteComplete m) s = .next (advancePages { r with
          reader := { s.reader with writeList := ws, writeBusy := true },
          port := r.port.request (maskedTransfer .chain .blockWrite (c + w.offset) w.data w.mask) })) ∧
      (∀ res, s.reader.writeList = [] → s.reader.result = some res →
        ∃ w, exec (.blockWriteComplete m) s = .next (advancePages { r with
            reader := { s.reader with writeBusy := true }, port := r.port.request w }) ∧
          w.purpose = .resultCode ∧ w.write = true ∧ w.addr = addrOf (c + 0x18) ∧ field w.data 0 2 = res.code.code ∧
          field w.data 4 4 = res.detail % 2 ^ 32 ∧
          w.mask = [true, true, false, false, true, true, true, true]) ∧
      (s.reader.writeList = [] → s.reader.result = none →
        exec (.blockWriteComplete m) s =
          .next (advancePages { r with reader := { s.reader with writeBusy := false } }))) ∧
    (∀ res, x.purpose = .resultCode → s.reader.result = some res →
      exec (.resultCodeWriteComplete m) s = .next (advancePages { r with
        port := r.port.request ⟨.chain, .resultState, true, addrOf c, 8,
          [if res.code = .none then 3 else 4, 0, 0, 0, 0, 0, 0, 0],
          [true, false, false, false, false, false, false, false], true⟩ })) ∧
    (∀ res, x.purpose = .resultState → s.reader.result = some res →
      ∃ u, exec (.resultStateWriteComplete m) s = .next (advancePages u) ∧
        u.reader.taken = none ∧ u.reader.lastFinished = some c ∧ u.reader.result = none ∧
        (s.reader.haltPending = false →
          u.reader.state = s.reader.state ∧ u.reader.activity = .link ∧
          u.port = r.port.request (readTransfer .chain .link (c + 8) 8) ∧
          (blockNotify s.reader.block = true ∨ res.code ≠ .none →
            u.notices.pending = s.notices.pending ||| 1) ∧
          (blockNotify s.reader.block = false → res.code = .none → u.notices = s.notices)) ∧
        (s.reader.haltPending = true →
          u.reader.state = .halted ∧ u.reader.haltCause = some .halt ∧ u.reader.haltPending = false ∧
          u.port.control = r.port.control.map (·.ignoreIf (fun y => y.purpose.isReaderRead))) ∧
        OnlyIn (fields [.reader, .port, .notices]) r u)

/-! ## The Store Port -/

/-- One decision of the arbiter, while the port is free: the first control-class transfer whose requester has room, a
descriptor access while none is outstanding; else the record path at 24,576 bytes queued or more; else the data
requester that was not served last where both wait; else the one that waits. Each data grant sets last data served. The
transfer granted holds the issue slot, and is outstanding from now on, under the next number, with 50 µs to its timeout.
With no requester waiting, or the slot held, nothing is granted (R161, R163, R164, R167). That a transfer is handed to
the system port before the counter's next reading, and so frees the slot, is the model's choice (log 21), and so are the
numbers (log 64). -/
def Obligations.ArbiterGrants : Prop :=
  ∀ (m : Moment) (s b : State), b = observe m s →
    (s.issueSlot = none → b.issueSlot = none) ∧
    (∀ q at_, s.issueSlot = some (q, at_) → at_ ≠ b.now → b.issueSlot = none) ∧
    (∀ q, s.issueSlot = some (q, b.now) → b.issueSlot = some (q, b.now) ∧ exec (.grant m) s = .next b) ∧
    (b.issueSlot = none →
      (∀ before t after, s.port.control = before ++ t :: after →
        (∀ x ∈ before, ¬ HasRoom s x.requester) → HasRoom s t.requester →
        Granted m s b t { s.port with control := before ++ after }) ∧
      ((∀ x ∈ s.port.control, ¬ HasRoom s x.requester) →
        (∀ t ts, s.port.recordWait = t :: ts → s.port.recordOut.length < 4 →
          24576 ≤ s.occupancy ∨ s.port.lastData = .photo ∨ s.port.photoWait = [] ∨ 4 ≤ s.port.photoOut.length →
          Granted m s b t { s.port with recordWait := ts, lastData := .record }) ∧
        (∀ t ts, s.port.photoWait = t :: ts → s.port.photoOut.length < 4 →
          s.port.recordWait = [] ∨ 4 ≤ s.port.recordOut.length ∨ (s.occupancy < 24576 ∧ s.port.lastData = .record) →
          Granted m s b t { s.port with photoWait := ts, lastData := .photo }) ∧
        (s.port.recordWait = [] ∨ 4 ≤ s.port.recordOut.length → s.port.photoWait = [] ∨ 4 ≤ s.port.photoOut.length →
          exec (.grant m) s = .next b)))

/-- Errors, timeouts and early answers. Every memory fault is latched with its particulars and raises FAULT, whatever
its place in its requester's order (R167, R168); behind an earlier transfer it changes nothing more yet (R165), and
reported it does what its requester's rules say (R169): a lost read or write of the reader's own halts it, and a lost
write-back ends the running job as though by ABORT, in every phase, and the reader halts with it (R183; for a PROFILE
source read, log 70; log 15, 31, 32, 34, 53 as in AbortEndsWaitingJob); a PROFILE or REPORT access fails its job (R155,
R159); a descriptor access sets PAGE-FAULT (R106) and a record write abandons the page, its lines and records counted as
lost (R104, R105), and the running job is told of both; a row or header write ends its photograph (R137, R138; that a
header fault sends no Stop is the model's choice, log 61). An early answer is held with its timeout stopped, and a write
is in memory from then on (R165, R167). A timeout that is not due, and any answer to a transfer already answered, do
nothing (log 3), and an answer under a number that is no longer outstanding is ignored (R167, R170; the numbers are the
model's, log 64). The model's reading, in these clauses: record writes asked for but not granted wait again at an
abandonment (log 22), which tells the job first and discards records when the write they stand behind has ended (log
26); a record fault ends every wait on a mark or drain point (log 28), that of a scan not yet SCANNING too (log 31); a
PHOTO job told in the event of a descriptor fault ends without a mark (log 33), its turntable left alone and a late
failure's detail open (log 34, 15); and a lost write-back with no job running halts at once (log 40). -/
def Obligations.FaultsAndHeldAnswers : Prop :=
  (∀ (m : Moment) (s b : State) (q : Requester) (place : Nat) (o : Outstanding) (data : List Byte),
    b = observe m s → (s.port.outOf q)[place]? = some o →
    (∀ k x, k < place → (s.port.outOf q)[k]? = some x → x.id ≠ o.id) →
    (o.answer = .awaited →
      Faults (.transferError m q o.id) q false place o s b ∧
      (∀ e, o.timeout = some e → e ≤ b.now → Faults (.transferTimeout m q o.id) q true place o s b) ∧
      (o.timeout = none ∨ (∃ e, o.timeout = some e ∧ b.now < e) → exec (.transferTimeout m q o.id) s = .next b) ∧
      (1 ≤ place →
        exec (.heldAnswer m q o.id data) s = .next { b with
          port := s.port.setOut q ((s.port.outOf q).set place ⟨o.id, o.transfer, none, .held data⟩),
          out := if o.transfer.write then [.inMemory o.transfer] else [] })) ∧
    (o.answer ≠ .awaited →
      exec (.transferError m q o.id) s = .next b ∧ exec (.transferTimeout m q o.id) s = .next b ∧
      exec (.heldAnswer m q o.id data) s = .next b)) ∧
  (∀ (m : Moment) (s b : State) (q : Requester) (id : Nat) (data : List Byte), b = observe m s →
    (∀ x ∈ s.port.outOf q, x.id ≠ id) →
    exec (.transferError m q id) s = .next b ∧ exec (.transferTimeout m q id) s = .next b ∧
    exec (.heldAnswer m q id data) s = .next b) ∧
  (∀ (m : Moment) (s b : State) (q : Requester) (data : List Byte), b = observe m s →
    (∀ x, (s.port.outOf q).head? = some x → x.id ≠ m.transfer) →
    ∀ c ∈ completionsOf q m data, exec c s = .next b)

/-! ## Photographs -/

/-- The timers of a photograph: half-way the azimuth is sampled, with the number of the last shot fired for an inline
station; at the end of the exposure rows are accepted for 100 ms at a time, or, with an end cause or no room for a row,
Stop is sent and the header write asked for (R134, R138). Not due, or stopped, neither does anything (log 3). -/
def Obligations.ExposureTimers : Prop :=
  ∀ (m : Moment) (s b : State) (p : Photograph), b = observe m s → s.photo.current = some p →
    (∀ e, p.midEnd = some e → e ≤ b.now →
      exec (.midExposureTimerExpiry m) s = .next { b with photo := { s.photo with current := some { p with
        midEnd := none, midAzimuth := some m.azimuth,
        midShot := (if p.isInline = true ∧ s.sched.nextShot ≠ 0 then some (s.sched.nextShot - 1) else none) } } }) ∧
    (p.midEnd = none ∨ (∃ e, p.midEnd = some e ∧ b.now < e) → exec (.midExposureTimerExpiry m) s = .next b) ∧
    (∀ e, s.photo.state = .exposing → p.exposureEnd = some e → e ≤ b.now →
      (1 ≤ p.rowsFit → p.endCause = none →
        exec (.exposureTimerExpiry m) s = .next { b with photo := { s.photo with
          state := .readout, current := some { p with
            exposureEnd := none, accepting := true, rowEnd := some (b.now + 100 * fineMs) } } }) ∧
      (p.rowsFit = 0 ∨ p.endCause ≠ none → p.accepting = false → p.headerIssued = false → s.photo.rows = [] →
        p.endCause ≠ some .memory →
        ∃ t w, exec (.exposureTimerExpiry m) s = .next t ∧ t.out = [.cameraStop] ∧
          t.photo = { s.photo with
            state := .readout, current := some { p with
              exposureEnd := none, headerIssued := true,
              endCause := (match p.endCause with | none => some .shortBuffer | some k => some k) } } ∧
          t.port = s.port.request w ∧ w.requester = .photo ∧ w.purpose = .photoHeader ∧ w.write = true ∧
          w.addr = addrOf p.buffer ∧ w.len = 64 ∧
          field w.data 0 1 = (if p.endCause = some .camera then 4 else 2) ∧
          OnlyIn (fields [.photo, .port, .out, .freeCount]) b t)) ∧
    (s.photo.state ≠ .exposing ∨ p.exposureEnd = none ∨ (∃ e, p.exposureEnd = some e ∧ b.now < e) →
      exec (.exposureTimerExpiry m) s = .next b)

/-- A Row while rows are accepted: with a place in the buffer it is accepted, its writes of 256 bytes follow one another
from its place in the photo buffer on, the row timeout starts again, and the last row expected, or the last that fits,
ends the acceptance; with the buffer full the photograph is OVERRUN (R133, R135). A row timeout is a camera fault
(R136). A Row that comes while none is accepted is discarded (R130, R135); a timeout that is stopped, not due or out of
season does nothing (log 3). -/
def Obligations.RowsAreTaken : Prop :=
  ∀ (m : Moment) (s b : State) (p : Photograph) (data : List Byte), b = observe m s → s.photo.current = some p →
    (p.accepting = true → data.length = p.mode.rowSize → s.photo.rows.length < 4 →
      ∃ t ws, exec (.row m data) s = .next t ∧
        t.photo.rows = s.photo.rows ++ [⟨p.rowsTaken, data⟩] ∧ t.port.photoWait = s.port.photoWait ++ ws ∧
        ws.length = p.mode.rowSize / 256 ∧
        (∀ i w, ws[i]? = some w →
          w.requester = .photo ∧ w.write = true ∧ w.len = 256 ∧
          w.addr = addrOf (p.buffer + 64 + p.rowsTaken * p.mode.rowSize + 256 * i) ∧
          w.data = (data.drop (256 * i)).take 256 ∧ w.purpose = .row (decide (i + 1 = p.mode.rowSize / 256))) ∧
        (p.rowsTaken + 1 = p.mode.rowsExpected →
          t.photo.current = some { p with rowsTaken := p.rowsTaken + 1, accepting := false, rowEnd := none } ∧
          t.out = []) ∧
        (p.rowsTaken + 1 ≠ p.mode.rowsExpected → p.rowsTaken + 1 = p.rowsFit →
          t.photo.current = some { p with
            rowsTaken := p.rowsTaken + 1, accepting := false, rowEnd := none, endCause := some .shortBuffer } ∧
          t.out = [.cameraStop]) ∧
        (p.rowsTaken + 1 ≠ p.mode.rowsExpected → p.rowsTaken + 1 ≠ p.rowsFit →
          t.photo.current = some { p with
            rowsTaken := p.rowsTaken + 1, rowEnd := some (b.now + 100 * fineMs) } ∧ t.out = []) ∧
        OnlyIn (fields [.photo, .port, .out]) b t) ∧
    (p.accepting = true → data.length = p.mode.rowSize → 4 ≤ s.photo.rows.length →
      exec (.row m data) s = .next { b with
        photo := { s.photo with
          current := some { p with endCause := some .overrun, accepting := false, rowEnd := none } },
        out := [.cameraStop] }) ∧
    (p.accepting = false → exec (.row m data) s = .next b ∧ exec (.rowTimeout m) s = .next b) ∧
    (∀ e, p.accepting = true → p.rowEnd = some e → e ≤ b.now →
      exec (.rowTimeout m) s = .next (photoProgress { b with
        photo := { s.photo with current := some { p with
          endCause := (if p.endCause = some .memory then some .memory else some .camera), accepting := false,
          midEnd := none, exposureEnd := none, rowEnd := none } },
        out := [.cameraStop] })) ∧
    (p.rowEnd = none ∨ (∃ e, p.rowEnd = some e ∧ b.now < e) → exec (.rowTimeout m) s = .next b) ∧
    (∀ (v : State) (q : Photograph), v.photo.current = some q → v.photo.rows ≠ [] → photoProgress v = v) ∧
    (∀ (v : State) (q : Photograph), v.photo.current = some q → v.photo.rows = [] → q.accepting = false →
      q.exposureEnd = none → q.headerIssued = false → q.endCause ≠ some .memory →
      ∃ w, photoProgress v = { v with
          photo := { v.photo with state := .readout, current := some { q with headerIssued := true } },
          port := v.port.request w, freeCount := v.freeCount + 1 } ∧
        w.requester = .photo ∧ w.purpose = .photoHeader ∧ w.write = true ∧ w.addr = addrOf q.buffer ∧ w.len = 64 ∧
        w.mask = List.replicate 64 true ∧ w.data.length = 64 ∧ field w.data 0x00 1 = (endStatus q.endCause).code ∧
        field w.data 0x01 1 = (match q.mode with | .full => 0 | .binned => 1) ∧
        field w.data 0x02 1 = q.station % 2 ^ 8 ∧ field w.data 0x03 1 = 0 ∧ field w.data 0x04 4 = q.tag % 2 ^ 32 ∧
        field w.data 0x08 4 = q.exposure % 2 ^ 32 ∧
        field w.data 0x0C 4 = (match q.mode with | .full => 9216 | .binned => 4608) ∧
        field w.data 0x10 4 = (match q.mode with | .full => 2048 | .binned => 1024) ∧
        field w.data 0x14 4 = q.rowsStored % 2 ^ 32 ∧ field w.data 0x18 8 = q.trigger / 64000 % 2 ^ 64 ∧
        field w.data 0x20 8 = (match q.midShot with | none => 18446744073709551615 | some n => n % 2 ^ 64) ∧
        (∀ a, q.midAzimuth = some a → field w.data 0x28 4 = a.toNat) ∧
        field w.data 0x2C 4 = (match q.line with | none => 4294967295 | some n => n % 2 ^ 32) ∧
        w.data.drop 0x30 = List.replicate 16 0)

/-- The completions of the photo path. A row's last write stores the row and may bring the header write; the others only
land. The header write ends the photograph: for DONE and TRUNCATED its PHOTO record is offered, behind the GAP that is
due, and its station has its status (R84, R86, R135, R138). With no job, and with a scan in SCANNING, nothing more
happens; a scan in its photo wait begins its drain, or makes the discard put off (R124 to R126, R145). A PHOTO job
writes stations done and the station's status back, unless a write-back has been lost, and goes on to its next station,
exposed at once where the head is HELD there already, or to its end: after the last station, or with a failure cause,
which a station FAULT by the camera gives it (R12, R140 to R143, R174, R183, R195), or with no camera PRESENT for the
next station (log 56). -/
def Obligations.PhotoWritesComplete : Prop :=
  ∀ (m : Moment) (s r : State) (x : Transfer) (rest : List Outstanding) (p : Photograph),
    OldestAwaits m.transfer s x rest → x.requester = .photo → r = reported m x rest s → s.photo.current = some p →
    p.endCause ≠ some .memory →
    (x.purpose = .row false → exec (.rowWriteComplete m) s = .next (advancePages r)) ∧
    (x.purpose = .row true →
      exec (.rowWriteComplete m) s = .next (advancePages (photoProgress { r with
        photo := { s.photo with
          rows := s.photo.rows.tail, current := some { p with rowsStored := p.rowsStored + 1 } } }))) ∧
    (∀ status present, x.purpose = .photoHeader → status = endStatus p.endCause →
      present = decide (s.camera.presence = .present ∧ s.camera.checkDue = false) →
      ∃ v u, exec (.headerWriteComplete m) s = .next (advancePages u) ∧
        v.photo = ⟨if present then .idle else .absent, none, [], setStatus p.station status s.photo.stations,
          s.photo.inlineBase⟩ ∧
        (s.camera.checkDue = false → v.camera = s.camera) ∧ (s.camera.checkDue = true → v.camera.presence = .check) ∧
        (p.endCause = none → status = .done) ∧ (p.endCause = some .camera → status = .fault) ∧
        (p.endCause = some .overrun ∨ p.endCause = some .shortBuffer ∨ p.endCause = some .abort →
          status = .truncated) ∧
        (status = .fault → v.staging = s.staging ∧ v.loss = s.loss) ∧
        (status ≠ .fault → s.occupancy + (if s.loss = Loss.zero then 64 else 96) ≤ 32768 →
          v.loss = Loss.zero ∧
          ∃ y, v.staging.entries = s.staging.entries ++
              (if s.loss = Loss.zero then [⟨s.staging.nextSeq, s.jobSerial, .photo y, false⟩]
              else [⟨s.staging.nextSeq, s.jobSerial, .gap s.loss, false⟩,
                ⟨s.staging.nextSeq + 1, s.jobSerial, .photo y, false⟩]) ∧
            y.tag = p.tag ∧ y.station = p.station ∧ y.status = status ∧ y.mode = p.mode ∧ y.buffer = p.buffer ∧
            y.rowsStored = p.rowsStored ∧ y.lineTime = p.trigger / 64000 ∧ y.shot = p.midShot ∧ y.line = p.line ∧
            ∀ a, p.midAzimuth = some a → y.azimuth = a.toNat) ∧
        (status ≠ .fault → 32768 < s.occupancy + (if s.loss = Loss.zero then 64 else 96) →
          v.staging = s.staging ∧ v.loss = s.loss.addOther) ∧
        OnlyIn (fields [.photo, .camera, .staging, .loss, .freeCount]) r v ∧
        ((∀ a, s.job ≠ some (.photo a)) →
          (∀ j, s.job = some (.scan j) → j.phase ≠ .ending ∨ j.endWait ≠ .none) → u = v) ∧
        (∀ j, s.job = some (.scan j) → j.phase = .ending → j.endWait = .none → Drains j v u) ∧
        (∀ a k done, s.job = some (.photo a) →
          k = { a with
            done := a.done + 1,
            cause := (match a.cause with
              | some c => some c
              | none => if status = .fault then some .cameraFault else none) } →
          done = [(0x28, leBytes 4 (a.done + 1)), (0x80 + 24 * a.index + 0x15, leBytes 1 status.code)] →
          ∃ z, WroteBack done v z ∧ OnlyIn (fields [.job, .reader, .port]) v z ∧ z.job = some (.photo k) ∧
            (k.cause = none → a.index + 1 < s.photo.stations.length → present = true →
              u.job = some (.photo { k with index := a.index + 1 }) ∧ u.reader = z.reader ∧ u.port = z.port ∧
              u.photo.stations = setStatus p.station status s.photo.stations ∧
              (s.turntable.state ≠ .held →
                u.photo.state = .armed ∧ u.photo.current = none ∧ u.turntable.state = .slewing) ∧
              (∀ sl y target, s.slots.get a.slot = some sl →
                (setStatus p.station status s.photo.stations)[a.index + 1]? = some y →
                target = BitVec.ofNat 22 (y.station.azimuth + sl.profile.cameraOffset) →
                (¬ HeldAt target r →
                  u.photo.state = .armed ∧ u.photo.current = none ∧ SentTo target sl.profile.settleMs r u) ∧
                (HeldAt target r → StationExposed (a.index + 1) y.station none r u ∧ AnsweredAtOnce r u))) ∧
            (k.cause = none → a.index + 1 < s.photo.stations.length → present = false →
              u.turntable = (decelerate r).turntable ∧
              (s.seals = true →
                u.job = some (.photo { k with index := a.index + 1, cause := some .cameraFault, sealWait := true }) ∧
                u.reader = z.reader ∧ u.port = z.port ∧ u.pages.mark = some ⟨v.staging.nextSeq, .abort, false⟩) ∧
              (s.seals = false → s.reader.writeBackLost = false → a.lateCause = false →
                HandsBack (photoResult { k with index := a.index + 1, cause := some .cameraFault } (a.index + 1)
                  (setStatus p.station status s.photo.stations)) u ∧ ToWrite done u)) ∧
            (k.cause ≠ none ∨ s.photo.stations.length ≤ a.index + 1 →
              u.turntable = (if a.abortTaken then (decelerate r).turntable else s.turntable) ∧ u.photo.current = none ∧
              (s.seals = true →
                u.job = some (.photo { k with sealWait := true }) ∧ u.reader = z.reader ∧ u.port = z.port ∧
                u.pages.mark = some ⟨v.staging.nextSeq, if k.cause = none then .jobEnd else .abort, false⟩) ∧
              (s.seals = false → s.reader.writeBackLost = false → a.lateCause = false →
                HandsBack (photoResult k a.index (setStatus p.station status s.photo.stations)) u ∧ ToWrite done u ∧
                u.photo.stations = []))))

/-- The camera's levels and the presence machine: the presence wait, the self-check of 500 ms with Error clear
throughout, PRESENT, and back (R131, R132). CAMERA is raised for changes of the level after the wait and for a check
passed after it. A level taken in PRESENT ends what the camera was doing: in ARMED the station's job goes to its end
CAMERA-FAULT with the head decelerated (R141, R143), and with a photograph in hand, in EXPOSING or READOUT, it is a camera
fault whatever the presence state: Stop is sent, and the end cause stands once rows are no longer accepted (R136, R141;
log 37); after an Error in PRESENT the self-check is due once the photograph has ended (R132). Levels
repeated change nothing (log 47), a self-check entered while Error is asserted waits for it to clear (log 35), and
timers out of season do nothing (log 3). -/
def Obligations.CameraPresence : Prop :=
  ∀ (m : Moment) (s b : State), b = observe m s →
    (s.camera.presentIn = false → s.camera.presence = .wait ∨ s.camera.presence = .absent →
      ∃ t, exec (.presenceAsserted m) s = .next t ∧
        t.camera = { s.camera with
          presence := .check, presentIn := true, presenceEnd := none, checkDue := false,
          checkAfterWait := decide (s.camera.presence = .absent),
          checkEnd := (if s.camera.errorIn then none else some (b.now + 500 * fineMs)) } ∧
        (s.camera.presence = .wait → t.notices = s.notices) ∧
        (s.camera.presence = .absent → t.notices.pending = s.notices.pending ||| 128) ∧
        OnlyIn (fields [.camera, .notices]) b t) ∧
    (s.camera.presentIn = true → s.camera.presence = .check → s.photo.state.busy = false →
      ∃ t, exec (.presenceDeasserted m) s = .next t ∧
        t.camera = { s.camera with
          presence := .absent, presentIn := false, presenceEnd := none, checkEnd := none, checkDue := false } ∧
        t.notices.pending = s.notices.pending ||| 128 ∧ OnlyIn (fields [.camera, .notices]) b t) ∧
    (∀ p, s.camera.presentIn = true → s.camera.presence = .check → s.photo.state.busy = true →
      s.photo.current = some p →
      ∃ v, exec (.presenceDeasserted m) s = .next (advancePages v) ∧ CameraFaulted p b v ∧
        v.camera = { s.camera with
          presence := .absent, presentIn := false, presenceEnd := none, checkEnd := none, checkDue := false } ∧
        v.notices.pending = s.notices.pending ||| 128) ∧
    (s.camera.presentIn = true → s.camera.presence = .present →
      ∃ u, exec (.presenceDeasserted m) s = .next (advancePages u) ∧
        u.camera = { s.camera with
          presence := .absent, presentIn := false, presenceEnd := none, checkEnd := none, checkDue := false } ∧
        (s.reader.writeBackLost = false → u.notices.pending = s.notices.pending ||| 128) ∧
        (s.photo.state = .idle →
          u.photo = { s.photo with state := .absent } ∧ OnlyIn (fields [.camera, .notices, .photo]) b u) ∧
        (∀ a, s.photo.state = .armed → s.job = some (.photo a) → StationLost a b u) ∧
        (∀ p, s.photo.state = .exposing → s.photo.current = some p → p.endCause ≠ some .memory →
          u.out = [.cameraStop] ∧
          ∃ q, u.photo.current = some q ∧ q.endCause = some .camera ∧ q.accepting = false ∧ q.exposureEnd = none)) ∧
    (∀ p, s.camera.presentIn = true → s.camera.presence = .present → s.photo.state.busy = true →
      s.photo.current = some p →
      ∃ v, exec (.presenceDeasserted m) s = .next (advancePages v) ∧ CameraFaulted p b v ∧
        v.camera = { s.camera with
          presence := .absent, presentIn := false, presenceEnd := none, checkEnd := none, checkDue := false } ∧
        v.notices.pending = s.notices.pending ||| 128 ∧
        OnlyIn (fields [.camera, .notices, .photo, .port, .out, .freeCount]) b v) ∧
    (s.camera.presentIn = true → exec (.presenceAsserted m) s = .next b) ∧
    (s.camera.presentIn = false → exec (.presenceDeasserted m) s = .next b) ∧
    (∀ e, s.camera.presence = .wait → s.camera.presenceEnd = some e → e ≤ b.now →
      exec (.presenceTimerExpiry m) s = .next { b with camera := { s.camera with
        presence := .absent, presenceEnd := none, checkEnd := none, checkDue := false } }) ∧
    (s.camera.presence ≠ .wait ∨ s.camera.presenceEnd = none ∨ (∃ e, s.camera.presenceEnd = some e ∧ b.now < e) →
      exec (.presenceTimerExpiry m) s = .next b) ∧
    (s.camera.errorIn = false →
      (s.camera.presence = .check → s.photo.state.busy = false →
        exec (.errorAsserted m) s = .next { b with camera := { s.camera with errorIn := true, checkEnd := none } }) ∧
      (s.camera.presence = .wait ∨ s.camera.presence = .absent → s.photo.state.busy = false →
        exec (.errorAsserted m) s = .next { b with camera := { s.camera with errorIn := true } }) ∧
      (∀ p, s.camera.presence ≠ .present → s.photo.state.busy = true → s.photo.current = some p →
        ∃ v, exec (.errorAsserted m) s = .next (advancePages v) ∧ CameraFaulted p b v ∧
          v.camera = { s.camera with
            errorIn := true, checkEnd := (if s.camera.presence = .check then none else s.camera.checkEnd) }) ∧
      (s.camera.presence = .present → s.photo.state = .idle →
        exec (.errorAsserted m) s = .next (advancePages { b with
          camera := { s.camera with
            errorIn := true, presence := .check, presenceEnd := none, checkAfterWait := true, checkDue := false,
            checkEnd := none },
          photo := { s.photo with state := .absent } })) ∧
      (∀ a, s.camera.presence = .present → s.photo.state = .armed → s.job = some (.photo a) →
        ∃ u, exec (.errorAsserted m) s = .next (advancePages u) ∧ StationLost a b u ∧
          u.camera = { s.camera with
            errorIn := true, presence := .check, presenceEnd := none, checkAfterWait := true, checkDue := false,
            checkEnd := none }) ∧
      (∀ p, s.camera.presence = .present → s.photo.state = .exposing → s.photo.current = some p →
        p.endCause ≠ some .memory →
        ∃ u, exec (.errorAsserted m) s = .next (advancePages u) ∧
          u.camera = { s.camera with errorIn := true, checkDue := true } ∧ u.out = [.cameraStop] ∧
          ∃ q, u.photo.current = some q ∧ q.endCause = some .camera ∧ q.accepting = false) ∧
      (∀ p, s.camera.presence = .present → s.photo.state.busy = true → s.photo.current = some p →
        ∃ v, exec (.errorAsserted m) s = .next (advancePages v) ∧ CameraFaulted p b v ∧
          v.camera = { s.camera with errorIn := true, checkDue := true } ∧
          OnlyIn (fields [.camera, .photo, .port, .out, .freeCount]) b v)) ∧
    (s.camera.errorIn = true →
      exec (.errorDeasserted m) s = .next { b with camera := { s.camera with
        errorIn := false,
        checkEnd := (if s.camera.presence = .check then some (b.now + 500 * fineMs) else s.camera.checkEnd) } } ∧
      exec (.errorAsserted m) s = .next b) ∧
    (s.camera.errorIn = false → exec (.errorDeasserted m) s = .next b) ∧
    (∀ e, s.camera.presence = .check → s.camera.checkEnd = some e → e ≤ b.now →
      ∃ t, exec (.checkTimerExpiry m) s = .next t ∧
        t.camera = { s.camera with presence := .present, checkEnd := none } ∧
        (s.photo.current = none → t.photo = { s.photo with state := .idle }) ∧
        (s.camera.checkAfterWait = true → t.notices.pending = s.notices.pending ||| 128) ∧
        (s.camera.checkAfterWait = false → t.notices = s.notices) ∧
        OnlyIn (fields [.camera, .photo, .notices]) b t) ∧
    (s.camera.presence ≠ .check ∨ s.camera.checkEnd = none ∨ (∃ e, s.camera.checkEnd = some e ∧ b.now < e) →
      exec (.checkTimerExpiry m) s = .next b)
end

