-- ==== Sys2Proof/Laws/State.lean ====
section
/-! SUPPORT. One lemma per field per setter: what each setter of State changes and what it leaves alone. -/

namespace Sys2Proof.Machine.State

variable (s : State)

@[simp] theorem setTime_time (x : Word) : (s.setTime x).time = x := rfl
@[simp] theorem setTime_angle (x : Word) : (s.setTime x).angle = s.angle := rfl
@[simp] theorem setTime_azimuth (x : Word) : (s.setTime x).azimuth = s.azimuth := rfl
@[simp] theorem setTime_mirror (x : Word) : (s.setTime x).mirror = s.mirror := rfl
@[simp] theorem setTime_turntable (x : Word) : (s.setTime x).turntable = s.turntable := rfl
@[simp] theorem setTime_rest (x : Word) : (s.setTime x).rest = s.rest := rfl
@[simp] theorem setTime_emission (x : Word) : (s.setTime x).emission = s.emission := rfl
@[simp] theorem setTime_sector (x : Word) : (s.setTime x).sector = s.sector := rfl
@[simp] theorem setTime_sched (x : Word) : (s.setTime x).sched = s.sched := rfl
@[simp] theorem setTime_shots (x : Word) : (s.setTime x).shots = s.shots := rfl
@[simp] theorem setTime_tracker (x : Word) : (s.setTime x).tracker = s.tracker := rfl
@[simp] theorem setTime_intake (x : Word) : (s.setTime x).intake = s.intake := rfl
@[simp] theorem setTime_line (x : Word) : (s.setTime x).line = s.line := rfl
@[simp] theorem setTime_staging (x : Word) : (s.setTime x).staging = s.staging := rfl
@[simp] theorem setTime_loss (x : Word) : (s.setTime x).loss = s.loss := rfl
@[simp] theorem setTime_markWait (x : Word) : (s.setTime x).markWait = s.markWait := rfl
@[simp] theorem setTime_pages (x : Word) : (s.setTime x).pages = s.pages := rfl
@[simp] theorem setTime_job (x : Word) : (s.setTime x).job = s.job := rfl
@[simp] theorem setTime_jobSerial (x : Word) : (s.setTime x).jobSerial = s.jobSerial := rfl
@[simp] theorem setTime_camera (x : Word) : (s.setTime x).camera = s.camera := rfl
@[simp] theorem setTime_photo (x : Word) : (s.setTime x).photo = s.photo := rfl
@[simp] theorem setTime_slots (x : Word) : (s.setTime x).slots = s.slots := rfl
@[simp] theorem setTime_counters (x : Word) : (s.setTime x).counters = s.counters := rfl
@[simp] theorem setTime_port (x : Word) : (s.setTime x).port = s.port := rfl
@[simp] theorem setTime_issueSlot (x : Word) : (s.setTime x).issueSlot = s.issueSlot := rfl
@[simp] theorem setTime_reader (x : Word) : (s.setTime x).reader = s.reader := rfl
@[simp] theorem setTime_notices (x : Word) : (s.setTime x).notices = s.notices := rfl
@[simp] theorem setTime_rstin (x : Word) : (s.setTime x).rstin = s.rstin := rfl
@[simp] theorem setTime_out (x : Word) : (s.setTime x).out = s.out := rfl
@[simp] theorem setTime_freeCount (x : Word) : (s.setTime x).freeCount = s.freeCount := rfl
@[simp] theorem setTime_pending (x : Word) : (s.setTime x).pending = s.pending := rfl

@[simp] theorem setAngle_time (x : Angle) : (s.setAngle x).time = s.time := rfl
@[simp] theorem setAngle_angle (x : Angle) : (s.setAngle x).angle = x := rfl
@[simp] theorem setAngle_azimuth (x : Angle) : (s.setAngle x).azimuth = s.azimuth := rfl
@[simp] theorem setAngle_mirror (x : Angle) : (s.setAngle x).mirror = s.mirror := rfl
@[simp] theorem setAngle_turntable (x : Angle) : (s.setAngle x).turntable = s.turntable := rfl
@[simp] theorem setAngle_rest (x : Angle) : (s.setAngle x).rest = s.rest := rfl
@[simp] theorem setAngle_emission (x : Angle) : (s.setAngle x).emission = s.emission := rfl
@[simp] theorem setAngle_sector (x : Angle) : (s.setAngle x).sector = s.sector := rfl
@[simp] theorem setAngle_sched (x : Angle) : (s.setAngle x).sched = s.sched := rfl
@[simp] theorem setAngle_shots (x : Angle) : (s.setAngle x).shots = s.shots := rfl
@[simp] theorem setAngle_tracker (x : Angle) : (s.setAngle x).tracker = s.tracker := rfl
@[simp] theorem setAngle_intake (x : Angle) : (s.setAngle x).intake = s.intake := rfl
@[simp] theorem setAngle_line (x : Angle) : (s.setAngle x).line = s.line := rfl
@[simp] theorem setAngle_staging (x : Angle) : (s.setAngle x).staging = s.staging := rfl
@[simp] theorem setAngle_loss (x : Angle) : (s.setAngle x).loss = s.loss := rfl
@[simp] theorem setAngle_markWait (x : Angle) : (s.setAngle x).markWait = s.markWait := rfl
@[simp] theorem setAngle_pages (x : Angle) : (s.setAngle x).pages = s.pages := rfl
@[simp] theorem setAngle_job (x : Angle) : (s.setAngle x).job = s.job := rfl
@[simp] theorem setAngle_jobSerial (x : Angle) : (s.setAngle x).jobSerial = s.jobSerial := rfl
@[simp] theorem setAngle_camera (x : Angle) : (s.setAngle x).camera = s.camera := rfl
@[simp] theorem setAngle_photo (x : Angle) : (s.setAngle x).photo = s.photo := rfl
@[simp] theorem setAngle_slots (x : Angle) : (s.setAngle x).slots = s.slots := rfl
@[simp] theorem setAngle_counters (x : Angle) : (s.setAngle x).counters = s.counters := rfl
@[simp] theorem setAngle_port (x : Angle) : (s.setAngle x).port = s.port := rfl
@[simp] theorem setAngle_issueSlot (x : Angle) : (s.setAngle x).issueSlot = s.issueSlot := rfl
@[simp] theorem setAngle_reader (x : Angle) : (s.setAngle x).reader = s.reader := rfl
@[simp] theorem setAngle_notices (x : Angle) : (s.setAngle x).notices = s.notices := rfl
@[simp] theorem setAngle_rstin (x : Angle) : (s.setAngle x).rstin = s.rstin := rfl
@[simp] theorem setAngle_out (x : Angle) : (s.setAngle x).out = s.out := rfl
@[simp] theorem setAngle_freeCount (x : Angle) : (s.setAngle x).freeCount = s.freeCount := rfl
@[simp] theorem setAngle_pending (x : Angle) : (s.setAngle x).pending = s.pending := rfl

@[simp] theorem setAzimuth_time (x : Angle) : (s.setAzimuth x).time = s.time := rfl
@[simp] theorem setAzimuth_angle (x : Angle) : (s.setAzimuth x).angle = s.angle := rfl
@[simp] theorem setAzimuth_azimuth (x : Angle) : (s.setAzimuth x).azimuth = x := rfl
@[simp] theorem setAzimuth_mirror (x : Angle) : (s.setAzimuth x).mirror = s.mirror := rfl
@[simp] theorem setAzimuth_turntable (x : Angle) : (s.setAzimuth x).turntable = s.turntable := rfl
@[simp] theorem setAzimuth_rest (x : Angle) : (s.setAzimuth x).rest = s.rest := rfl
@[simp] theorem setAzimuth_emission (x : Angle) : (s.setAzimuth x).emission = s.emission := rfl
@[simp] theorem setAzimuth_sector (x : Angle) : (s.setAzimuth x).sector = s.sector := rfl
@[simp] theorem setAzimuth_sched (x : Angle) : (s.setAzimuth x).sched = s.sched := rfl
@[simp] theorem setAzimuth_shots (x : Angle) : (s.setAzimuth x).shots = s.shots := rfl
@[simp] theorem setAzimuth_tracker (x : Angle) : (s.setAzimuth x).tracker = s.tracker := rfl
@[simp] theorem setAzimuth_intake (x : Angle) : (s.setAzimuth x).intake = s.intake := rfl
@[simp] theorem setAzimuth_line (x : Angle) : (s.setAzimuth x).line = s.line := rfl
@[simp] theorem setAzimuth_staging (x : Angle) : (s.setAzimuth x).staging = s.staging := rfl
@[simp] theorem setAzimuth_loss (x : Angle) : (s.setAzimuth x).loss = s.loss := rfl
@[simp] theorem setAzimuth_markWait (x : Angle) : (s.setAzimuth x).markWait = s.markWait := rfl
@[simp] theorem setAzimuth_pages (x : Angle) : (s.setAzimuth x).pages = s.pages := rfl
@[simp] theorem setAzimuth_job (x : Angle) : (s.setAzimuth x).job = s.job := rfl
@[simp] theorem setAzimuth_jobSerial (x : Angle) : (s.setAzimuth x).jobSerial = s.jobSerial := rfl
@[simp] theorem setAzimuth_camera (x : Angle) : (s.setAzimuth x).camera = s.camera := rfl
@[simp] theorem setAzimuth_photo (x : Angle) : (s.setAzimuth x).photo = s.photo := rfl
@[simp] theorem setAzimuth_slots (x : Angle) : (s.setAzimuth x).slots = s.slots := rfl
@[simp] theorem setAzimuth_counters (x : Angle) : (s.setAzimuth x).counters = s.counters := rfl
@[simp] theorem setAzimuth_port (x : Angle) : (s.setAzimuth x).port = s.port := rfl
@[simp] theorem setAzimuth_issueSlot (x : Angle) : (s.setAzimuth x).issueSlot = s.issueSlot := rfl
@[simp] theorem setAzimuth_reader (x : Angle) : (s.setAzimuth x).reader = s.reader := rfl
@[simp] theorem setAzimuth_notices (x : Angle) : (s.setAzimuth x).notices = s.notices := rfl
@[simp] theorem setAzimuth_rstin (x : Angle) : (s.setAzimuth x).rstin = s.rstin := rfl
@[simp] theorem setAzimuth_out (x : Angle) : (s.setAzimuth x).out = s.out := rfl
@[simp] theorem setAzimuth_freeCount (x : Angle) : (s.setAzimuth x).freeCount = s.freeCount := rfl
@[simp] theorem setAzimuth_pending (x : Angle) : (s.setAzimuth x).pending = s.pending := rfl

@[simp] theorem setMirror_time (x : Mirror) : (s.setMirror x).time = s.time := rfl
@[simp] theorem setMirror_angle (x : Mirror) : (s.setMirror x).angle = s.angle := rfl
@[simp] theorem setMirror_azimuth (x : Mirror) : (s.setMirror x).azimuth = s.azimuth := rfl
@[simp] theorem setMirror_mirror (x : Mirror) : (s.setMirror x).mirror = x := rfl
@[simp] theorem setMirror_turntable (x : Mirror) : (s.setMirror x).turntable = s.turntable := rfl
@[simp] theorem setMirror_rest (x : Mirror) : (s.setMirror x).rest = s.rest := rfl
@[simp] theorem setMirror_emission (x : Mirror) : (s.setMirror x).emission = s.emission := rfl
@[simp] theorem setMirror_sector (x : Mirror) : (s.setMirror x).sector = s.sector := rfl
@[simp] theorem setMirror_sched (x : Mirror) : (s.setMirror x).sched = s.sched := rfl
@[simp] theorem setMirror_shots (x : Mirror) : (s.setMirror x).shots = s.shots := rfl
@[simp] theorem setMirror_tracker (x : Mirror) : (s.setMirror x).tracker = s.tracker := rfl
@[simp] theorem setMirror_intake (x : Mirror) : (s.setMirror x).intake = s.intake := rfl
@[simp] theorem setMirror_line (x : Mirror) : (s.setMirror x).line = s.line := rfl
@[simp] theorem setMirror_staging (x : Mirror) : (s.setMirror x).staging = s.staging := rfl
@[simp] theorem setMirror_loss (x : Mirror) : (s.setMirror x).loss = s.loss := rfl
@[simp] theorem setMirror_markWait (x : Mirror) : (s.setMirror x).markWait = s.markWait := rfl
@[simp] theorem setMirror_pages (x : Mirror) : (s.setMirror x).pages = s.pages := rfl
@[simp] theorem setMirror_job (x : Mirror) : (s.setMirror x).job = s.job := rfl
@[simp] theorem setMirror_jobSerial (x : Mirror) : (s.setMirror x).jobSerial = s.jobSerial := rfl
@[simp] theorem setMirror_camera (x : Mirror) : (s.setMirror x).camera = s.camera := rfl
@[simp] theorem setMirror_photo (x : Mirror) : (s.setMirror x).photo = s.photo := rfl
@[simp] theorem setMirror_slots (x : Mirror) : (s.setMirror x).slots = s.slots := rfl
@[simp] theorem setMirror_counters (x : Mirror) : (s.setMirror x).counters = s.counters := rfl
@[simp] theorem setMirror_port (x : Mirror) : (s.setMirror x).port = s.port := rfl
@[simp] theorem setMirror_issueSlot (x : Mirror) : (s.setMirror x).issueSlot = s.issueSlot := rfl
@[simp] theorem setMirror_reader (x : Mirror) : (s.setMirror x).reader = s.reader := rfl
@[simp] theorem setMirror_notices (x : Mirror) : (s.setMirror x).notices = s.notices := rfl
@[simp] theorem setMirror_rstin (x : Mirror) : (s.setMirror x).rstin = s.rstin := rfl
@[simp] theorem setMirror_out (x : Mirror) : (s.setMirror x).out = s.out := rfl
@[simp] theorem setMirror_freeCount (x : Mirror) : (s.setMirror x).freeCount = s.freeCount := rfl
@[simp] theorem setMirror_pending (x : Mirror) : (s.setMirror x).pending = s.pending := rfl

@[simp] theorem setTurntable_time (x : Turntable) : (s.setTurntable x).time = s.time := rfl
@[simp] theorem setTurntable_angle (x : Turntable) : (s.setTurntable x).angle = s.angle := rfl
@[simp] theorem setTurntable_azimuth (x : Turntable) : (s.setTurntable x).azimuth = s.azimuth := rfl
@[simp] theorem setTurntable_mirror (x : Turntable) : (s.setTurntable x).mirror = s.mirror := rfl
@[simp] theorem setTurntable_turntable (x : Turntable) : (s.setTurntable x).turntable = x := rfl
@[simp] theorem setTurntable_rest (x : Turntable) : (s.setTurntable x).rest = s.rest := rfl
@[simp] theorem setTurntable_emission (x : Turntable) : (s.setTurntable x).emission = s.emission := rfl
@[simp] theorem setTurntable_sector (x : Turntable) : (s.setTurntable x).sector = s.sector := rfl
@[simp] theorem setTurntable_sched (x : Turntable) : (s.setTurntable x).sched = s.sched := rfl
@[simp] theorem setTurntable_shots (x : Turntable) : (s.setTurntable x).shots = s.shots := rfl
@[simp] theorem setTurntable_tracker (x : Turntable) : (s.setTurntable x).tracker = s.tracker := rfl
@[simp] theorem setTurntable_intake (x : Turntable) : (s.setTurntable x).intake = s.intake := rfl
@[simp] theorem setTurntable_line (x : Turntable) : (s.setTurntable x).line = s.line := rfl
@[simp] theorem setTurntable_staging (x : Turntable) : (s.setTurntable x).staging = s.staging := rfl
@[simp] theorem setTurntable_loss (x : Turntable) : (s.setTurntable x).loss = s.loss := rfl
@[simp] theorem setTurntable_markWait (x : Turntable) : (s.setTurntable x).markWait = s.markWait := rfl
@[simp] theorem setTurntable_pages (x : Turntable) : (s.setTurntable x).pages = s.pages := rfl
@[simp] theorem setTurntable_job (x : Turntable) : (s.setTurntable x).job = s.job := rfl
@[simp] theorem setTurntable_jobSerial (x : Turntable) : (s.setTurntable x).jobSerial = s.jobSerial := rfl
@[simp] theorem setTurntable_camera (x : Turntable) : (s.setTurntable x).camera = s.camera := rfl
@[simp] theorem setTurntable_photo (x : Turntable) : (s.setTurntable x).photo = s.photo := rfl
@[simp] theorem setTurntable_slots (x : Turntable) : (s.setTurntable x).slots = s.slots := rfl
@[simp] theorem setTurntable_counters (x : Turntable) : (s.setTurntable x).counters = s.counters := rfl
@[simp] theorem setTurntable_port (x : Turntable) : (s.setTurntable x).port = s.port := rfl
@[simp] theorem setTurntable_issueSlot (x : Turntable) : (s.setTurntable x).issueSlot = s.issueSlot := rfl
@[simp] theorem setTurntable_reader (x : Turntable) : (s.setTurntable x).reader = s.reader := rfl
@[simp] theorem setTurntable_notices (x : Turntable) : (s.setTurntable x).notices = s.notices := rfl
@[simp] theorem setTurntable_rstin (x : Turntable) : (s.setTurntable x).rstin = s.rstin := rfl
@[simp] theorem setTurntable_out (x : Turntable) : (s.setTurntable x).out = s.out := rfl
@[simp] theorem setTurntable_freeCount (x : Turntable) : (s.setTurntable x).freeCount = s.freeCount := rfl
@[simp] theorem setTurntable_pending (x : Turntable) : (s.setTurntable x).pending = s.pending := rfl

@[simp] theorem setRest_time (x : RestWatch) : (s.setRest x).time = s.time := rfl
@[simp] theorem setRest_angle (x : RestWatch) : (s.setRest x).angle = s.angle := rfl
@[simp] theorem setRest_azimuth (x : RestWatch) : (s.setRest x).azimuth = s.azimuth := rfl
@[simp] theorem setRest_mirror (x : RestWatch) : (s.setRest x).mirror = s.mirror := rfl
@[simp] theorem setRest_turntable (x : RestWatch) : (s.setRest x).turntable = s.turntable := rfl
@[simp] theorem setRest_rest (x : RestWatch) : (s.setRest x).rest = x := rfl
@[simp] theorem setRest_emission (x : RestWatch) : (s.setRest x).emission = s.emission := rfl
@[simp] theorem setRest_sector (x : RestWatch) : (s.setRest x).sector = s.sector := rfl
@[simp] theorem setRest_sched (x : RestWatch) : (s.setRest x).sched = s.sched := rfl
@[simp] theorem setRest_shots (x : RestWatch) : (s.setRest x).shots = s.shots := rfl
@[simp] theorem setRest_tracker (x : RestWatch) : (s.setRest x).tracker = s.tracker := rfl
@[simp] theorem setRest_intake (x : RestWatch) : (s.setRest x).intake = s.intake := rfl
@[simp] theorem setRest_line (x : RestWatch) : (s.setRest x).line = s.line := rfl
@[simp] theorem setRest_staging (x : RestWatch) : (s.setRest x).staging = s.staging := rfl
@[simp] theorem setRest_loss (x : RestWatch) : (s.setRest x).loss = s.loss := rfl
@[simp] theorem setRest_markWait (x : RestWatch) : (s.setRest x).markWait = s.markWait := rfl
@[simp] theorem setRest_pages (x : RestWatch) : (s.setRest x).pages = s.pages := rfl
@[simp] theorem setRest_job (x : RestWatch) : (s.setRest x).job = s.job := rfl
@[simp] theorem setRest_jobSerial (x : RestWatch) : (s.setRest x).jobSerial = s.jobSerial := rfl
@[simp] theorem setRest_camera (x : RestWatch) : (s.setRest x).camera = s.camera := rfl
@[simp] theorem setRest_photo (x : RestWatch) : (s.setRest x).photo = s.photo := rfl
@[simp] theorem setRest_slots (x : RestWatch) : (s.setRest x).slots = s.slots := rfl
@[simp] theorem setRest_counters (x : RestWatch) : (s.setRest x).counters = s.counters := rfl
@[simp] theorem setRest_port (x : RestWatch) : (s.setRest x).port = s.port := rfl
@[simp] theorem setRest_issueSlot (x : RestWatch) : (s.setRest x).issueSlot = s.issueSlot := rfl
@[simp] theorem setRest_reader (x : RestWatch) : (s.setRest x).reader = s.reader := rfl
@[simp] theorem setRest_notices (x : RestWatch) : (s.setRest x).notices = s.notices := rfl
@[simp] theorem setRest_rstin (x : RestWatch) : (s.setRest x).rstin = s.rstin := rfl
@[simp] theorem setRest_out (x : RestWatch) : (s.setRest x).out = s.out := rfl
@[simp] theorem setRest_freeCount (x : RestWatch) : (s.setRest x).freeCount = s.freeCount := rfl
@[simp] theorem setRest_pending (x : RestWatch) : (s.setRest x).pending = s.pending := rfl

@[simp] theorem setEmission_time (x : Emission) : (s.setEmission x).time = s.time := rfl
@[simp] theorem setEmission_angle (x : Emission) : (s.setEmission x).angle = s.angle := rfl
@[simp] theorem setEmission_azimuth (x : Emission) : (s.setEmission x).azimuth = s.azimuth := rfl
@[simp] theorem setEmission_mirror (x : Emission) : (s.setEmission x).mirror = s.mirror := rfl
@[simp] theorem setEmission_turntable (x : Emission) : (s.setEmission x).turntable = s.turntable := rfl
@[simp] theorem setEmission_rest (x : Emission) : (s.setEmission x).rest = s.rest := rfl
@[simp] theorem setEmission_emission (x : Emission) : (s.setEmission x).emission = x := rfl
@[simp] theorem setEmission_sector (x : Emission) : (s.setEmission x).sector = s.sector := rfl
@[simp] theorem setEmission_sched (x : Emission) : (s.setEmission x).sched = s.sched := rfl
@[simp] theorem setEmission_shots (x : Emission) : (s.setEmission x).shots = s.shots := rfl
@[simp] theorem setEmission_tracker (x : Emission) : (s.setEmission x).tracker = s.tracker := rfl
@[simp] theorem setEmission_intake (x : Emission) : (s.setEmission x).intake = s.intake := rfl
@[simp] theorem setEmission_line (x : Emission) : (s.setEmission x).line = s.line := rfl
@[simp] theorem setEmission_staging (x : Emission) : (s.setEmission x).staging = s.staging := rfl
@[simp] theorem setEmission_loss (x : Emission) : (s.setEmission x).loss = s.loss := rfl
@[simp] theorem setEmission_markWait (x : Emission) : (s.setEmission x).markWait = s.markWait := rfl
@[simp] theorem setEmission_pages (x : Emission) : (s.setEmission x).pages = s.pages := rfl
@[simp] theorem setEmission_job (x : Emission) : (s.setEmission x).job = s.job := rfl
@[simp] theorem setEmission_jobSerial (x : Emission) : (s.setEmission x).jobSerial = s.jobSerial := rfl
@[simp] theorem setEmission_camera (x : Emission) : (s.setEmission x).camera = s.camera := rfl
@[simp] theorem setEmission_photo (x : Emission) : (s.setEmission x).photo = s.photo := rfl
@[simp] theorem setEmission_slots (x : Emission) : (s.setEmission x).slots = s.slots := rfl
@[simp] theorem setEmission_counters (x : Emission) : (s.setEmission x).counters = s.counters := rfl
@[simp] theorem setEmission_port (x : Emission) : (s.setEmission x).port = s.port := rfl
@[simp] theorem setEmission_issueSlot (x : Emission) : (s.setEmission x).issueSlot = s.issueSlot := rfl
@[simp] theorem setEmission_reader (x : Emission) : (s.setEmission x).reader = s.reader := rfl
@[simp] theorem setEmission_notices (x : Emission) : (s.setEmission x).notices = s.notices := rfl
@[simp] theorem setEmission_rstin (x : Emission) : (s.setEmission x).rstin = s.rstin := rfl
@[simp] theorem setEmission_out (x : Emission) : (s.setEmission x).out = s.out := rfl
@[simp] theorem setEmission_freeCount (x : Emission) : (s.setEmission x).freeCount = s.freeCount := rfl
@[simp] theorem setEmission_pending (x : Emission) : (s.setEmission x).pending = s.pending := rfl

@[simp] theorem setSector_time (x : Sector) : (s.setSector x).time = s.time := rfl
@[simp] theorem setSector_angle (x : Sector) : (s.setSector x).angle = s.angle := rfl
@[simp] theorem setSector_azimuth (x : Sector) : (s.setSector x).azimuth = s.azimuth := rfl
@[simp] theorem setSector_mirror (x : Sector) : (s.setSector x).mirror = s.mirror := rfl
@[simp] theorem setSector_turntable (x : Sector) : (s.setSector x).turntable = s.turntable := rfl
@[simp] theorem setSector_rest (x : Sector) : (s.setSector x).rest = s.rest := rfl
@[simp] theorem setSector_emission (x : Sector) : (s.setSector x).emission = s.emission := rfl
@[simp] theorem setSector_sector (x : Sector) : (s.setSector x).sector = x := rfl
@[simp] theorem setSector_sched (x : Sector) : (s.setSector x).sched = s.sched := rfl
@[simp] theorem setSector_shots (x : Sector) : (s.setSector x).shots = s.shots := rfl
@[simp] theorem setSector_tracker (x : Sector) : (s.setSector x).tracker = s.tracker := rfl
@[simp] theorem setSector_intake (x : Sector) : (s.setSector x).intake = s.intake := rfl
@[simp] theorem setSector_line (x : Sector) : (s.setSector x).line = s.line := rfl
@[simp] theorem setSector_staging (x : Sector) : (s.setSector x).staging = s.staging := rfl
@[simp] theorem setSector_loss (x : Sector) : (s.setSector x).loss = s.loss := rfl
@[simp] theorem setSector_markWait (x : Sector) : (s.setSector x).markWait = s.markWait := rfl
@[simp] theorem setSector_pages (x : Sector) : (s.setSector x).pages = s.pages := rfl
@[simp] theorem setSector_job (x : Sector) : (s.setSector x).job = s.job := rfl
@[simp] theorem setSector_jobSerial (x : Sector) : (s.setSector x).jobSerial = s.jobSerial := rfl
@[simp] theorem setSector_camera (x : Sector) : (s.setSector x).camera = s.camera := rfl
@[simp] theorem setSector_photo (x : Sector) : (s.setSector x).photo = s.photo := rfl
@[simp] theorem setSector_slots (x : Sector) : (s.setSector x).slots = s.slots := rfl
@[simp] theorem setSector_counters (x : Sector) : (s.setSector x).counters = s.counters := rfl
@[simp] theorem setSector_port (x : Sector) : (s.setSector x).port = s.port := rfl
@[simp] theorem setSector_issueSlot (x : Sector) : (s.setSector x).issueSlot = s.issueSlot := rfl
@[simp] theorem setSector_reader (x : Sector) : (s.setSector x).reader = s.reader := rfl
@[simp] theorem setSector_notices (x : Sector) : (s.setSector x).notices = s.notices := rfl
@[simp] theorem setSector_rstin (x : Sector) : (s.setSector x).rstin = s.rstin := rfl
@[simp] theorem setSector_out (x : Sector) : (s.setSector x).out = s.out := rfl
@[simp] theorem setSector_freeCount (x : Sector) : (s.setSector x).freeCount = s.freeCount := rfl
@[simp] theorem setSector_pending (x : Sector) : (s.setSector x).pending = s.pending := rfl

@[simp] theorem setSched_time (x : Scheduler) : (s.setSched x).time = s.time := rfl
@[simp] theorem setSched_angle (x : Scheduler) : (s.setSched x).angle = s.angle := rfl
@[simp] theorem setSched_azimuth (x : Scheduler) : (s.setSched x).azimuth = s.azimuth := rfl
@[simp] theorem setSched_mirror (x : Scheduler) : (s.setSched x).mirror = s.mirror := rfl
@[simp] theorem setSched_turntable (x : Scheduler) : (s.setSched x).turntable = s.turntable := rfl
@[simp] theorem setSched_rest (x : Scheduler) : (s.setSched x).rest = s.rest := rfl
@[simp] theorem setSched_emission (x : Scheduler) : (s.setSched x).emission = s.emission := rfl
@[simp] theorem setSched_sector (x : Scheduler) : (s.setSched x).sector = s.sector := rfl
@[simp] theorem setSched_sched (x : Scheduler) : (s.setSched x).sched = x := rfl
@[simp] theorem setSched_shots (x : Scheduler) : (s.setSched x).shots = s.shots := rfl
@[simp] theorem setSched_tracker (x : Scheduler) : (s.setSched x).tracker = s.tracker := rfl
@[simp] theorem setSched_intake (x : Scheduler) : (s.setSched x).intake = s.intake := rfl
@[simp] theorem setSched_line (x : Scheduler) : (s.setSched x).line = s.line := rfl
@[simp] theorem setSched_staging (x : Scheduler) : (s.setSched x).staging = s.staging := rfl
@[simp] theorem setSched_loss (x : Scheduler) : (s.setSched x).loss = s.loss := rfl
@[simp] theorem setSched_markWait (x : Scheduler) : (s.setSched x).markWait = s.markWait := rfl
@[simp] theorem setSched_pages (x : Scheduler) : (s.setSched x).pages = s.pages := rfl
@[simp] theorem setSched_job (x : Scheduler) : (s.setSched x).job = s.job := rfl
@[simp] theorem setSched_jobSerial (x : Scheduler) : (s.setSched x).jobSerial = s.jobSerial := rfl
@[simp] theorem setSched_camera (x : Scheduler) : (s.setSched x).camera = s.camera := rfl
@[simp] theorem setSched_photo (x : Scheduler) : (s.setSched x).photo = s.photo := rfl
@[simp] theorem setSched_slots (x : Scheduler) : (s.setSched x).slots = s.slots := rfl
@[simp] theorem setSched_counters (x : Scheduler) : (s.setSched x).counters = s.counters := rfl
@[simp] theorem setSched_port (x : Scheduler) : (s.setSched x).port = s.port := rfl
@[simp] theorem setSched_issueSlot (x : Scheduler) : (s.setSched x).issueSlot = s.issueSlot := rfl
@[simp] theorem setSched_reader (x : Scheduler) : (s.setSched x).reader = s.reader := rfl
@[simp] theorem setSched_notices (x : Scheduler) : (s.setSched x).notices = s.notices := rfl
@[simp] theorem setSched_rstin (x : Scheduler) : (s.setSched x).rstin = s.rstin := rfl
@[simp] theorem setSched_out (x : Scheduler) : (s.setSched x).out = s.out := rfl
@[simp] theorem setSched_freeCount (x : Scheduler) : (s.setSched x).freeCount = s.freeCount := rfl
@[simp] theorem setSched_pending (x : Scheduler) : (s.setSched x).pending = s.pending := rfl

@[simp] theorem setShots_time (x : List OpenShot) : (s.setShots x).time = s.time := rfl
@[simp] theorem setShots_angle (x : List OpenShot) : (s.setShots x).angle = s.angle := rfl
@[simp] theorem setShots_azimuth (x : List OpenShot) : (s.setShots x).azimuth = s.azimuth := rfl
@[simp] theorem setShots_mirror (x : List OpenShot) : (s.setShots x).mirror = s.mirror := rfl
@[simp] theorem setShots_turntable (x : List OpenShot) : (s.setShots x).turntable = s.turntable := rfl
@[simp] theorem setShots_rest (x : List OpenShot) : (s.setShots x).rest = s.rest := rfl
@[simp] theorem setShots_emission (x : List OpenShot) : (s.setShots x).emission = s.emission := rfl
@[simp] theorem setShots_sector (x : List OpenShot) : (s.setShots x).sector = s.sector := rfl
@[simp] theorem setShots_sched (x : List OpenShot) : (s.setShots x).sched = s.sched := rfl
@[simp] theorem setShots_shots (x : List OpenShot) : (s.setShots x).shots = x := rfl
@[simp] theorem setShots_tracker (x : List OpenShot) : (s.setShots x).tracker = s.tracker := rfl
@[simp] theorem setShots_intake (x : List OpenShot) : (s.setShots x).intake = s.intake := rfl
@[simp] theorem setShots_line (x : List OpenShot) : (s.setShots x).line = s.line := rfl
@[simp] theorem setShots_staging (x : List OpenShot) : (s.setShots x).staging = s.staging := rfl
@[simp] theorem setShots_loss (x : List OpenShot) : (s.setShots x).loss = s.loss := rfl
@[simp] theorem setShots_markWait (x : List OpenShot) : (s.setShots x).markWait = s.markWait := rfl
@[simp] theorem setShots_pages (x : List OpenShot) : (s.setShots x).pages = s.pages := rfl
@[simp] theorem setShots_job (x : List OpenShot) : (s.setShots x).job = s.job := rfl
@[simp] theorem setShots_jobSerial (x : List OpenShot) : (s.setShots x).jobSerial = s.jobSerial := rfl
@[simp] theorem setShots_camera (x : List OpenShot) : (s.setShots x).camera = s.camera := rfl
@[simp] theorem setShots_photo (x : List OpenShot) : (s.setShots x).photo = s.photo := rfl
@[simp] theorem setShots_slots (x : List OpenShot) : (s.setShots x).slots = s.slots := rfl
@[simp] theorem setShots_counters (x : List OpenShot) : (s.setShots x).counters = s.counters := rfl
@[simp] theorem setShots_port (x : List OpenShot) : (s.setShots x).port = s.port := rfl
@[simp] theorem setShots_issueSlot (x : List OpenShot) : (s.setShots x).issueSlot = s.issueSlot := rfl
@[simp] theorem setShots_reader (x : List OpenShot) : (s.setShots x).reader = s.reader := rfl
@[simp] theorem setShots_notices (x : List OpenShot) : (s.setShots x).notices = s.notices := rfl
@[simp] theorem setShots_rstin (x : List OpenShot) : (s.setShots x).rstin = s.rstin := rfl
@[simp] theorem setShots_out (x : List OpenShot) : (s.setShots x).out = s.out := rfl
@[simp] theorem setShots_freeCount (x : List OpenShot) : (s.setShots x).freeCount = s.freeCount := rfl
@[simp] theorem setShots_pending (x : List OpenShot) : (s.setShots x).pending = s.pending := rfl

@[simp] theorem setTracker_time (x : Tracker) : (s.setTracker x).time = s.time := rfl
@[simp] theorem setTracker_angle (x : Tracker) : (s.setTracker x).angle = s.angle := rfl
@[simp] theorem setTracker_azimuth (x : Tracker) : (s.setTracker x).azimuth = s.azimuth := rfl
@[simp] theorem setTracker_mirror (x : Tracker) : (s.setTracker x).mirror = s.mirror := rfl
@[simp] theorem setTracker_turntable (x : Tracker) : (s.setTracker x).turntable = s.turntable := rfl
@[simp] theorem setTracker_rest (x : Tracker) : (s.setTracker x).rest = s.rest := rfl
@[simp] theorem setTracker_emission (x : Tracker) : (s.setTracker x).emission = s.emission := rfl
@[simp] theorem setTracker_sector (x : Tracker) : (s.setTracker x).sector = s.sector := rfl
@[simp] theorem setTracker_sched (x : Tracker) : (s.setTracker x).sched = s.sched := rfl
@[simp] theorem setTracker_shots (x : Tracker) : (s.setTracker x).shots = s.shots := rfl
@[simp] theorem setTracker_tracker (x : Tracker) : (s.setTracker x).tracker = x := rfl
@[simp] theorem setTracker_intake (x : Tracker) : (s.setTracker x).intake = s.intake := rfl
@[simp] theorem setTracker_line (x : Tracker) : (s.setTracker x).line = s.line := rfl
@[simp] theorem setTracker_staging (x : Tracker) : (s.setTracker x).staging = s.staging := rfl
@[simp] theorem setTracker_loss (x : Tracker) : (s.setTracker x).loss = s.loss := rfl
@[simp] theorem setTracker_markWait (x : Tracker) : (s.setTracker x).markWait = s.markWait := rfl
@[simp] theorem setTracker_pages (x : Tracker) : (s.setTracker x).pages = s.pages := rfl
@[simp] theorem setTracker_job (x : Tracker) : (s.setTracker x).job = s.job := rfl
@[simp] theorem setTracker_jobSerial (x : Tracker) : (s.setTracker x).jobSerial = s.jobSerial := rfl
@[simp] theorem setTracker_camera (x : Tracker) : (s.setTracker x).camera = s.camera := rfl
@[simp] theorem setTracker_photo (x : Tracker) : (s.setTracker x).photo = s.photo := rfl
@[simp] theorem setTracker_slots (x : Tracker) : (s.setTracker x).slots = s.slots := rfl
@[simp] theorem setTracker_counters (x : Tracker) : (s.setTracker x).counters = s.counters := rfl
@[simp] theorem setTracker_port (x : Tracker) : (s.setTracker x).port = s.port := rfl
@[simp] theorem setTracker_issueSlot (x : Tracker) : (s.setTracker x).issueSlot = s.issueSlot := rfl
@[simp] theorem setTracker_reader (x : Tracker) : (s.setTracker x).reader = s.reader := rfl
@[simp] theorem setTracker_notices (x : Tracker) : (s.setTracker x).notices = s.notices := rfl
@[simp] theorem setTracker_rstin (x : Tracker) : (s.setTracker x).rstin = s.rstin := rfl
@[simp] theorem setTracker_out (x : Tracker) : (s.setTracker x).out = s.out := rfl
@[simp] theorem setTracker_freeCount (x : Tracker) : (s.setTracker x).freeCount = s.freeCount := rfl
@[simp] theorem setTracker_pending (x : Tracker) : (s.setTracker x).pending = s.pending := rfl

@[simp] theorem setIntake_time (x : Intake) : (s.setIntake x).time = s.time := rfl
@[simp] theorem setIntake_angle (x : Intake) : (s.setIntake x).angle = s.angle := rfl
@[simp] theorem setIntake_azimuth (x : Intake) : (s.setIntake x).azimuth = s.azimuth := rfl
@[simp] theorem setIntake_mirror (x : Intake) : (s.setIntake x).mirror = s.mirror := rfl
@[simp] theorem setIntake_turntable (x : Intake) : (s.setIntake x).turntable = s.turntable := rfl
@[simp] theorem setIntake_rest (x : Intake) : (s.setIntake x).rest = s.rest := rfl
@[simp] theorem setIntake_emission (x : Intake) : (s.setIntake x).emission = s.emission := rfl
@[simp] theorem setIntake_sector (x : Intake) : (s.setIntake x).sector = s.sector := rfl
@[simp] theorem setIntake_sched (x : Intake) : (s.setIntake x).sched = s.sched := rfl
@[simp] theorem setIntake_shots (x : Intake) : (s.setIntake x).shots = s.shots := rfl
@[simp] theorem setIntake_tracker (x : Intake) : (s.setIntake x).tracker = s.tracker := rfl
@[simp] theorem setIntake_intake (x : Intake) : (s.setIntake x).intake = x := rfl
@[simp] theorem setIntake_line (x : Intake) : (s.setIntake x).line = s.line := rfl
@[simp] theorem setIntake_staging (x : Intake) : (s.setIntake x).staging = s.staging := rfl
@[simp] theorem setIntake_loss (x : Intake) : (s.setIntake x).loss = s.loss := rfl
@[simp] theorem setIntake_markWait (x : Intake) : (s.setIntake x).markWait = s.markWait := rfl
@[simp] theorem setIntake_pages (x : Intake) : (s.setIntake x).pages = s.pages := rfl
@[simp] theorem setIntake_job (x : Intake) : (s.setIntake x).job = s.job := rfl
@[simp] theorem setIntake_jobSerial (x : Intake) : (s.setIntake x).jobSerial = s.jobSerial := rfl
@[simp] theorem setIntake_camera (x : Intake) : (s.setIntake x).camera = s.camera := rfl
@[simp] theorem setIntake_photo (x : Intake) : (s.setIntake x).photo = s.photo := rfl
@[simp] theorem setIntake_slots (x : Intake) : (s.setIntake x).slots = s.slots := rfl
@[simp] theorem setIntake_counters (x : Intake) : (s.setIntake x).counters = s.counters := rfl
@[simp] theorem setIntake_port (x : Intake) : (s.setIntake x).port = s.port := rfl
@[simp] theorem setIntake_issueSlot (x : Intake) : (s.setIntake x).issueSlot = s.issueSlot := rfl
@[simp] theorem setIntake_reader (x : Intake) : (s.setIntake x).reader = s.reader := rfl
@[simp] theorem setIntake_notices (x : Intake) : (s.setIntake x).notices = s.notices := rfl
@[simp] theorem setIntake_rstin (x : Intake) : (s.setIntake x).rstin = s.rstin := rfl
@[simp] theorem setIntake_out (x : Intake) : (s.setIntake x).out = s.out := rfl
@[simp] theorem setIntake_freeCount (x : Intake) : (s.setIntake x).freeCount = s.freeCount := rfl
@[simp] theorem setIntake_pending (x : Intake) : (s.setIntake x).pending = s.pending := rfl

@[simp] theorem setLine_time (x : LineState) : (s.setLine x).time = s.time := rfl
@[simp] theorem setLine_angle (x : LineState) : (s.setLine x).angle = s.angle := rfl
@[simp] theorem setLine_azimuth (x : LineState) : (s.setLine x).azimuth = s.azimuth := rfl
@[simp] theorem setLine_mirror (x : LineState) : (s.setLine x).mirror = s.mirror := rfl
@[simp] theorem setLine_turntable (x : LineState) : (s.setLine x).turntable = s.turntable := rfl
@[simp] theorem setLine_rest (x : LineState) : (s.setLine x).rest = s.rest := rfl
@[simp] theorem setLine_emission (x : LineState) : (s.setLine x).emission = s.emission := rfl
@[simp] theorem setLine_sector (x : LineState) : (s.setLine x).sector = s.sector := rfl
@[simp] theorem setLine_sched (x : LineState) : (s.setLine x).sched = s.sched := rfl
@[simp] theorem setLine_shots (x : LineState) : (s.setLine x).shots = s.shots := rfl
@[simp] theorem setLine_tracker (x : LineState) : (s.setLine x).tracker = s.tracker := rfl
@[simp] theorem setLine_intake (x : LineState) : (s.setLine x).intake = s.intake := rfl
@[simp] theorem setLine_line (x : LineState) : (s.setLine x).line = x := rfl
@[simp] theorem setLine_staging (x : LineState) : (s.setLine x).staging = s.staging := rfl
@[simp] theorem setLine_loss (x : LineState) : (s.setLine x).loss = s.loss := rfl
@[simp] theorem setLine_markWait (x : LineState) : (s.setLine x).markWait = s.markWait := rfl
@[simp] theorem setLine_pages (x : LineState) : (s.setLine x).pages = s.pages := rfl
@[simp] theorem setLine_job (x : LineState) : (s.setLine x).job = s.job := rfl
@[simp] theorem setLine_jobSerial (x : LineState) : (s.setLine x).jobSerial = s.jobSerial := rfl
@[simp] theorem setLine_camera (x : LineState) : (s.setLine x).camera = s.camera := rfl
@[simp] theorem setLine_photo (x : LineState) : (s.setLine x).photo = s.photo := rfl
@[simp] theorem setLine_slots (x : LineState) : (s.setLine x).slots = s.slots := rfl
@[simp] theorem setLine_counters (x : LineState) : (s.setLine x).counters = s.counters := rfl
@[simp] theorem setLine_port (x : LineState) : (s.setLine x).port = s.port := rfl
@[simp] theorem setLine_issueSlot (x : LineState) : (s.setLine x).issueSlot = s.issueSlot := rfl
@[simp] theorem setLine_reader (x : LineState) : (s.setLine x).reader = s.reader := rfl
@[simp] theorem setLine_notices (x : LineState) : (s.setLine x).notices = s.notices := rfl
@[simp] theorem setLine_rstin (x : LineState) : (s.setLine x).rstin = s.rstin := rfl
@[simp] theorem setLine_out (x : LineState) : (s.setLine x).out = s.out := rfl
@[simp] theorem setLine_freeCount (x : LineState) : (s.setLine x).freeCount = s.freeCount := rfl
@[simp] theorem setLine_pending (x : LineState) : (s.setLine x).pending = s.pending := rfl

@[simp] theorem setStaging_time (x : Staging) : (s.setStaging x).time = s.time := rfl
@[simp] theorem setStaging_angle (x : Staging) : (s.setStaging x).angle = s.angle := rfl
@[simp] theorem setStaging_azimuth (x : Staging) : (s.setStaging x).azimuth = s.azimuth := rfl
@[simp] theorem setStaging_mirror (x : Staging) : (s.setStaging x).mirror = s.mirror := rfl
@[simp] theorem setStaging_turntable (x : Staging) : (s.setStaging x).turntable = s.turntable := rfl
@[simp] theorem setStaging_rest (x : Staging) : (s.setStaging x).rest = s.rest := rfl
@[simp] theorem setStaging_emission (x : Staging) : (s.setStaging x).emission = s.emission := rfl
@[simp] theorem setStaging_sector (x : Staging) : (s.setStaging x).sector = s.sector := rfl
@[simp] theorem setStaging_sched (x : Staging) : (s.setStaging x).sched = s.sched := rfl
@[simp] theorem setStaging_shots (x : Staging) : (s.setStaging x).shots = s.shots := rfl
@[simp] theorem setStaging_tracker (x : Staging) : (s.setStaging x).tracker = s.tracker := rfl
@[simp] theorem setStaging_intake (x : Staging) : (s.setStaging x).intake = s.intake := rfl
@[simp] theorem setStaging_line (x : Staging) : (s.setStaging x).line = s.line := rfl
@[simp] theorem setStaging_staging (x : Staging) : (s.setStaging x).staging = x := rfl
@[simp] theorem setStaging_loss (x : Staging) : (s.setStaging x).loss = s.loss := rfl
@[simp] theorem setStaging_markWait (x : Staging) : (s.setStaging x).markWait = s.markWait := rfl
@[simp] theorem setStaging_pages (x : Staging) : (s.setStaging x).pages = s.pages := rfl
@[simp] theorem setStaging_job (x : Staging) : (s.setStaging x).job = s.job := rfl
@[simp] theorem setStaging_jobSerial (x : Staging) : (s.setStaging x).jobSerial = s.jobSerial := rfl
@[simp] theorem setStaging_camera (x : Staging) : (s.setStaging x).camera = s.camera := rfl
@[simp] theorem setStaging_photo (x : Staging) : (s.setStaging x).photo = s.photo := rfl
@[simp] theorem setStaging_slots (x : Staging) : (s.setStaging x).slots = s.slots := rfl
@[simp] theorem setStaging_counters (x : Staging) : (s.setStaging x).counters = s.counters := rfl
@[simp] theorem setStaging_port (x : Staging) : (s.setStaging x).port = s.port := rfl
@[simp] theorem setStaging_issueSlot (x : Staging) : (s.setStaging x).issueSlot = s.issueSlot := rfl
@[simp] theorem setStaging_reader (x : Staging) : (s.setStaging x).reader = s.reader := rfl
@[simp] theorem setStaging_notices (x : Staging) : (s.setStaging x).notices = s.notices := rfl
@[simp] theorem setStaging_rstin (x : Staging) : (s.setStaging x).rstin = s.rstin := rfl
@[simp] theorem setStaging_out (x : Staging) : (s.setStaging x).out = s.out := rfl
@[simp] theorem setStaging_freeCount (x : Staging) : (s.setStaging x).freeCount = s.freeCount := rfl
@[simp] theorem setStaging_pending (x : Staging) : (s.setStaging x).pending = s.pending := rfl

@[simp] theorem setLoss_time (x : Loss) : (s.setLoss x).time = s.time := rfl
@[simp] theorem setLoss_angle (x : Loss) : (s.setLoss x).angle = s.angle := rfl
@[simp] theorem setLoss_azimuth (x : Loss) : (s.setLoss x).azimuth = s.azimuth := rfl
@[simp] theorem setLoss_mirror (x : Loss) : (s.setLoss x).mirror = s.mirror := rfl
@[simp] theorem setLoss_turntable (x : Loss) : (s.setLoss x).turntable = s.turntable := rfl
@[simp] theorem setLoss_rest (x : Loss) : (s.setLoss x).rest = s.rest := rfl
@[simp] theorem setLoss_emission (x : Loss) : (s.setLoss x).emission = s.emission := rfl
@[simp] theorem setLoss_sector (x : Loss) : (s.setLoss x).sector = s.sector := rfl
@[simp] theorem setLoss_sched (x : Loss) : (s.setLoss x).sched = s.sched := rfl
@[simp] theorem setLoss_shots (x : Loss) : (s.setLoss x).shots = s.shots := rfl
@[simp] theorem setLoss_tracker (x : Loss) : (s.setLoss x).tracker = s.tracker := rfl
@[simp] theorem setLoss_intake (x : Loss) : (s.setLoss x).intake = s.intake := rfl
@[simp] theorem setLoss_line (x : Loss) : (s.setLoss x).line = s.line := rfl
@[simp] theorem setLoss_staging (x : Loss) : (s.setLoss x).staging = s.staging := rfl
@[simp] theorem setLoss_loss (x : Loss) : (s.setLoss x).loss = x := rfl
@[simp] theorem setLoss_markWait (x : Loss) : (s.setLoss x).markWait = s.markWait := rfl
@[simp] theorem setLoss_pages (x : Loss) : (s.setLoss x).pages = s.pages := rfl
@[simp] theorem setLoss_job (x : Loss) : (s.setLoss x).job = s.job := rfl
@[simp] theorem setLoss_jobSerial (x : Loss) : (s.setLoss x).jobSerial = s.jobSerial := rfl
@[simp] theorem setLoss_camera (x : Loss) : (s.setLoss x).camera = s.camera := rfl
@[simp] theorem setLoss_photo (x : Loss) : (s.setLoss x).photo = s.photo := rfl
@[simp] theorem setLoss_slots (x : Loss) : (s.setLoss x).slots = s.slots := rfl
@[simp] theorem setLoss_counters (x : Loss) : (s.setLoss x).counters = s.counters := rfl
@[simp] theorem setLoss_port (x : Loss) : (s.setLoss x).port = s.port := rfl
@[simp] theorem setLoss_issueSlot (x : Loss) : (s.setLoss x).issueSlot = s.issueSlot := rfl
@[simp] theorem setLoss_reader (x : Loss) : (s.setLoss x).reader = s.reader := rfl
@[simp] theorem setLoss_notices (x : Loss) : (s.setLoss x).notices = s.notices := rfl
@[simp] theorem setLoss_rstin (x : Loss) : (s.setLoss x).rstin = s.rstin := rfl
@[simp] theorem setLoss_out (x : Loss) : (s.setLoss x).out = s.out := rfl
@[simp] theorem setLoss_freeCount (x : Loss) : (s.setLoss x).freeCount = s.freeCount := rfl
@[simp] theorem setLoss_pending (x : Loss) : (s.setLoss x).pending = s.pending := rfl

@[simp] theorem setMarkWait_time (x : Option Nat) : (s.setMarkWait x).time = s.time := rfl
@[simp] theorem setMarkWait_angle (x : Option Nat) : (s.setMarkWait x).angle = s.angle := rfl
@[simp] theorem setMarkWait_azimuth (x : Option Nat) : (s.setMarkWait x).azimuth = s.azimuth := rfl
@[simp] theorem setMarkWait_mirror (x : Option Nat) : (s.setMarkWait x).mirror = s.mirror := rfl
@[simp] theorem setMarkWait_turntable (x : Option Nat) : (s.setMarkWait x).turntable = s.turntable := rfl
@[simp] theorem setMarkWait_rest (x : Option Nat) : (s.setMarkWait x).rest = s.rest := rfl
@[simp] theorem setMarkWait_emission (x : Option Nat) : (s.setMarkWait x).emission = s.emission := rfl
@[simp] theorem setMarkWait_sector (x : Option Nat) : (s.setMarkWait x).sector = s.sector := rfl
@[simp] theorem setMarkWait_sched (x : Option Nat) : (s.setMarkWait x).sched = s.sched := rfl
@[simp] theorem setMarkWait_shots (x : Option Nat) : (s.setMarkWait x).shots = s.shots := rfl
@[simp] theorem setMarkWait_tracker (x : Option Nat) : (s.setMarkWait x).tracker = s.tracker := rfl
@[simp] theorem setMarkWait_intake (x : Option Nat) : (s.setMarkWait x).intake = s.intake := rfl
@[simp] theorem setMarkWait_line (x : Option Nat) : (s.setMarkWait x).line = s.line := rfl
@[simp] theorem setMarkWait_staging (x : Option Nat) : (s.setMarkWait x).staging = s.staging := rfl
@[simp] theorem setMarkWait_loss (x : Option Nat) : (s.setMarkWait x).loss = s.loss := rfl
@[simp] theorem setMarkWait_markWait (x : Option Nat) : (s.setMarkWait x).markWait = x := rfl
@[simp] theorem setMarkWait_pages (x : Option Nat) : (s.setMarkWait x).pages = s.pages := rfl
@[simp] theorem setMarkWait_job (x : Option Nat) : (s.setMarkWait x).job = s.job := rfl
@[simp] theorem setMarkWait_jobSerial (x : Option Nat) : (s.setMarkWait x).jobSerial = s.jobSerial := rfl
@[simp] theorem setMarkWait_camera (x : Option Nat) : (s.setMarkWait x).camera = s.camera := rfl
@[simp] theorem setMarkWait_photo (x : Option Nat) : (s.setMarkWait x).photo = s.photo := rfl
@[simp] theorem setMarkWait_slots (x : Option Nat) : (s.setMarkWait x).slots = s.slots := rfl
@[simp] theorem setMarkWait_counters (x : Option Nat) : (s.setMarkWait x).counters = s.counters := rfl
@[simp] theorem setMarkWait_port (x : Option Nat) : (s.setMarkWait x).port = s.port := rfl
@[simp] theorem setMarkWait_issueSlot (x : Option Nat) : (s.setMarkWait x).issueSlot = s.issueSlot := rfl
@[simp] theorem setMarkWait_reader (x : Option Nat) : (s.setMarkWait x).reader = s.reader := rfl
@[simp] theorem setMarkWait_notices (x : Option Nat) : (s.setMarkWait x).notices = s.notices := rfl
@[simp] theorem setMarkWait_rstin (x : Option Nat) : (s.setMarkWait x).rstin = s.rstin := rfl
@[simp] theorem setMarkWait_out (x : Option Nat) : (s.setMarkWait x).out = s.out := rfl
@[simp] theorem setMarkWait_freeCount (x : Option Nat) : (s.setMarkWait x).freeCount = s.freeCount := rfl
@[simp] theorem setMarkWait_pending (x : Option Nat) : (s.setMarkWait x).pending = s.pending := rfl

@[simp] theorem setPages_time (x : Pages) : (s.setPages x).time = s.time := rfl
@[simp] theorem setPages_angle (x : Pages) : (s.setPages x).angle = s.angle := rfl
@[simp] theorem setPages_azimuth (x : Pages) : (s.setPages x).azimuth = s.azimuth := rfl
@[simp] theorem setPages_mirror (x : Pages) : (s.setPages x).mirror = s.mirror := rfl
@[simp] theorem setPages_turntable (x : Pages) : (s.setPages x).turntable = s.turntable := rfl
@[simp] theorem setPages_rest (x : Pages) : (s.setPages x).rest = s.rest := rfl
@[simp] theorem setPages_emission (x : Pages) : (s.setPages x).emission = s.emission := rfl
@[simp] theorem setPages_sector (x : Pages) : (s.setPages x).sector = s.sector := rfl
@[simp] theorem setPages_sched (x : Pages) : (s.setPages x).sched = s.sched := rfl
@[simp] theorem setPages_shots (x : Pages) : (s.setPages x).shots = s.shots := rfl
@[simp] theorem setPages_tracker (x : Pages) : (s.setPages x).tracker = s.tracker := rfl
@[simp] theorem setPages_intake (x : Pages) : (s.setPages x).intake = s.intake := rfl
@[simp] theorem setPages_line (x : Pages) : (s.setPages x).line = s.line := rfl
@[simp] theorem setPages_staging (x : Pages) : (s.setPages x).staging = s.staging := rfl
@[simp] theorem setPages_loss (x : Pages) : (s.setPages x).loss = s.loss := rfl
@[simp] theorem setPages_markWait (x : Pages) : (s.setPages x).markWait = s.markWait := rfl
@[simp] theorem setPages_pages (x : Pages) : (s.setPages x).pages = x := rfl
@[simp] theorem setPages_job (x : Pages) : (s.setPages x).job = s.job := rfl
@[simp] theorem setPages_jobSerial (x : Pages) : (s.setPages x).jobSerial = s.jobSerial := rfl
@[simp] theorem setPages_camera (x : Pages) : (s.setPages x).camera = s.camera := rfl
@[simp] theorem setPages_photo (x : Pages) : (s.setPages x).photo = s.photo := rfl
@[simp] theorem setPages_slots (x : Pages) : (s.setPages x).slots = s.slots := rfl
@[simp] theorem setPages_counters (x : Pages) : (s.setPages x).counters = s.counters := rfl
@[simp] theorem setPages_port (x : Pages) : (s.setPages x).port = s.port := rfl
@[simp] theorem setPages_issueSlot (x : Pages) : (s.setPages x).issueSlot = s.issueSlot := rfl
@[simp] theorem setPages_reader (x : Pages) : (s.setPages x).reader = s.reader := rfl
@[simp] theorem setPages_notices (x : Pages) : (s.setPages x).notices = s.notices := rfl
@[simp] theorem setPages_rstin (x : Pages) : (s.setPages x).rstin = s.rstin := rfl
@[simp] theorem setPages_out (x : Pages) : (s.setPages x).out = s.out := rfl
@[simp] theorem setPages_freeCount (x : Pages) : (s.setPages x).freeCount = s.freeCount := rfl
@[simp] theorem setPages_pending (x : Pages) : (s.setPages x).pending = s.pending := rfl

@[simp] theorem setJob_time (x : Option Job) : (s.setJob x).time = s.time := rfl
@[simp] theorem setJob_angle (x : Option Job) : (s.setJob x).angle = s.angle := rfl
@[simp] theorem setJob_azimuth (x : Option Job) : (s.setJob x).azimuth = s.azimuth := rfl
@[simp] theorem setJob_mirror (x : Option Job) : (s.setJob x).mirror = s.mirror := rfl
@[simp] theorem setJob_turntable (x : Option Job) : (s.setJob x).turntable = s.turntable := rfl
@[simp] theorem setJob_rest (x : Option Job) : (s.setJob x).rest = s.rest := rfl
@[simp] theorem setJob_emission (x : Option Job) : (s.setJob x).emission = s.emission := rfl
@[simp] theorem setJob_sector (x : Option Job) : (s.setJob x).sector = s.sector := rfl
@[simp] theorem setJob_sched (x : Option Job) : (s.setJob x).sched = s.sched := rfl
@[simp] theorem setJob_shots (x : Option Job) : (s.setJob x).shots = s.shots := rfl
@[simp] theorem setJob_tracker (x : Option Job) : (s.setJob x).tracker = s.tracker := rfl
@[simp] theorem setJob_intake (x : Option Job) : (s.setJob x).intake = s.intake := rfl
@[simp] theorem setJob_line (x : Option Job) : (s.setJob x).line = s.line := rfl
@[simp] theorem setJob_staging (x : Option Job) : (s.setJob x).staging = s.staging := rfl
@[simp] theorem setJob_loss (x : Option Job) : (s.setJob x).loss = s.loss := rfl
@[simp] theorem setJob_markWait (x : Option Job) : (s.setJob x).markWait = s.markWait := rfl
@[simp] theorem setJob_pages (x : Option Job) : (s.setJob x).pages = s.pages := rfl
@[simp] theorem setJob_job (x : Option Job) : (s.setJob x).job = x := rfl
@[simp] theorem setJob_jobSerial (x : Option Job) : (s.setJob x).jobSerial = s.jobSerial := rfl
@[simp] theorem setJob_camera (x : Option Job) : (s.setJob x).camera = s.camera := rfl
@[simp] theorem setJob_photo (x : Option Job) : (s.setJob x).photo = s.photo := rfl
@[simp] theorem setJob_slots (x : Option Job) : (s.setJob x).slots = s.slots := rfl
@[simp] theorem setJob_counters (x : Option Job) : (s.setJob x).counters = s.counters := rfl
@[simp] theorem setJob_port (x : Option Job) : (s.setJob x).port = s.port := rfl
@[simp] theorem setJob_issueSlot (x : Option Job) : (s.setJob x).issueSlot = s.issueSlot := rfl
@[simp] theorem setJob_reader (x : Option Job) : (s.setJob x).reader = s.reader := rfl
@[simp] theorem setJob_notices (x : Option Job) : (s.setJob x).notices = s.notices := rfl
@[simp] theorem setJob_rstin (x : Option Job) : (s.setJob x).rstin = s.rstin := rfl
@[simp] theorem setJob_out (x : Option Job) : (s.setJob x).out = s.out := rfl
@[simp] theorem setJob_freeCount (x : Option Job) : (s.setJob x).freeCount = s.freeCount := rfl
@[simp] theorem setJob_pending (x : Option Job) : (s.setJob x).pending = s.pending := rfl

@[simp] theorem setJobSerial_time (x : Nat) : (s.setJobSerial x).time = s.time := rfl
@[simp] theorem setJobSerial_angle (x : Nat) : (s.setJobSerial x).angle = s.angle := rfl
@[simp] theorem setJobSerial_azimuth (x : Nat) : (s.setJobSerial x).azimuth = s.azimuth := rfl
@[simp] theorem setJobSerial_mirror (x : Nat) : (s.setJobSerial x).mirror = s.mirror := rfl
@[simp] theorem setJobSerial_turntable (x : Nat) : (s.setJobSerial x).turntable = s.turntable := rfl
@[simp] theorem setJobSerial_rest (x : Nat) : (s.setJobSerial x).rest = s.rest := rfl
@[simp] theorem setJobSerial_emission (x : Nat) : (s.setJobSerial x).emission = s.emission := rfl
@[simp] theorem setJobSerial_sector (x : Nat) : (s.setJobSerial x).sector = s.sector := rfl
@[simp] theorem setJobSerial_sched (x : Nat) : (s.setJobSerial x).sched = s.sched := rfl
@[simp] theorem setJobSerial_shots (x : Nat) : (s.setJobSerial x).shots = s.shots := rfl
@[simp] theorem setJobSerial_tracker (x : Nat) : (s.setJobSerial x).tracker = s.tracker := rfl
@[simp] theorem setJobSerial_intake (x : Nat) : (s.setJobSerial x).intake = s.intake := rfl
@[simp] theorem setJobSerial_line (x : Nat) : (s.setJobSerial x).line = s.line := rfl
@[simp] theorem setJobSerial_staging (x : Nat) : (s.setJobSerial x).staging = s.staging := rfl
@[simp] theorem setJobSerial_loss (x : Nat) : (s.setJobSerial x).loss = s.loss := rfl
@[simp] theorem setJobSerial_markWait (x : Nat) : (s.setJobSerial x).markWait = s.markWait := rfl
@[simp] theorem setJobSerial_pages (x : Nat) : (s.setJobSerial x).pages = s.pages := rfl
@[simp] theorem setJobSerial_job (x : Nat) : (s.setJobSerial x).job = s.job := rfl
@[simp] theorem setJobSerial_jobSerial (x : Nat) : (s.setJobSerial x).jobSerial = x := rfl
@[simp] theorem setJobSerial_camera (x : Nat) : (s.setJobSerial x).camera = s.camera := rfl
@[simp] theorem setJobSerial_photo (x : Nat) : (s.setJobSerial x).photo = s.photo := rfl
@[simp] theorem setJobSerial_slots (x : Nat) : (s.setJobSerial x).slots = s.slots := rfl
@[simp] theorem setJobSerial_counters (x : Nat) : (s.setJobSerial x).counters = s.counters := rfl
@[simp] theorem setJobSerial_port (x : Nat) : (s.setJobSerial x).port = s.port := rfl
@[simp] theorem setJobSerial_issueSlot (x : Nat) : (s.setJobSerial x).issueSlot = s.issueSlot := rfl
@[simp] theorem setJobSerial_reader (x : Nat) : (s.setJobSerial x).reader = s.reader := rfl
@[simp] theorem setJobSerial_notices (x : Nat) : (s.setJobSerial x).notices = s.notices := rfl
@[simp] theorem setJobSerial_rstin (x : Nat) : (s.setJobSerial x).rstin = s.rstin := rfl
@[simp] theorem setJobSerial_out (x : Nat) : (s.setJobSerial x).out = s.out := rfl
@[simp] theorem setJobSerial_freeCount (x : Nat) : (s.setJobSerial x).freeCount = s.freeCount := rfl
@[simp] theorem setJobSerial_pending (x : Nat) : (s.setJobSerial x).pending = s.pending := rfl

@[simp] theorem setCamera_time (x : Camera) : (s.setCamera x).time = s.time := rfl
@[simp] theorem setCamera_angle (x : Camera) : (s.setCamera x).angle = s.angle := rfl
@[simp] theorem setCamera_azimuth (x : Camera) : (s.setCamera x).azimuth = s.azimuth := rfl
@[simp] theorem setCamera_mirror (x : Camera) : (s.setCamera x).mirror = s.mirror := rfl
@[simp] theorem setCamera_turntable (x : Camera) : (s.setCamera x).turntable = s.turntable := rfl
@[simp] theorem setCamera_rest (x : Camera) : (s.setCamera x).rest = s.rest := rfl
@[simp] theorem setCamera_emission (x : Camera) : (s.setCamera x).emission = s.emission := rfl
@[simp] theorem setCamera_sector (x : Camera) : (s.setCamera x).sector = s.sector := rfl
@[simp] theorem setCamera_sched (x : Camera) : (s.setCamera x).sched = s.sched := rfl
@[simp] theorem setCamera_shots (x : Camera) : (s.setCamera x).shots = s.shots := rfl
@[simp] theorem setCamera_tracker (x : Camera) : (s.setCamera x).tracker = s.tracker := rfl
@[simp] theorem setCamera_intake (x : Camera) : (s.setCamera x).intake = s.intake := rfl
@[simp] theorem setCamera_line (x : Camera) : (s.setCamera x).line = s.line := rfl
@[simp] theorem setCamera_staging (x : Camera) : (s.setCamera x).staging = s.staging := rfl
@[simp] theorem setCamera_loss (x : Camera) : (s.setCamera x).loss = s.loss := rfl
@[simp] theorem setCamera_markWait (x : Camera) : (s.setCamera x).markWait = s.markWait := rfl
@[simp] theorem setCamera_pages (x : Camera) : (s.setCamera x).pages = s.pages := rfl
@[simp] theorem setCamera_job (x : Camera) : (s.setCamera x).job = s.job := rfl
@[simp] theorem setCamera_jobSerial (x : Camera) : (s.setCamera x).jobSerial = s.jobSerial := rfl
@[simp] theorem setCamera_camera (x : Camera) : (s.setCamera x).camera = x := rfl
@[simp] theorem setCamera_photo (x : Camera) : (s.setCamera x).photo = s.photo := rfl
@[simp] theorem setCamera_slots (x : Camera) : (s.setCamera x).slots = s.slots := rfl
@[simp] theorem setCamera_counters (x : Camera) : (s.setCamera x).counters = s.counters := rfl
@[simp] theorem setCamera_port (x : Camera) : (s.setCamera x).port = s.port := rfl
@[simp] theorem setCamera_issueSlot (x : Camera) : (s.setCamera x).issueSlot = s.issueSlot := rfl
@[simp] theorem setCamera_reader (x : Camera) : (s.setCamera x).reader = s.reader := rfl
@[simp] theorem setCamera_notices (x : Camera) : (s.setCamera x).notices = s.notices := rfl
@[simp] theorem setCamera_rstin (x : Camera) : (s.setCamera x).rstin = s.rstin := rfl
@[simp] theorem setCamera_out (x : Camera) : (s.setCamera x).out = s.out := rfl
@[simp] theorem setCamera_freeCount (x : Camera) : (s.setCamera x).freeCount = s.freeCount := rfl
@[simp] theorem setCamera_pending (x : Camera) : (s.setCamera x).pending = s.pending := rfl

@[simp] theorem setPhoto_time (x : Photo) : (s.setPhoto x).time = s.time := rfl
@[simp] theorem setPhoto_angle (x : Photo) : (s.setPhoto x).angle = s.angle := rfl
@[simp] theorem setPhoto_azimuth (x : Photo) : (s.setPhoto x).azimuth = s.azimuth := rfl
@[simp] theorem setPhoto_mirror (x : Photo) : (s.setPhoto x).mirror = s.mirror := rfl
@[simp] theorem setPhoto_turntable (x : Photo) : (s.setPhoto x).turntable = s.turntable := rfl
@[simp] theorem setPhoto_rest (x : Photo) : (s.setPhoto x).rest = s.rest := rfl
@[simp] theorem setPhoto_emission (x : Photo) : (s.setPhoto x).emission = s.emission := rfl
@[simp] theorem setPhoto_sector (x : Photo) : (s.setPhoto x).sector = s.sector := rfl
@[simp] theorem setPhoto_sched (x : Photo) : (s.setPhoto x).sched = s.sched := rfl
@[simp] theorem setPhoto_shots (x : Photo) : (s.setPhoto x).shots = s.shots := rfl
@[simp] theorem setPhoto_tracker (x : Photo) : (s.setPhoto x).tracker = s.tracker := rfl
@[simp] theorem setPhoto_intake (x : Photo) : (s.setPhoto x).intake = s.intake := rfl
@[simp] theorem setPhoto_line (x : Photo) : (s.setPhoto x).line = s.line := rfl
@[simp] theorem setPhoto_staging (x : Photo) : (s.setPhoto x).staging = s.staging := rfl
@[simp] theorem setPhoto_loss (x : Photo) : (s.setPhoto x).loss = s.loss := rfl
@[simp] theorem setPhoto_markWait (x : Photo) : (s.setPhoto x).markWait = s.markWait := rfl
@[simp] theorem setPhoto_pages (x : Photo) : (s.setPhoto x).pages = s.pages := rfl
@[simp] theorem setPhoto_job (x : Photo) : (s.setPhoto x).job = s.job := rfl
@[simp] theorem setPhoto_jobSerial (x : Photo) : (s.setPhoto x).jobSerial = s.jobSerial := rfl
@[simp] theorem setPhoto_camera (x : Photo) : (s.setPhoto x).camera = s.camera := rfl
@[simp] theorem setPhoto_photo (x : Photo) : (s.setPhoto x).photo = x := rfl
@[simp] theorem setPhoto_slots (x : Photo) : (s.setPhoto x).slots = s.slots := rfl
@[simp] theorem setPhoto_counters (x : Photo) : (s.setPhoto x).counters = s.counters := rfl
@[simp] theorem setPhoto_port (x : Photo) : (s.setPhoto x).port = s.port := rfl
@[simp] theorem setPhoto_issueSlot (x : Photo) : (s.setPhoto x).issueSlot = s.issueSlot := rfl
@[simp] theorem setPhoto_reader (x : Photo) : (s.setPhoto x).reader = s.reader := rfl
@[simp] theorem setPhoto_notices (x : Photo) : (s.setPhoto x).notices = s.notices := rfl
@[simp] theorem setPhoto_rstin (x : Photo) : (s.setPhoto x).rstin = s.rstin := rfl
@[simp] theorem setPhoto_out (x : Photo) : (s.setPhoto x).out = s.out := rfl
@[simp] theorem setPhoto_freeCount (x : Photo) : (s.setPhoto x).freeCount = s.freeCount := rfl
@[simp] theorem setPhoto_pending (x : Photo) : (s.setPhoto x).pending = s.pending := rfl

@[simp] theorem setSlots_time (x : Slots) : (s.setSlots x).time = s.time := rfl
@[simp] theorem setSlots_angle (x : Slots) : (s.setSlots x).angle = s.angle := rfl
@[simp] theorem setSlots_azimuth (x : Slots) : (s.setSlots x).azimuth = s.azimuth := rfl
@[simp] theorem setSlots_mirror (x : Slots) : (s.setSlots x).mirror = s.mirror := rfl
@[simp] theorem setSlots_turntable (x : Slots) : (s.setSlots x).turntable = s.turntable := rfl
@[simp] theorem setSlots_rest (x : Slots) : (s.setSlots x).rest = s.rest := rfl
@[simp] theorem setSlots_emission (x : Slots) : (s.setSlots x).emission = s.emission := rfl
@[simp] theorem setSlots_sector (x : Slots) : (s.setSlots x).sector = s.sector := rfl
@[simp] theorem setSlots_sched (x : Slots) : (s.setSlots x).sched = s.sched := rfl
@[simp] theorem setSlots_shots (x : Slots) : (s.setSlots x).shots = s.shots := rfl
@[simp] theorem setSlots_tracker (x : Slots) : (s.setSlots x).tracker = s.tracker := rfl
@[simp] theorem setSlots_intake (x : Slots) : (s.setSlots x).intake = s.intake := rfl
@[simp] theorem setSlots_line (x : Slots) : (s.setSlots x).line = s.line := rfl
@[simp] theorem setSlots_staging (x : Slots) : (s.setSlots x).staging = s.staging := rfl
@[simp] theorem setSlots_loss (x : Slots) : (s.setSlots x).loss = s.loss := rfl
@[simp] theorem setSlots_markWait (x : Slots) : (s.setSlots x).markWait = s.markWait := rfl
@[simp] theorem setSlots_pages (x : Slots) : (s.setSlots x).pages = s.pages := rfl
@[simp] theorem setSlots_job (x : Slots) : (s.setSlots x).job = s.job := rfl
@[simp] theorem setSlots_jobSerial (x : Slots) : (s.setSlots x).jobSerial = s.jobSerial := rfl
@[simp] theorem setSlots_camera (x : Slots) : (s.setSlots x).camera = s.camera := rfl
@[simp] theorem setSlots_photo (x : Slots) : (s.setSlots x).photo = s.photo := rfl
@[simp] theorem setSlots_slots (x : Slots) : (s.setSlots x).slots = x := rfl
@[simp] theorem setSlots_counters (x : Slots) : (s.setSlots x).counters = s.counters := rfl
@[simp] theorem setSlots_port (x : Slots) : (s.setSlots x).port = s.port := rfl
@[simp] theorem setSlots_issueSlot (x : Slots) : (s.setSlots x).issueSlot = s.issueSlot := rfl
@[simp] theorem setSlots_reader (x : Slots) : (s.setSlots x).reader = s.reader := rfl
@[simp] theorem setSlots_notices (x : Slots) : (s.setSlots x).notices = s.notices := rfl
@[simp] theorem setSlots_rstin (x : Slots) : (s.setSlots x).rstin = s.rstin := rfl
@[simp] theorem setSlots_out (x : Slots) : (s.setSlots x).out = s.out := rfl
@[simp] theorem setSlots_freeCount (x : Slots) : (s.setSlots x).freeCount = s.freeCount := rfl
@[simp] theorem setSlots_pending (x : Slots) : (s.setSlots x).pending = s.pending := rfl

@[simp] theorem setCounters_time (x : Counters) : (s.setCounters x).time = s.time := rfl
@[simp] theorem setCounters_angle (x : Counters) : (s.setCounters x).angle = s.angle := rfl
@[simp] theorem setCounters_azimuth (x : Counters) : (s.setCounters x).azimuth = s.azimuth := rfl
@[simp] theorem setCounters_mirror (x : Counters) : (s.setCounters x).mirror = s.mirror := rfl
@[simp] theorem setCounters_turntable (x : Counters) : (s.setCounters x).turntable = s.turntable := rfl
@[simp] theorem setCounters_rest (x : Counters) : (s.setCounters x).rest = s.rest := rfl
@[simp] theorem setCounters_emission (x : Counters) : (s.setCounters x).emission = s.emission := rfl
@[simp] theorem setCounters_sector (x : Counters) : (s.setCounters x).sector = s.sector := rfl
@[simp] theorem setCounters_sched (x : Counters) : (s.setCounters x).sched = s.sched := rfl
@[simp] theorem setCounters_shots (x : Counters) : (s.setCounters x).shots = s.shots := rfl
@[simp] theorem setCounters_tracker (x : Counters) : (s.setCounters x).tracker = s.tracker := rfl
@[simp] theorem setCounters_intake (x : Counters) : (s.setCounters x).intake = s.intake := rfl
@[simp] theorem setCounters_line (x : Counters) : (s.setCounters x).line = s.line := rfl
@[simp] theorem setCounters_staging (x : Counters) : (s.setCounters x).staging = s.staging := rfl
@[simp] theorem setCounters_loss (x : Counters) : (s.setCounters x).loss = s.loss := rfl
@[simp] theorem setCounters_markWait (x : Counters) : (s.setCounters x).markWait = s.markWait := rfl
@[simp] theorem setCounters_pages (x : Counters) : (s.setCounters x).pages = s.pages := rfl
@[simp] theorem setCounters_job (x : Counters) : (s.setCounters x).job = s.job := rfl
@[simp] theorem setCounters_jobSerial (x : Counters) : (s.setCounters x).jobSerial = s.jobSerial := rfl
@[simp] theorem setCounters_camera (x : Counters) : (s.setCounters x).camera = s.camera := rfl
@[simp] theorem setCounters_photo (x : Counters) : (s.setCounters x).photo = s.photo := rfl
@[simp] theorem setCounters_slots (x : Counters) : (s.setCounters x).slots = s.slots := rfl
@[simp] theorem setCounters_counters (x : Counters) : (s.setCounters x).counters = x := rfl
@[simp] theorem setCounters_port (x : Counters) : (s.setCounters x).port = s.port := rfl
@[simp] theorem setCounters_issueSlot (x : Counters) : (s.setCounters x).issueSlot = s.issueSlot := rfl
@[simp] theorem setCounters_reader (x : Counters) : (s.setCounters x).reader = s.reader := rfl
@[simp] theorem setCounters_notices (x : Counters) : (s.setCounters x).notices = s.notices := rfl
@[simp] theorem setCounters_rstin (x : Counters) : (s.setCounters x).rstin = s.rstin := rfl
@[simp] theorem setCounters_out (x : Counters) : (s.setCounters x).out = s.out := rfl
@[simp] theorem setCounters_freeCount (x : Counters) : (s.setCounters x).freeCount = s.freeCount := rfl
@[simp] theorem setCounters_pending (x : Counters) : (s.setCounters x).pending = s.pending := rfl

@[simp] theorem setPort_time (x : Port) : (s.setPort x).time = s.time := rfl
@[simp] theorem setPort_angle (x : Port) : (s.setPort x).angle = s.angle := rfl
@[simp] theorem setPort_azimuth (x : Port) : (s.setPort x).azimuth = s.azimuth := rfl
@[simp] theorem setPort_mirror (x : Port) : (s.setPort x).mirror = s.mirror := rfl
@[simp] theorem setPort_turntable (x : Port) : (s.setPort x).turntable = s.turntable := rfl
@[simp] theorem setPort_rest (x : Port) : (s.setPort x).rest = s.rest := rfl
@[simp] theorem setPort_emission (x : Port) : (s.setPort x).emission = s.emission := rfl
@[simp] theorem setPort_sector (x : Port) : (s.setPort x).sector = s.sector := rfl
@[simp] theorem setPort_sched (x : Port) : (s.setPort x).sched = s.sched := rfl
@[simp] theorem setPort_shots (x : Port) : (s.setPort x).shots = s.shots := rfl
@[simp] theorem setPort_tracker (x : Port) : (s.setPort x).tracker = s.tracker := rfl
@[simp] theorem setPort_intake (x : Port) : (s.setPort x).intake = s.intake := rfl
@[simp] theorem setPort_line (x : Port) : (s.setPort x).line = s.line := rfl
@[simp] theorem setPort_staging (x : Port) : (s.setPort x).staging = s.staging := rfl
@[simp] theorem setPort_loss (x : Port) : (s.setPort x).loss = s.loss := rfl
@[simp] theorem setPort_markWait (x : Port) : (s.setPort x).markWait = s.markWait := rfl
@[simp] theorem setPort_pages (x : Port) : (s.setPort x).pages = s.pages := rfl
@[simp] theorem setPort_job (x : Port) : (s.setPort x).job = s.job := rfl
@[simp] theorem setPort_jobSerial (x : Port) : (s.setPort x).jobSerial = s.jobSerial := rfl
@[simp] theorem setPort_camera (x : Port) : (s.setPort x).camera = s.camera := rfl
@[simp] theorem setPort_photo (x : Port) : (s.setPort x).photo = s.photo := rfl
@[simp] theorem setPort_slots (x : Port) : (s.setPort x).slots = s.slots := rfl
@[simp] theorem setPort_counters (x : Port) : (s.setPort x).counters = s.counters := rfl
@[simp] theorem setPort_port (x : Port) : (s.setPort x).port = x := rfl
@[simp] theorem setPort_issueSlot (x : Port) : (s.setPort x).issueSlot = s.issueSlot := rfl
@[simp] theorem setPort_reader (x : Port) : (s.setPort x).reader = s.reader := rfl
@[simp] theorem setPort_notices (x : Port) : (s.setPort x).notices = s.notices := rfl
@[simp] theorem setPort_rstin (x : Port) : (s.setPort x).rstin = s.rstin := rfl
@[simp] theorem setPort_out (x : Port) : (s.setPort x).out = s.out := rfl
@[simp] theorem setPort_freeCount (x : Port) : (s.setPort x).freeCount = s.freeCount := rfl
@[simp] theorem setPort_pending (x : Port) : (s.setPort x).pending = s.pending := rfl

@[simp] theorem setIssueSlot_time (x : Option (Requester × Nat)) : (s.setIssueSlot x).time = s.time := rfl
@[simp] theorem setIssueSlot_angle (x : Option (Requester × Nat)) : (s.setIssueSlot x).angle = s.angle := rfl
@[simp] theorem setIssueSlot_azimuth (x : Option (Requester × Nat)) : (s.setIssueSlot x).azimuth = s.azimuth := rfl
@[simp] theorem setIssueSlot_mirror (x : Option (Requester × Nat)) : (s.setIssueSlot x).mirror = s.mirror := rfl
@[simp] theorem setIssueSlot_turntable (x : Option (Requester × Nat)) : (s.setIssueSlot x).turntable = s.turntable := rfl
@[simp] theorem setIssueSlot_rest (x : Option (Requester × Nat)) : (s.setIssueSlot x).rest = s.rest := rfl
@[simp] theorem setIssueSlot_emission (x : Option (Requester × Nat)) : (s.setIssueSlot x).emission = s.emission := rfl
@[simp] theorem setIssueSlot_sector (x : Option (Requester × Nat)) : (s.setIssueSlot x).sector = s.sector := rfl
@[simp] theorem setIssueSlot_sched (x : Option (Requester × Nat)) : (s.setIssueSlot x).sched = s.sched := rfl
@[simp] theorem setIssueSlot_shots (x : Option (Requester × Nat)) : (s.setIssueSlot x).shots = s.shots := rfl
@[simp] theorem setIssueSlot_tracker (x : Option (Requester × Nat)) : (s.setIssueSlot x).tracker = s.tracker := rfl
@[simp] theorem setIssueSlot_intake (x : Option (Requester × Nat)) : (s.setIssueSlot x).intake = s.intake := rfl
@[simp] theorem setIssueSlot_line (x : Option (Requester × Nat)) : (s.setIssueSlot x).line = s.line := rfl
@[simp] theorem setIssueSlot_staging (x : Option (Requester × Nat)) : (s.setIssueSlot x).staging = s.staging := rfl
@[simp] theorem setIssueSlot_loss (x : Option (Requester × Nat)) : (s.setIssueSlot x).loss = s.loss := rfl
@[simp] theorem setIssueSlot_markWait (x : Option (Requester × Nat)) : (s.setIssueSlot x).markWait = s.markWait := rfl
@[simp] theorem setIssueSlot_pages (x : Option (Requester × Nat)) : (s.setIssueSlot x).pages = s.pages := rfl
@[simp] theorem setIssueSlot_job (x : Option (Requester × Nat)) : (s.setIssueSlot x).job = s.job := rfl
@[simp] theorem setIssueSlot_jobSerial (x : Option (Requester × Nat)) : (s.setIssueSlot x).jobSerial = s.jobSerial := rfl
@[simp] theorem setIssueSlot_camera (x : Option (Requester × Nat)) : (s.setIssueSlot x).camera = s.camera := rfl
@[simp] theorem setIssueSlot_photo (x : Option (Requester × Nat)) : (s.setIssueSlot x).photo = s.photo := rfl
@[simp] theorem setIssueSlot_slots (x : Option (Requester × Nat)) : (s.setIssueSlot x).slots = s.slots := rfl
@[simp] theorem setIssueSlot_counters (x : Option (Requester × Nat)) : (s.setIssueSlot x).counters = s.counters := rfl
@[simp] theorem setIssueSlot_port (x : Option (Requester × Nat)) : (s.setIssueSlot x).port = s.port := rfl
@[simp] theorem setIssueSlot_issueSlot (x : Option (Requester × Nat)) : (s.setIssueSlot x).issueSlot = x := rfl
@[simp] theorem setIssueSlot_reader (x : Option (Requester × Nat)) : (s.setIssueSlot x).reader = s.reader := rfl
@[simp] theorem setIssueSlot_notices (x : Option (Requester × Nat)) : (s.setIssueSlot x).notices = s.notices := rfl
@[simp] theorem setIssueSlot_rstin (x : Option (Requester × Nat)) : (s.setIssueSlot x).rstin = s.rstin := rfl
@[simp] theorem setIssueSlot_out (x : Option (Requester × Nat)) : (s.setIssueSlot x).out = s.out := rfl
@[simp] theorem setIssueSlot_freeCount (x : Option (Requester × Nat)) : (s.setIssueSlot x).freeCount = s.freeCount := rfl
@[simp] theorem setIssueSlot_pending (x : Option (Requester × Nat)) : (s.setIssueSlot x).pending = s.pending := rfl

@[simp] theorem setReader_time (x : Reader) : (s.setReader x).time = s.time := rfl
@[simp] theorem setReader_angle (x : Reader) : (s.setReader x).angle = s.angle := rfl
@[simp] theorem setReader_azimuth (x : Reader) : (s.setReader x).azimuth = s.azimuth := rfl
@[simp] theorem setReader_mirror (x : Reader) : (s.setReader x).mirror = s.mirror := rfl
@[simp] theorem setReader_turntable (x : Reader) : (s.setReader x).turntable = s.turntable := rfl
@[simp] theorem setReader_rest (x : Reader) : (s.setReader x).rest = s.rest := rfl
@[simp] theorem setReader_emission (x : Reader) : (s.setReader x).emission = s.emission := rfl
@[simp] theorem setReader_sector (x : Reader) : (s.setReader x).sector = s.sector := rfl
@[simp] theorem setReader_sched (x : Reader) : (s.setReader x).sched = s.sched := rfl
@[simp] theorem setReader_shots (x : Reader) : (s.setReader x).shots = s.shots := rfl
@[simp] theorem setReader_tracker (x : Reader) : (s.setReader x).tracker = s.tracker := rfl
@[simp] theorem setReader_intake (x : Reader) : (s.setReader x).intake = s.intake := rfl
@[simp] theorem setReader_line (x : Reader) : (s.setReader x).line = s.line := rfl
@[simp] theorem setReader_staging (x : Reader) : (s.setReader x).staging = s.staging := rfl
@[simp] theorem setReader_loss (x : Reader) : (s.setReader x).loss = s.loss := rfl
@[simp] theorem setReader_markWait (x : Reader) : (s.setReader x).markWait = s.markWait := rfl
@[simp] theorem setReader_pages (x : Reader) : (s.setReader x).pages = s.pages := rfl
@[simp] theorem setReader_job (x : Reader) : (s.setReader x).job = s.job := rfl
@[simp] theorem setReader_jobSerial (x : Reader) : (s.setReader x).jobSerial = s.jobSerial := rfl
@[simp] theorem setReader_camera (x : Reader) : (s.setReader x).camera = s.camera := rfl
@[simp] theorem setReader_photo (x : Reader) : (s.setReader x).photo = s.photo := rfl
@[simp] theorem setReader_slots (x : Reader) : (s.setReader x).slots = s.slots := rfl
@[simp] theorem setReader_counters (x : Reader) : (s.setReader x).counters = s.counters := rfl
@[simp] theorem setReader_port (x : Reader) : (s.setReader x).port = s.port := rfl
@[simp] theorem setReader_issueSlot (x : Reader) : (s.setReader x).issueSlot = s.issueSlot := rfl
@[simp] theorem setReader_reader (x : Reader) : (s.setReader x).reader = x := rfl
@[simp] theorem setReader_notices (x : Reader) : (s.setReader x).notices = s.notices := rfl
@[simp] theorem setReader_rstin (x : Reader) : (s.setReader x).rstin = s.rstin := rfl
@[simp] theorem setReader_out (x : Reader) : (s.setReader x).out = s.out := rfl
@[simp] theorem setReader_freeCount (x : Reader) : (s.setReader x).freeCount = s.freeCount := rfl
@[simp] theorem setReader_pending (x : Reader) : (s.setReader x).pending = s.pending := rfl

@[simp] theorem setNotices_time (x : Notices) : (s.setNotices x).time = s.time := rfl
@[simp] theorem setNotices_angle (x : Notices) : (s.setNotices x).angle = s.angle := rfl
@[simp] theorem setNotices_azimuth (x : Notices) : (s.setNotices x).azimuth = s.azimuth := rfl
@[simp] theorem setNotices_mirror (x : Notices) : (s.setNotices x).mirror = s.mirror := rfl
@[simp] theorem setNotices_turntable (x : Notices) : (s.setNotices x).turntable = s.turntable := rfl
@[simp] theorem setNotices_rest (x : Notices) : (s.setNotices x).rest = s.rest := rfl
@[simp] theorem setNotices_emission (x : Notices) : (s.setNotices x).emission = s.emission := rfl
@[simp] theorem setNotices_sector (x : Notices) : (s.setNotices x).sector = s.sector := rfl
@[simp] theorem setNotices_sched (x : Notices) : (s.setNotices x).sched = s.sched := rfl
@[simp] theorem setNotices_shots (x : Notices) : (s.setNotices x).shots = s.shots := rfl
@[simp] theorem setNotices_tracker (x : Notices) : (s.setNotices x).tracker = s.tracker := rfl
@[simp] theorem setNotices_intake (x : Notices) : (s.setNotices x).intake = s.intake := rfl
@[simp] theorem setNotices_line (x : Notices) : (s.setNotices x).line = s.line := rfl
@[simp] theorem setNotices_staging (x : Notices) : (s.setNotices x).staging = s.staging := rfl
@[simp] theorem setNotices_loss (x : Notices) : (s.setNotices x).loss = s.loss := rfl
@[simp] theorem setNotices_markWait (x : Notices) : (s.setNotices x).markWait = s.markWait := rfl
@[simp] theorem setNotices_pages (x : Notices) : (s.setNotices x).pages = s.pages := rfl
@[simp] theorem setNotices_job (x : Notices) : (s.setNotices x).job = s.job := rfl
@[simp] theorem setNotices_jobSerial (x : Notices) : (s.setNotices x).jobSerial = s.jobSerial := rfl
@[simp] theorem setNotices_camera (x : Notices) : (s.setNotices x).camera = s.camera := rfl
@[simp] theorem setNotices_photo (x : Notices) : (s.setNotices x).photo = s.photo := rfl
@[simp] theorem setNotices_slots (x : Notices) : (s.setNotices x).slots = s.slots := rfl
@[simp] theorem setNotices_counters (x : Notices) : (s.setNotices x).counters = s.counters := rfl
@[simp] theorem setNotices_port (x : Notices) : (s.setNotices x).port = s.port := rfl
@[simp] theorem setNotices_issueSlot (x : Notices) : (s.setNotices x).issueSlot = s.issueSlot := rfl
@[simp] theorem setNotices_reader (x : Notices) : (s.setNotices x).reader = s.reader := rfl
@[simp] theorem setNotices_notices (x : Notices) : (s.setNotices x).notices = x := rfl
@[simp] theorem setNotices_rstin (x : Notices) : (s.setNotices x).rstin = s.rstin := rfl
@[simp] theorem setNotices_out (x : Notices) : (s.setNotices x).out = s.out := rfl
@[simp] theorem setNotices_freeCount (x : Notices) : (s.setNotices x).freeCount = s.freeCount := rfl
@[simp] theorem setNotices_pending (x : Notices) : (s.setNotices x).pending = s.pending := rfl

@[simp] theorem setRstin_time (x : Bool) : (s.setRstin x).time = s.time := rfl
@[simp] theorem setRstin_angle (x : Bool) : (s.setRstin x).angle = s.angle := rfl
@[simp] theorem setRstin_azimuth (x : Bool) : (s.setRstin x).azimuth = s.azimuth := rfl
@[simp] theorem setRstin_mirror (x : Bool) : (s.setRstin x).mirror = s.mirror := rfl
@[simp] theorem setRstin_turntable (x : Bool) : (s.setRstin x).turntable = s.turntable := rfl
@[simp] theorem setRstin_rest (x : Bool) : (s.setRstin x).rest = s.rest := rfl
@[simp] theorem setRstin_emission (x : Bool) : (s.setRstin x).emission = s.emission := rfl
@[simp] theorem setRstin_sector (x : Bool) : (s.setRstin x).sector = s.sector := rfl
@[simp] theorem setRstin_sched (x : Bool) : (s.setRstin x).sched = s.sched := rfl
@[simp] theorem setRstin_shots (x : Bool) : (s.setRstin x).shots = s.shots := rfl
@[simp] theorem setRstin_tracker (x : Bool) : (s.setRstin x).tracker = s.tracker := rfl
@[simp] theorem setRstin_intake (x : Bool) : (s.setRstin x).intake = s.intake := rfl
@[simp] theorem setRstin_line (x : Bool) : (s.setRstin x).line = s.line := rfl
@[simp] theorem setRstin_staging (x : Bool) : (s.setRstin x).staging = s.staging := rfl
@[simp] theorem setRstin_loss (x : Bool) : (s.setRstin x).loss = s.loss := rfl
@[simp] theorem setRstin_markWait (x : Bool) : (s.setRstin x).markWait = s.markWait := rfl
@[simp] theorem setRstin_pages (x : Bool) : (s.setRstin x).pages = s.pages := rfl
@[simp] theorem setRstin_job (x : Bool) : (s.setRstin x).job = s.job := rfl
@[simp] theorem setRstin_jobSerial (x : Bool) : (s.setRstin x).jobSerial = s.jobSerial := rfl
@[simp] theorem setRstin_camera (x : Bool) : (s.setRstin x).camera = s.camera := rfl
@[simp] theorem setRstin_photo (x : Bool) : (s.setRstin x).photo = s.photo := rfl
@[simp] theorem setRstin_slots (x : Bool) : (s.setRstin x).slots = s.slots := rfl
@[simp] theorem setRstin_counters (x : Bool) : (s.setRstin x).counters = s.counters := rfl
@[simp] theorem setRstin_port (x : Bool) : (s.setRstin x).port = s.port := rfl
@[simp] theorem setRstin_issueSlot (x : Bool) : (s.setRstin x).issueSlot = s.issueSlot := rfl
@[simp] theorem setRstin_reader (x : Bool) : (s.setRstin x).reader = s.reader := rfl
@[simp] theorem setRstin_notices (x : Bool) : (s.setRstin x).notices = s.notices := rfl
@[simp] theorem setRstin_rstin (x : Bool) : (s.setRstin x).rstin = x := rfl
@[simp] theorem setRstin_out (x : Bool) : (s.setRstin x).out = s.out := rfl
@[simp] theorem setRstin_freeCount (x : Bool) : (s.setRstin x).freeCount = s.freeCount := rfl
@[simp] theorem setRstin_pending (x : Bool) : (s.setRstin x).pending = s.pending := rfl

@[simp] theorem setOut_time (x : List Signal) : (s.setOut x).time = s.time := rfl
@[simp] theorem setOut_angle (x : List Signal) : (s.setOut x).angle = s.angle := rfl
@[simp] theorem setOut_azimuth (x : List Signal) : (s.setOut x).azimuth = s.azimuth := rfl
@[simp] theorem setOut_mirror (x : List Signal) : (s.setOut x).mirror = s.mirror := rfl
@[simp] theorem setOut_turntable (x : List Signal) : (s.setOut x).turntable = s.turntable := rfl
@[simp] theorem setOut_rest (x : List Signal) : (s.setOut x).rest = s.rest := rfl
@[simp] theorem setOut_emission (x : List Signal) : (s.setOut x).emission = s.emission := rfl
@[simp] theorem setOut_sector (x : List Signal) : (s.setOut x).sector = s.sector := rfl
@[simp] theorem setOut_sched (x : List Signal) : (s.setOut x).sched = s.sched := rfl
@[simp] theorem setOut_shots (x : List Signal) : (s.setOut x).shots = s.shots := rfl
@[simp] theorem setOut_tracker (x : List Signal) : (s.setOut x).tracker = s.tracker := rfl
@[simp] theorem setOut_intake (x : List Signal) : (s.setOut x).intake = s.intake := rfl
@[simp] theorem setOut_line (x : List Signal) : (s.setOut x).line = s.line := rfl
@[simp] theorem setOut_staging (x : List Signal) : (s.setOut x).staging = s.staging := rfl
@[simp] theorem setOut_loss (x : List Signal) : (s.setOut x).loss = s.loss := rfl
@[simp] theorem setOut_markWait (x : List Signal) : (s.setOut x).markWait = s.markWait := rfl
@[simp] theorem setOut_pages (x : List Signal) : (s.setOut x).pages = s.pages := rfl
@[simp] theorem setOut_job (x : List Signal) : (s.setOut x).job = s.job := rfl
@[simp] theorem setOut_jobSerial (x : List Signal) : (s.setOut x).jobSerial = s.jobSerial := rfl
@[simp] theorem setOut_camera (x : List Signal) : (s.setOut x).camera = s.camera := rfl
@[simp] theorem setOut_photo (x : List Signal) : (s.setOut x).photo = s.photo := rfl
@[simp] theorem setOut_slots (x : List Signal) : (s.setOut x).slots = s.slots := rfl
@[simp] theorem setOut_counters (x : List Signal) : (s.setOut x).counters = s.counters := rfl
@[simp] theorem setOut_port (x : List Signal) : (s.setOut x).port = s.port := rfl
@[simp] theorem setOut_issueSlot (x : List Signal) : (s.setOut x).issueSlot = s.issueSlot := rfl
@[simp] theorem setOut_reader (x : List Signal) : (s.setOut x).reader = s.reader := rfl
@[simp] theorem setOut_notices (x : List Signal) : (s.setOut x).notices = s.notices := rfl
@[simp] theorem setOut_rstin (x : List Signal) : (s.setOut x).rstin = s.rstin := rfl
@[simp] theorem setOut_out (x : List Signal) : (s.setOut x).out = x := rfl
@[simp] theorem setOut_freeCount (x : List Signal) : (s.setOut x).freeCount = s.freeCount := rfl
@[simp] theorem setOut_pending (x : List Signal) : (s.setOut x).pending = s.pending := rfl

@[simp] theorem setFreeCount_time (x : Nat) : (s.setFreeCount x).time = s.time := rfl
@[simp] theorem setFreeCount_angle (x : Nat) : (s.setFreeCount x).angle = s.angle := rfl
@[simp] theorem setFreeCount_azimuth (x : Nat) : (s.setFreeCount x).azimuth = s.azimuth := rfl
@[simp] theorem setFreeCount_mirror (x : Nat) : (s.setFreeCount x).mirror = s.mirror := rfl
@[simp] theorem setFreeCount_turntable (x : Nat) : (s.setFreeCount x).turntable = s.turntable := rfl
@[simp] theorem setFreeCount_rest (x : Nat) : (s.setFreeCount x).rest = s.rest := rfl
@[simp] theorem setFreeCount_emission (x : Nat) : (s.setFreeCount x).emission = s.emission := rfl
@[simp] theorem setFreeCount_sector (x : Nat) : (s.setFreeCount x).sector = s.sector := rfl
@[simp] theorem setFreeCount_sched (x : Nat) : (s.setFreeCount x).sched = s.sched := rfl
@[simp] theorem setFreeCount_shots (x : Nat) : (s.setFreeCount x).shots = s.shots := rfl
@[simp] theorem setFreeCount_tracker (x : Nat) : (s.setFreeCount x).tracker = s.tracker := rfl
@[simp] theorem setFreeCount_intake (x : Nat) : (s.setFreeCount x).intake = s.intake := rfl
@[simp] theorem setFreeCount_line (x : Nat) : (s.setFreeCount x).line = s.line := rfl
@[simp] theorem setFreeCount_staging (x : Nat) : (s.setFreeCount x).staging = s.staging := rfl
@[simp] theorem setFreeCount_loss (x : Nat) : (s.setFreeCount x).loss = s.loss := rfl
@[simp] theorem setFreeCount_markWait (x : Nat) : (s.setFreeCount x).markWait = s.markWait := rfl
@[simp] theorem setFreeCount_pages (x : Nat) : (s.setFreeCount x).pages = s.pages := rfl
@[simp] theorem setFreeCount_job (x : Nat) : (s.setFreeCount x).job = s.job := rfl
@[simp] theorem setFreeCount_jobSerial (x : Nat) : (s.setFreeCount x).jobSerial = s.jobSerial := rfl
@[simp] theorem setFreeCount_camera (x : Nat) : (s.setFreeCount x).camera = s.camera := rfl
@[simp] theorem setFreeCount_photo (x : Nat) : (s.setFreeCount x).photo = s.photo := rfl
@[simp] theorem setFreeCount_slots (x : Nat) : (s.setFreeCount x).slots = s.slots := rfl
@[simp] theorem setFreeCount_counters (x : Nat) : (s.setFreeCount x).counters = s.counters := rfl
@[simp] theorem setFreeCount_port (x : Nat) : (s.setFreeCount x).port = s.port := rfl
@[simp] theorem setFreeCount_issueSlot (x : Nat) : (s.setFreeCount x).issueSlot = s.issueSlot := rfl
@[simp] theorem setFreeCount_reader (x : Nat) : (s.setFreeCount x).reader = s.reader := rfl
@[simp] theorem setFreeCount_notices (x : Nat) : (s.setFreeCount x).notices = s.notices := rfl
@[simp] theorem setFreeCount_rstin (x : Nat) : (s.setFreeCount x).rstin = s.rstin := rfl
@[simp] theorem setFreeCount_out (x : Nat) : (s.setFreeCount x).out = s.out := rfl
@[simp] theorem setFreeCount_freeCount (x : Nat) : (s.setFreeCount x).freeCount = x := rfl
@[simp] theorem setFreeCount_pending (x : Nat) : (s.setFreeCount x).pending = s.pending := rfl

@[simp] theorem setPending_time (x : List Instr) : (s.setPending x).time = s.time := rfl
@[simp] theorem setPending_angle (x : List Instr) : (s.setPending x).angle = s.angle := rfl
@[simp] theorem setPending_azimuth (x : List Instr) : (s.setPending x).azimuth = s.azimuth := rfl
@[simp] theorem setPending_mirror (x : List Instr) : (s.setPending x).mirror = s.mirror := rfl
@[simp] theorem setPending_turntable (x : List Instr) : (s.setPending x).turntable = s.turntable := rfl
@[simp] theorem setPending_rest (x : List Instr) : (s.setPending x).rest = s.rest := rfl
@[simp] theorem setPending_emission (x : List Instr) : (s.setPending x).emission = s.emission := rfl
@[simp] theorem setPending_sector (x : List Instr) : (s.setPending x).sector = s.sector := rfl
@[simp] theorem setPending_sched (x : List Instr) : (s.setPending x).sched = s.sched := rfl
@[simp] theorem setPending_shots (x : List Instr) : (s.setPending x).shots = s.shots := rfl
@[simp] theorem setPending_tracker (x : List Instr) : (s.setPending x).tracker = s.tracker := rfl
@[simp] theorem setPending_intake (x : List Instr) : (s.setPending x).intake = s.intake := rfl
@[simp] theorem setPending_line (x : List Instr) : (s.setPending x).line = s.line := rfl
@[simp] theorem setPending_staging (x : List Instr) : (s.setPending x).staging = s.staging := rfl
@[simp] theorem setPending_loss (x : List Instr) : (s.setPending x).loss = s.loss := rfl
@[simp] theorem setPending_markWait (x : List Instr) : (s.setPending x).markWait = s.markWait := rfl
@[simp] theorem setPending_pages (x : List Instr) : (s.setPending x).pages = s.pages := rfl
@[simp] theorem setPending_job (x : List Instr) : (s.setPending x).job = s.job := rfl
@[simp] theorem setPending_jobSerial (x : List Instr) : (s.setPending x).jobSerial = s.jobSerial := rfl
@[simp] theorem setPending_camera (x : List Instr) : (s.setPending x).camera = s.camera := rfl
@[simp] theorem setPending_photo (x : List Instr) : (s.setPending x).photo = s.photo := rfl
@[simp] theorem setPending_slots (x : List Instr) : (s.setPending x).slots = s.slots := rfl
@[simp] theorem setPending_counters (x : List Instr) : (s.setPending x).counters = s.counters := rfl
@[simp] theorem setPending_port (x : List Instr) : (s.setPending x).port = s.port := rfl
@[simp] theorem setPending_issueSlot (x : List Instr) : (s.setPending x).issueSlot = s.issueSlot := rfl
@[simp] theorem setPending_reader (x : List Instr) : (s.setPending x).reader = s.reader := rfl
@[simp] theorem setPending_notices (x : List Instr) : (s.setPending x).notices = s.notices := rfl
@[simp] theorem setPending_rstin (x : List Instr) : (s.setPending x).rstin = s.rstin := rfl
@[simp] theorem setPending_out (x : List Instr) : (s.setPending x).out = s.out := rfl
@[simp] theorem setPending_freeCount (x : List Instr) : (s.setPending x).freeCount = s.freeCount := rfl
@[simp] theorem setPending_pending (x : List Instr) : (s.setPending x).pending = x := rfl

end Sys2Proof.Machine.State
end

