-- ==== Sys2Proof/Laws/Acts.lean ====
section
/-! SUPPORT. What an operation of the block can do, said once for each: `Acts p s t` says that `t` comes from `s` by an
operation that touches the fields `p` at most and keeps every invariant that holds piece by piece. Each lemma
`<operation>_acts` adds one operation behind what has been done before it. Here: the notion, the setters, and the
operations every block uses. -/

namespace Sys2Proof.Machine

/-- The number and the answer of an outstanding transfer. -/
def Outstanding.mark (o : Outstanding) : Nat × Answer := (o.id, o.answer)

/-- `t` comes from `s` by an operation that touches the fields `p` at most. ATTN, the jitter index and the buffers' bounds
stay sound; no transfer is issued, answered or reported; the laser is not fired; no cause is cleared; the FAULT register
stays. -/
structure Acts (p : Field → Bool) (s t : State) : Prop where
  only      : OnlyIn p s t
  attention : AttentionSound s → AttentionSound t
  jitter    : JitterFollows s → JitterFollows t
  bounded   : Bounded s → Bounded t
  answers   : ∀ r, (t.port.outOf r).map Outstanding.mark = (s.port.outOf r).map Outstanding.mark
  laser     : ∀ k, .laserTrig k ∈ t.out → .laserTrig k ∈ s.out
  causes    : s.notices.pending &&& t.notices.pending = s.notices.pending
  faultReg  : t.port.fault = s.port.fault
  nextId    : t.port.nextId = s.port.nextId

variable {p : Field → Bool} {s u t : State}

theorem Acts.refl (p : Field → Bool) (s : State) : Acts p s s where
  only := fun f _ => by cases f <;> rfl
  attention := id
  jitter := id
  bounded := id
  answers := fun _ => rfl
  laser := fun _ => id
  causes := BitVec.and_self
  faultReg := rfl
  nextId := rfl

theorem Field.same_trans {f : Field} {s t u : State} (h : f.same s t) (g : f.same t u) : f.same s u := by
  cases f <;> exact Eq.trans g h

theorem OnlyIn.trans {p : Field → Bool} {s t u : State} (h : OnlyIn p s t) (g : OnlyIn p t u) : OnlyIn p s u :=
  fun f hf => Field.same_trans (h f hf) (g f hf)

theorem OnlyIn.mono {p q : Field → Bool} {s t : State} (h : OnlyIn p s t) (hpq : ∀ f, p f = true → q f = true) :
    OnlyIn q s t := fun f hf => h f (by
  cases hp : p f
  · rfl
  · rw [hpq f hp] at hf; cases hf)

theorem causes_trans {a b c : BitVec 8} (h : a &&& b = a) (g : b &&& c = b) : a &&& c = a := by
  rw [← h, BitVec.and_assoc, g]

theorem Acts.trans (h : Acts p s t) (g : Acts p t u) : Acts p s u where
  only := h.only.trans g.only
  attention := g.attention ∘ h.attention
  jitter := g.jitter ∘ h.jitter
  bounded := g.bounded ∘ h.bounded
  answers := fun r => (g.answers r).trans (h.answers r)
  laser := fun k x => h.laser k (g.laser k x)
  causes := causes_trans h.causes g.causes
  faultReg := g.faultReg.trans h.faultReg
  nextId := g.nextId.trans h.nextId

/-- Bounds that depend on nothing an operation has changed. -/
theorem Bounded.congr (h : Bounded s) (hq : t.staging.entries = s.staging.entries) (hp : t.port = s.port)
    (hs : t.shots = s.shots) (hr : t.photo.rows = s.photo.rows) : Bounded t :=
  ⟨hq ▸ h.queue, hq ▸ h.points, hp ▸ h.port, hs ▸ h.shots, hr ▸ h.rows, hp ▸ h.waiting, hp ▸ h.numbered⟩

/-! ## Setters -/

theorem setAngle_acts (x : Angle) (h : Acts p s u) (angle : p .angle = true) : Acts p s (u.setAngle x) :=
  h.trans { only := fun f hf => by cases f <;> first | rfl | (rw [angle] at hf; cases hf)
            attention := id, jitter := id, bounded := fun b => b.congr rfl rfl rfl rfl, answers := fun _ => rfl,
            laser := fun _ => id, causes := BitVec.and_self, faultReg := rfl, nextId := rfl }

theorem setAzimuth_acts (x : Angle) (h : Acts p s u) (azimuth : p .azimuth = true) : Acts p s (u.setAzimuth x) :=
  h.trans { only := fun f hf => by cases f <;> first | rfl | (rw [azimuth] at hf; cases hf)
            attention := id, jitter := id, bounded := fun b => b.congr rfl rfl rfl rfl, answers := fun _ => rfl,
            laser := fun _ => id, causes := BitVec.and_self, faultReg := rfl, nextId := rfl }

theorem setMirror_acts (x : Mirror) (h : Acts p s u) (mirror : p .mirror = true) : Acts p s (u.setMirror x) :=
  h.trans { only := fun f hf => by cases f <;> first | rfl | (rw [mirror] at hf; cases hf)
            attention := id, jitter := id, bounded := fun b => b.congr rfl rfl rfl rfl, answers := fun _ => rfl,
            laser := fun _ => id, causes := BitVec.and_self, faultReg := rfl, nextId := rfl }

theorem setTurntable_acts (x : Turntable) (h : Acts p s u) (turntable : p .turntable = true) : Acts p s (u.setTurntable x) :=
  h.trans { only := fun f hf => by cases f <;> first | rfl | (rw [turntable] at hf; cases hf)
            attention := id, jitter := id, bounded := fun b => b.congr rfl rfl rfl rfl, answers := fun _ => rfl,
            laser := fun _ => id, causes := BitVec.and_self, faultReg := rfl, nextId := rfl }

theorem setRest_acts (x : RestWatch) (h : Acts p s u) (rest : p .rest = true) : Acts p s (u.setRest x) :=
  h.trans { only := fun f hf => by cases f <;> first | rfl | (rw [rest] at hf; cases hf)
            attention := id, jitter := id, bounded := fun b => b.congr rfl rfl rfl rfl, answers := fun _ => rfl,
            laser := fun _ => id, causes := BitVec.and_self, faultReg := rfl, nextId := rfl }

theorem setEmission_acts (x : Emission) (h : Acts p s u) (emission : p .emission = true) : Acts p s (u.setEmission x) :=
  h.trans { only := fun f hf => by cases f <;> first | rfl | (rw [emission] at hf; cases hf)
            attention := id, jitter := id, bounded := fun b => b.congr rfl rfl rfl rfl, answers := fun _ => rfl,
            laser := fun _ => id, causes := BitVec.and_self, faultReg := rfl, nextId := rfl }

theorem setSector_acts (x : Sector) (h : Acts p s u) (sector : p .sector = true) : Acts p s (u.setSector x) :=
  h.trans { only := fun f hf => by cases f <;> first | rfl | (rw [sector] at hf; cases hf)
            attention := id, jitter := id, bounded := fun b => b.congr rfl rfl rfl rfl, answers := fun _ => rfl,
            laser := fun _ => id, causes := BitVec.and_self, faultReg := rfl, nextId := rfl }

theorem setTracker_acts (x : Tracker) (h : Acts p s u) (tracker : p .tracker = true) : Acts p s (u.setTracker x) :=
  h.trans { only := fun f hf => by cases f <;> first | rfl | (rw [tracker] at hf; cases hf)
            attention := id, jitter := id, bounded := fun b => b.congr rfl rfl rfl rfl, answers := fun _ => rfl,
            laser := fun _ => id, causes := BitVec.and_self, faultReg := rfl, nextId := rfl }

theorem setIntake_acts (x : Intake) (h : Acts p s u) (intake : p .intake = true) : Acts p s (u.setIntake x) :=
  h.trans { only := fun f hf => by cases f <;> first | rfl | (rw [intake] at hf; cases hf)
            attention := id, jitter := id, bounded := fun b => b.congr rfl rfl rfl rfl, answers := fun _ => rfl,
            laser := fun _ => id, causes := BitVec.and_self, faultReg := rfl, nextId := rfl }

theorem setLine_acts (x : LineState) (h : Acts p s u) (line : p .line = true) : Acts p s (u.setLine x) :=
  h.trans { only := fun f hf => by cases f <;> first | rfl | (rw [line] at hf; cases hf)
            attention := id, jitter := id, bounded := fun b => b.congr rfl rfl rfl rfl, answers := fun _ => rfl,
            laser := fun _ => id, causes := BitVec.and_self, faultReg := rfl, nextId := rfl }

theorem setLoss_acts (x : Loss) (h : Acts p s u) (loss : p .loss = true) : Acts p s (u.setLoss x) :=
  h.trans { only := fun f hf => by cases f <;> first | rfl | (rw [loss] at hf; cases hf)
            attention := id, jitter := id, bounded := fun b => b.congr rfl rfl rfl rfl, answers := fun _ => rfl,
            laser := fun _ => id, causes := BitVec.and_self, faultReg := rfl, nextId := rfl }

theorem setMarkWait_acts (x : Option Nat) (h : Acts p s u) (markWait : p .markWait = true) : Acts p s (u.setMarkWait x) :=
  h.trans { only := fun f hf => by cases f <;> first | rfl | (rw [markWait] at hf; cases hf)
            attention := id, jitter := id, bounded := fun b => b.congr rfl rfl rfl rfl, answers := fun _ => rfl,
            laser := fun _ => id, causes := BitVec.and_self, faultReg := rfl, nextId := rfl }

theorem setPages_acts (x : Pages) (h : Acts p s u) (pages : p .pages = true) : Acts p s (u.setPages x) :=
  h.trans { only := fun f hf => by cases f <;> first | rfl | (rw [pages] at hf; cases hf)
            attention := id, jitter := id, bounded := fun b => b.congr rfl rfl rfl rfl, answers := fun _ => rfl,
            laser := fun _ => id, causes := BitVec.and_self, faultReg := rfl, nextId := rfl }

theorem setJob_acts (x : Option Job) (h : Acts p s u) (job : p .job = true) : Acts p s (u.setJob x) :=
  h.trans { only := fun f hf => by cases f <;> first | rfl | (rw [job] at hf; cases hf)
            attention := id, jitter := id, bounded := fun b => b.congr rfl rfl rfl rfl, answers := fun _ => rfl,
            laser := fun _ => id, causes := BitVec.and_self, faultReg := rfl, nextId := rfl }

theorem setJobSerial_acts (x : Nat) (h : Acts p s u) (jobSerial : p .jobSerial = true) : Acts p s (u.setJobSerial x) :=
  h.trans { only := fun f hf => by cases f <;> first | rfl | (rw [jobSerial] at hf; cases hf)
            attention := id, jitter := id, bounded := fun b => b.congr rfl rfl rfl rfl, answers := fun _ => rfl,
            laser := fun _ => id, causes := BitVec.and_self, faultReg := rfl, nextId := rfl }

theorem setCamera_acts (x : Camera) (h : Acts p s u) (camera : p .camera = true) : Acts p s (u.setCamera x) :=
  h.trans { only := fun f hf => by cases f <;> first | rfl | (rw [camera] at hf; cases hf)
            attention := id, jitter := id, bounded := fun b => b.congr rfl rfl rfl rfl, answers := fun _ => rfl,
            laser := fun _ => id, causes := BitVec.and_self, faultReg := rfl, nextId := rfl }

theorem setSlots_acts (x : Slots) (h : Acts p s u) (slots : p .slots = true) : Acts p s (u.setSlots x) :=
  h.trans { only := fun f hf => by cases f <;> first | rfl | (rw [slots] at hf; cases hf)
            attention := id, jitter := id, bounded := fun b => b.congr rfl rfl rfl rfl, answers := fun _ => rfl,
            laser := fun _ => id, causes := BitVec.and_self, faultReg := rfl, nextId := rfl }

theorem setCounters_acts (x : Counters) (h : Acts p s u) (counters : p .counters = true) : Acts p s (u.setCounters x) :=
  h.trans { only := fun f hf => by cases f <;> first | rfl | (rw [counters] at hf; cases hf)
            attention := id, jitter := id, bounded := fun b => b.congr rfl rfl rfl rfl, answers := fun _ => rfl,
            laser := fun _ => id, causes := BitVec.and_self, faultReg := rfl, nextId := rfl }

theorem setIssueSlot_acts (x : Option (Requester × Nat)) (h : Acts p s u) (issueSlot : p .issueSlot = true) : Acts p s (u.setIssueSlot x) :=
  h.trans { only := fun f hf => by cases f <;> first | rfl | (rw [issueSlot] at hf; cases hf)
            attention := id, jitter := id, bounded := fun b => b.congr rfl rfl rfl rfl, answers := fun _ => rfl,
            laser := fun _ => id, causes := BitVec.and_self, faultReg := rfl, nextId := rfl }

theorem setReader_acts (x : Reader) (h : Acts p s u) (reader : p .reader = true) : Acts p s (u.setReader x) :=
  h.trans { only := fun f hf => by cases f <;> first | rfl | (rw [reader] at hf; cases hf)
            attention := id, jitter := id, bounded := fun b => b.congr rfl rfl rfl rfl, answers := fun _ => rfl,
            laser := fun _ => id, causes := BitVec.and_self, faultReg := rfl, nextId := rfl }

theorem setRstin_acts (x : Bool) (h : Acts p s u) (rstin : p .rstin = true) : Acts p s (u.setRstin x) :=
  h.trans { only := fun f hf => by cases f <;> first | rfl | (rw [rstin] at hf; cases hf)
            attention := id, jitter := id, bounded := fun b => b.congr rfl rfl rfl rfl, answers := fun _ => rfl,
            laser := fun _ => id, causes := BitVec.and_self, faultReg := rfl, nextId := rfl }

theorem setFreeCount_acts (x : Nat) (h : Acts p s u) (freeCount : p .freeCount = true) : Acts p s (u.setFreeCount x) :=
  h.trans { only := fun f hf => by cases f <;> first | rfl | (rw [freeCount] at hf; cases hf)
            attention := id, jitter := id, bounded := fun b => b.congr rfl rfl rfl rfl, answers := fun _ => rfl,
            laser := fun _ => id, causes := BitVec.and_self, faultReg := rfl, nextId := rfl }


/-- A scheduler value that keeps the jitter index at the next shot number. -/
def JitterKept (x y : Scheduler) : Prop :=
  (y.jitterIndex = x.jitterIndex ∧ y.nextShot = x.nextShot) ∨ y.jitterIndex = y.nextShot % 16

theorem setSched_acts (x : Scheduler) (h : Acts p s u) (sched : p .sched = true) (hx : JitterKept u.sched x) :
    Acts p s (u.setSched x) :=
  h.trans { only := fun f hf => by cases f <;> first | rfl | (rw [sched] at hf; cases hf)
            attention := id
            jitter := fun j => by
              rcases hx with ⟨h1, h2⟩ | h1
              · exact (h1.trans j).trans (congrArg (· % 16) h2.symm)
              · exact h1
            bounded := fun b => b.congr rfl rfl rfl rfl, answers := fun _ => rfl, laser := fun _ => id,
            causes := BitVec.and_self, faultReg := rfl, nextId := rfl }

theorem setShots_acts (x : List OpenShot) (h : Acts p s u) (shots : p .shots = true) (hx : x.length ≤ u.shots.length) :
    Acts p s (u.setShots x) :=
  h.trans { only := fun f hf => by cases f <;> first | rfl | (rw [shots] at hf; cases hf)
            attention := id, jitter := id
            bounded := fun b => ⟨b.queue, b.points, b.port, Nat.le_trans hx b.shots, b.rows, b.waiting, b.numbered⟩
            answers := fun _ => rfl, laser := fun _ => id, causes := BitVec.and_self, faultReg := rfl, nextId := rfl }

/-- A queue within the bounds that the old one kept (R79). -/
def QueueKept (x y : List Entry) : Prop :=
  (entriesSize x ≤ queueCapacity → pointSize x ≤ pointLimit → entriesSize y ≤ queueCapacity ∧ pointSize y ≤ pointLimit)

theorem setStaging_acts (x : Staging) (h : Acts p s u) (staging : p .staging = true)
    (hx : QueueKept u.staging.entries x.entries) : Acts p s (u.setStaging x) :=
  h.trans { only := fun f hf => by cases f <;> first | rfl | (rw [staging] at hf; cases hf)
            attention := id, jitter := id
            bounded := fun b => ⟨(hx b.queue b.points).1, (hx b.queue b.points).2, b.port, b.shots, b.rows, b.waiting, b.numbered⟩
            answers := fun _ => rfl, laser := fun _ => id, causes := BitVec.and_self, faultReg := rfl, nextId := rfl }

theorem setPhoto_acts (x : Photo) (h : Acts p s u) (photo : p .photo = true)
    (hx : x.rows.length ≤ u.photo.rows.length ∨ x.rows.length ≤ rowCapacity) : Acts p s (u.setPhoto x) :=
  h.trans { only := fun f hf => by cases f <;> first | rfl | (rw [photo] at hf; cases hf)
            attention := id, jitter := id
            bounded := fun b => ⟨b.queue, b.points, b.port, b.shots, hx.elim (fun l => Nat.le_trans l b.rows) id,
                                b.waiting, b.numbered⟩
            answers := fun _ => rfl, laser := fun _ => id, causes := BitVec.and_self, faultReg := rfl, nextId := rfl }

/-- A port that has issued, answered and reported nothing, with its FAULT register as it was. -/
def PortKept (x y : Port) : Prop :=
  (∀ r, (y.outOf r).map Outstanding.mark = (x.outOf r).map Outstanding.mark) ∧ y.fault = x.fault ∧
  (x.sorted → y.sorted) ∧ y.nextId = x.nextId

theorem PortKept.ids {x y : Port} (h : PortKept x y) (r : Requester) : y.ids r = x.ids r := by
  have := congrArg (List.map Prod.fst) (h.1 r)
  rw [List.map_map, List.map_map] at this
  exact this

theorem PortKept.numbered {x y : Port} (h : PortKept x y) (n : x.numbered) : y.numbered := fun r => by
  rw [h.ids r, h.2.2.2]; exact n r

theorem setPort_acts (x : Port) (h : Acts p s u) (port : p .port = true) (hx : PortKept u.port x) :
    Acts p s (u.setPort x) :=
  h.trans { only := fun f hf => by cases f <;> first | rfl | (rw [port] at hf; cases hf)
            attention := id, jitter := id
            bounded := fun b => ⟨b.queue, b.points, fun r => by
              have := congrArg List.length (hx.1 r)
              rw [List.length_map, List.length_map] at this
              exact this ▸ b.port r, b.shots, b.rows, hx.2.2.1 b.waiting, hx.numbered b.numbered⟩
            answers := hx.1, laser := fun _ => id, causes := BitVec.and_self, faultReg := hx.2.1, nextId := hx.2.2.2 }

/-- Notices that keep ATTN sound and clear no cause. -/
def NoticesKept (x y : Notices) : Prop := (x.sound → y.sound) ∧ x.pending &&& y.pending = x.pending

theorem setNotices_acts (x : Notices) (h : Acts p s u) (notices : p .notices = true) (hx : NoticesKept u.notices x) :
    Acts p s (u.setNotices x) :=
  h.trans { only := fun f hf => by cases f <;> first | rfl | (rw [notices] at hf; cases hf)
            attention := hx.1
            jitter := id, bounded := fun b => b.congr rfl rfl rfl rfl, answers := fun _ => rfl, laser := fun _ => id,
            causes := hx.2, faultReg := rfl, nextId := rfl }

/-! ## Operations of every block -/

/-- The signal is not LASER TRIG. -/
def Signal.quiet : Signal → Bool
  | .laserTrig _ => false
  | .expose _ _ | .cameraStop | .counterSync _ | .issued _ _ | .inMemory _ | .readData _ => true

theorem emit_acts (x : Signal) (h : Acts p s u) (out : p .out = true) (hx : x.quiet = true) : Acts p s (emit x u) :=
  h.trans { only := fun f hf => by cases f <;> first | rfl | (rw [out] at hf; cases hf)
            attention := id, jitter := id, bounded := fun b => b.congr rfl rfl rfl rfl, answers := fun _ => rfl
            laser := fun k m => by
              rcases List.mem_append.1 m with m | m
              · exact m
              · rw [List.mem_singleton] at m
                subst m
                cases hx
            causes := BitVec.and_self, faultReg := rfl, nextId := rfl }

theorem spendFree_acts (h : Acts p s u) (freeCount : p .freeCount = true) : Acts p s u.spendFree :=
  setFreeCount_acts _ h freeCount

theorem and_or_absorb (a b : BitVec 8) : a &&& (a ||| b) = a := by
  ext i hi
  simp only [BitVec.getElem_and, BitVec.getElem_or]
  cases a[i] <;> rfl

/-- Driving ATTN after a change of the pending set or the mask keeps it sound (R189, R190). -/
theorem driveAttn_sound (now : Nat) {x y : Notices} (hm : y.mode = x.mode) (ha : y.attn = x.attn)
    (hp : y.pulseEnd = x.pulseEnd) (h : x.sound) : (driveAttn now x y).sound := by
  unfold driveAttn
  cases hy : y.mode
  · have hx : x.mode = .level := hm.symm.trans hy
    unfold Notices.sound at h ⊢
    simp only [hx] at h
    simp only [unmasked]
    exact ⟨rfl, hp.trans h.2⟩
  · have hx : x.mode = .pulse := hm.symm.trans hy
    unfold Notices.sound at h
    simp only [hx] at h
    by_cases hc : unmasked x = 0 ∧ unmasked y ≠ 0
    · simp only [if_pos hc, Notices.sound, beginPulse, hy, Option.isSome_some]
    · simp only [if_neg hc, Notices.sound, hy]
      rw [ha, hp]; exact h

theorem driveAttn_pending (now : Nat) (x y : Notices) : (driveAttn now x y).pending = y.pending := by
  unfold driveAttn beginPulse; split
  · rfl
  · split <;> rfl

theorem driveAttn_mask (now : Nat) (x y : Notices) : (driveAttn now x y).mask = y.mask := by
  unfold driveAttn beginPulse; split
  · rfl
  · split <;> rfl

theorem driveAttn_mode (now : Nat) (x y : Notices) : (driveAttn now x y).mode = y.mode := by
  unfold driveAttn beginPulse; split
  · rfl
  · split <;> rfl

theorem raise_acts (c : Cause) (h : Acts p s u) (notices : p .notices = true) : Acts p s (raise c u) :=
  setNotices_acts _ h notices ⟨driveAttn_sound _ rfl rfl rfl, by
    rw [driveAttn_pending]; exact and_or_absorb _ _⟩

/-- Raising a cause makes it pending beside those that were, and changes nothing but the notices (R186). -/
theorem raise_pending (c : Cause) (s : State) : (raise c s).notices.pending = s.notices.pending ||| c.bit :=
  driveAttn_pending _ _ _

theorem refuse_acts (h : Acts p s u) (notices : p .notices = true) : Acts p s (refuse u) := raise_acts _ h notices

theorem setAttention_acts (mode : AttentionMode) (h : Acts p s u) (notices : p .notices = true) :
    Acts p s (setAttention mode u) := by
  refine h.trans ?_
  unfold setAttention
  split
  · refine setNotices_acts _ (Acts.refl p u) notices ⟨fun _ => ?_, ?_⟩
    · split <;> rfl
    · split <;> exact BitVec.and_self
  · exact setNotices_acts _ (Acts.refl p u) notices ⟨fun _ => ⟨rfl, rfl⟩, BitVec.and_self⟩
  · exact Acts.refl p u
  · exact Acts.refl p u

/-! ## The port's requests -/

theorem Port.outOf_request (x : Port) (t : Transfer) (r : Requester) : (x.request t).outOf r = x.outOf r := by
  unfold Port.request; cases t.requester <;> cases r <;> rfl

theorem Port.fault_request (x : Port) (t : Transfer) : (x.request t).fault = x.fault := by
  unfold Port.request; cases t.requester <;> rfl

theorem Port.nextId_request (x : Port) (t : Transfer) : (x.request t).nextId = x.nextId := by
  unfold Port.request; cases t.requester <;> rfl

theorem Port.sorted_request {x : Port} (t : Transfer) (h : x.sorted) : (x.request t).sorted := by
  unfold Port.request
  cases ht : t.requester
  · exact h
  · exact h
  · refine ⟨fun y hy => ?_, h.2⟩
    rcases List.mem_append.1 hy with hy | hy
    · exact h.1 y hy
    · rw [List.mem_singleton] at hy; subst hy; exact ht
  · refine ⟨h.1, fun y hy => ?_⟩
    rcases List.mem_append.1 hy with hy | hy
    · exact h.2 y hy
    · rw [List.mem_singleton] at hy; subst hy; exact ht

theorem Transfer.ignoreIf_requester (which : Transfer → Bool) (t : Transfer) : (t.ignoreIf which).requester = t.requester := by
  unfold Transfer.ignoreIf; split <;> rfl

theorem request_acts (t : Transfer) (h : Acts p s u) (port : p .port = true) : Acts p s (request t u) :=
  setPort_acts _ h port ⟨fun r => by rw [Port.outOf_request], Port.fault_request _ _, Port.sorted_request t,
    Port.nextId_request _ _⟩

theorem withdraw_acts (gone : Transfer → Bool) (h : Acts p s u) (port : p .port = true) : Acts p s (withdraw gone u) :=
  setPort_acts _ h port ⟨fun r => by cases r <;> rfl, rfl, fun w =>
    ⟨fun x hx => w.1 x (List.mem_filter.1 hx).1, fun x hx => w.2 x (List.mem_filter.1 hx).1⟩, rfl⟩

theorem ignoreOut_answers (which : Transfer → Bool) (l : List Outstanding) :
    (ignoreOut which l).map Outstanding.mark = l.map Outstanding.mark := by
  unfold ignoreOut; rw [List.map_map]; rfl

theorem ignore_acts (which : Transfer → Bool) (h : Acts p s u) (port : p .port = true) : Acts p s (ignore which u) :=
  setPort_acts _ h port ⟨fun r => by cases r <;> exact ignoreOut_answers which _, rfl, fun w =>
    ⟨fun x hx => by
      obtain ⟨y, hy, rfl⟩ := List.mem_map.1 hx
      exact (Transfer.ignoreIf_requester which y).trans (w.1 y hy),
     fun x hx => by
      obtain ⟨y, hy, rfl⟩ := List.mem_map.1 hx
      exact (Transfer.ignoreIf_requester which y).trans (w.2 y hy)⟩, rfl⟩

end Sys2Proof.Machine
end

