-- ==== Sys2Proof/Laws/ActsChain.lean ====
section
/-! SUPPORT. What an operation can do
    (see Laws/Acts): the Chain Reader, the turntable, the staging queue, and how jobs end. -/

namespace Sys2Proof.Machine

variable {p : Field → Bool} {s u : State}

theorem beginExamination_acts (h : Acts p s u) (port : p .port = true) (reader : p .reader = true) :
    Acts p s (beginExamination u) := by
  unfold beginExamination; try dsimp only
  repeat' (first | with_reducible assumption | with_reducible apply request_acts
                  | with_reducible apply setReader_acts | split | with_reducible rfl)

theorem beginLinkRead_acts (h : Acts p s u) (port : p .port = true) (reader : p .reader = true) :
    Acts p s (beginLinkRead u) := by
  unfold beginLinkRead; try dsimp only
  repeat' (first | with_reducible assumption | with_reducible apply request_acts
                  | with_reducible apply setReader_acts | split | with_reducible rfl)

theorem enterHalted_acts (c : HaltCause) (h : Acts p s u) (port : p .port = true) (reader : p .reader = true)
    (notices : p .notices = true) :
    Acts p s (enterHalted c u) := by
  unfold enterHalted; try dsimp only
  repeat' (first | with_reducible assumption | with_reducible apply raise_acts | with_reducible apply ignore_acts
                  | with_reducible apply setReader_acts | split | with_reducible rfl)

theorem haltOnPending_acts (h : Acts p s u) (port : p .port = true) (reader : p .reader = true)
    (notices : p .notices = true) :
    Acts p s (haltOnPending u) := by
  unfold haltOnPending; try dsimp only
  repeat' (first | with_reducible assumption | with_reducible apply enterHalted_acts
                  | with_reducible apply setReader_acts | split | with_reducible rfl)

theorem haltOnLoss_acts (h : Acts p s u) (port : p .port = true) (reader : p .reader = true)
    (notices : p .notices = true) :
    Acts p s (haltOnLoss u) := by
  unfold haltOnLoss; try dsimp only
  repeat' (first | with_reducible assumption | with_reducible apply enterHalted_acts
                  | with_reducible apply setReader_acts | split | with_reducible rfl)

theorem enterWait_acts (w : ReaderState) (h : Acts p s u) (reader : p .reader = true) (notices : p .notices = true) :
    Acts p s (enterWait w u) := by
  unfold enterWait; try dsimp only
  repeat' (first | with_reducible assumption | with_reducible apply raise_acts | with_reducible apply setReader_acts
                  | split | with_reducible rfl)

theorem nextBlockWrite_acts (h : Acts p s u) (port : p .port = true) (reader : p .reader = true) :
    Acts p s (nextBlockWrite u) := by
  unfold nextBlockWrite; try dsimp only
  repeat' (first | with_reducible assumption | with_reducible apply request_acts
                  | with_reducible apply setReader_acts | split | with_reducible rfl)

theorem pushProgress_acts (fs : Fields) (h : Acts p s u) (port : p .port = true) (reader : p .reader = true) :
    Acts p s (pushProgress fs u) := by
  unfold pushProgress; try dsimp only
  repeat' (first | with_reducible assumption | with_reducible apply nextBlockWrite_acts
                  | with_reducible apply setReader_acts | split | with_reducible rfl)

theorem handResult_acts (r : JobResult) (h : Acts p s u) (job : p .job = true) (port : p .port = true)
    (reader : p .reader = true) (notices : p .notices = true) :
    Acts p s (handResult r u) := by
  unfold handResult; try dsimp only
  repeat' (first | with_reducible assumption | with_reducible apply haltOnLoss_acts
                  | with_reducible apply nextBlockWrite_acts | with_reducible apply setJob_acts
                  | with_reducible apply setReader_acts | split | with_reducible rfl)

theorem lookAtChain_acts (h : Acts p s u) (port : p .port = true) (reader : p .reader = true) :
    Acts p s (lookAtChain u) := by
  unfold lookAtChain; try dsimp only
  repeat' (first | with_reducible assumption | with_reducible apply beginExamination_acts
                  | with_reducible apply beginLinkRead_acts | with_reducible apply setReader_acts | split
                  | with_reducible rfl)

theorem takeBlock_acts (h : Acts p s u) (port : p .port = true) (reader : p .reader = true) :
    Acts p s (takeBlock u) := by
  unfold takeBlock; try dsimp only
  repeat' (first | with_reducible assumption | with_reducible apply request_acts
                  | with_reducible apply setReader_acts | split | with_reducible rfl)

theorem rejectKind_acts (h : Acts p s u) (port : p .port = true) (reader : p .reader = true) :
    Acts p s (rejectKind u) := by
  unfold rejectKind; try dsimp only
  repeat' (first | with_reducible assumption | with_reducible apply nextBlockWrite_acts
                  | with_reducible apply setReader_acts | split | with_reducible rfl)

theorem blockEmpty_acts (h : Acts p s u) (port : p .port = true) (reader : p .reader = true)
    (notices : p .notices = true) :
    Acts p s (blockEmpty u) := by
  unfold blockEmpty; try dsimp only
  repeat' (first | with_reducible assumption | with_reducible apply beginExamination_acts
                  | with_reducible apply haltOnPending_acts | with_reducible apply enterWait_acts
                  | with_reducible apply setReader_acts | split | with_reducible rfl)

theorem classifyBlock_acts (h : Acts p s u) (port : p .port = true) (reader : p .reader = true)
    (notices : p .notices = true) :
    Acts p s (classifyBlock u) := by
  unfold classifyBlock; try dsimp only
  repeat' (first | with_reducible assumption | with_reducible apply enterHalted_acts
                  | with_reducible apply takeBlock_acts | with_reducible apply rejectKind_acts
                  | with_reducible apply blockEmpty_acts | split | with_reducible rfl)

theorem examinationRead_acts (half : Nat) (data : List Byte) (h : Acts p s u) (port : p .port = true)
    (reader : p .reader = true) (notices : p .notices = true) :
    Acts p s (examinationRead half data u) := by
  unfold examinationRead; try dsimp only
  repeat' (first | with_reducible assumption | with_reducible apply classifyBlock_acts
                  | with_reducible apply setReader_acts | split | with_reducible rfl)

theorem linkRead_acts (data : List Byte) (h : Acts p s u) (port : p .port = true) (reader : p .reader = true)
    (notices : p .notices = true) :
    Acts p s (linkRead data u) := by
  unfold linkRead; try dsimp only
  repeat' (first | with_reducible assumption | with_reducible apply beginExamination_acts
                  | with_reducible apply beginLinkRead_acts | with_reducible apply enterHalted_acts
                  | with_reducible apply haltOnPending_acts | with_reducible apply enterWait_acts
                  | with_reducible apply setReader_acts | split | with_reducible rfl)

theorem resultCodeWritten_acts (h : Acts p s u) (port : p .port = true) :
    Acts p s (resultCodeWritten u) := by
  unfold resultCodeWritten; try dsimp only
  repeat' (first | with_reducible assumption | with_reducible apply request_acts | split | with_reducible rfl)

theorem resultStateWritten_acts (h : Acts p s u) (port : p .port = true) (reader : p .reader = true)
    (notices : p .notices = true) :
    Acts p s (resultStateWritten u) := by
  unfold resultStateWritten; try dsimp only
  repeat' (first | with_reducible assumption | with_reducible apply raise_acts
                  | with_reducible apply beginLinkRead_acts | with_reducible apply haltOnPending_acts
                  | with_reducible apply setReader_acts | split | with_reducible rfl)

theorem blockWritten_acts (h : Acts p s u) (port : p .port = true) (reader : p .reader = true) :
    Acts p s (blockWritten u) := by
  unfold blockWritten; try dsimp only
  repeat' (first | with_reducible assumption | with_reducible apply nextBlockWrite_acts
                  | with_reducible apply setReader_acts | split | with_reducible rfl)

theorem beginSlew_acts (target : Angle) (settleMs : Nat) (errors : Nat) (h : Acts p s u)
    (turntable : p .turntable = true) :
    Acts p s (beginSlew target settleMs errors u) := by
  unfold beginSlew; try dsimp only
  repeat' (first | with_reducible assumption | with_reducible apply setTurntable_acts | split | with_reducible rfl)

theorem moveRequest_acts (target : Angle) (settleMs : Nat) (h : Acts p s u) (turntable : p .turntable = true) :
    Acts p s (moveRequest target settleMs u).1 := by
  unfold moveRequest; try dsimp only
  repeat' (first | with_reducible assumption | with_reducible apply beginSlew_acts
                  | with_reducible apply setTurntable_acts | split | with_reducible rfl)

theorem trackRequest_acts (rate : Nat) (h : Acts p s u) (turntable : p .turntable = true) :
    Acts p s (trackRequest rate u).1 := by
  unfold trackRequest; try dsimp only
  repeat' (first | with_reducible assumption | with_reducible apply setTurntable_acts | split | with_reducible rfl)

theorem decelerate_acts (h : Acts p s u) (turntable : p .turntable = true) :
    Acts p s (decelerate u) := by
  unfold decelerate; try dsimp only
  repeat' (first | with_reducible assumption | with_reducible apply setTurntable_acts | split | with_reducible rfl)

theorem enterTurntableFault_acts (h : Acts p s u) (turntable : p .turntable = true) (notices : p .notices = true) :
    Acts p s (enterTurntableFault u) := by
  unfold enterTurntableFault; try dsimp only
  repeat' (first | with_reducible assumption | with_reducible apply raise_acts
                  | with_reducible apply setTurntable_acts | split | with_reducible rfl)

/-- Every record of the reserve class has room for itself; one of the point class leaves the reserve free (R79). -/
theorem entriesSize_append (x y : List Entry) : entriesSize (x ++ y) = entriesSize x + entriesSize y := by
  induction x with
  | nil => simp [entriesSize]
  | cons e es ih => simp [entriesSize, ih, Nat.add_assoc]

theorem pointSize_append (x y : List Entry) : pointSize (x ++ y) = pointSize x + pointSize y := by
  induction x with
  | nil => simp [pointSize]
  | cons e es ih => simp [pointSize, ih, Nat.add_assoc]

theorem pointSize_le (x : List Entry) : pointSize x ≤ entriesSize x := by
  induction x with
  | nil => exact Nat.le_refl _
  | cons e es ih => simp only [pointSize, entriesSize]; split <;> omega

theorem queueKept_append {es : List Entry} {r : Rec} {l : List Entry} {n : Nat} (hroom : entriesSize es + n ≤ r.limit)
    (hsize : entriesSize l = n) (hpoint : r.isPoint = false → pointSize l = 0) : QueueKept es (es ++ l) := by
  intro hq hp
  have h1 := entriesSize_append es l
  have h2 := pointSize_append es l
  have h3 := pointSize_le (es ++ l)
  cases hr : r.isPoint
  · have := hpoint hr
    simp only [Rec.limit, hr, Bool.false_eq_true, if_false] at hroom
    omega
  · simp only [Rec.limit, hr, if_true, pointLimit, queueCapacity] at *
    omega

theorem offer_acts (r : Rec) (h : Acts p s u) (staging : p .staging = true) (loss : p .loss = true) :
    Acts p s (offer r u).1 := by
  unfold offer
  split
  · rename_i hroom
    replace hroom : u.occupancy + u.bytesFor r ≤ r.limit := of_decide_eq_true hroom
    simp only [State.bytesFor, State.occupancy] at hroom
    split
    · rename_i hl
      refine setLoss_acts _ (setStaging_acts _ h staging ?_) loss
      simp only [Staging.append, List.append_assoc]
      refine queueKept_append hroom ?_ ?_
      · simp [entriesSize, Rec.size, gapSize, hl, Nat.add_comm]
      · intro hr
        have hg : (Rec.gap u.loss).isPoint = false := rfl
        simp [pointSize, hg, hr]
    · rename_i hl
      refine setStaging_acts _ h staging (queueKept_append hroom ?_ ?_)
      · simp [entriesSize, hl]
      · intro hr; simp [pointSize, hr]
  · exact h

theorem offerReserve_acts (r : Rec) (h : Acts p s u) (staging : p .staging = true) (loss : p .loss = true) :
    Acts p s (offerReserve r u).1 := by
  have ho := offer_acts r h staging loss
  unfold offerReserve; dsimp only
  split
  · exact ho
  · exact setLoss_acts _ ho loss

theorem entriesSize_filter (f : Entry → Bool) (es : List Entry) : entriesSize (es.filter f) ≤ entriesSize es := by
  induction es with
  | nil => exact Nat.le_refl _
  | cons e es ih => simp only [List.filter]; split <;> simp only [entriesSize] <;> omega

theorem pointSize_filter (f : Entry → Bool) (es : List Entry) : pointSize (es.filter f) ≤ pointSize es := by
  induction es with
  | nil => exact Nat.le_refl _
  | cons e es ih => simp only [List.filter]; split <;> simp only [pointSize] <;> omega

/-- Removing records keeps the queue's bounds. -/
theorem queueKept_filter (f : Entry → Bool) (es : List Entry) : QueueKept es (es.filter f) := fun h1 h2 =>
  ⟨Nat.le_trans (entriesSize_filter f es) h1, Nat.le_trans (pointSize_filter f es) h2⟩

theorem queueKept_tail (e : Entry) (es : List Entry) : QueueKept (e :: es) es := by
  intro h1 h2
  simp only [entriesSize, pointSize] at h1 h2
  exact ⟨by omega, by omega⟩

theorem discardQueued_acts (h : Acts p s u) (staging : p .staging = true) (pages : p .pages = true) :
    Acts p s (discardQueued u).1 :=
  setPages_acts _ (setStaging_acts _ h staging (queueKept_filter _ _)) pages

theorem placeMark_acts (reason : SealReason) (h : Acts p s u) (pages : p .pages = true) :
    Acts p s (placeMark reason u) := by
  unfold placeMark; try dsimp only
  repeat' (first | with_reducible assumption | with_reducible apply setPages_acts | split | with_reducible rfl)

theorem placeDrain_acts (h : Acts p s u) (pages : p .pages = true) :
    Acts p s (placeDrain u) := by
  unfold placeDrain; try dsimp only
  repeat' (first | with_reducible assumption | with_reducible apply setPages_acts | split | with_reducible rfl)

theorem clearMark_acts (h : Acts p s u) (pages : p .pages = true) :
    Acts p s (clearMark u) := by
  unfold clearMark; try dsimp only
  repeat' (first | with_reducible assumption | with_reducible apply setPages_acts | split | with_reducible rfl)

theorem finishJob_acts (kind : JobKind) (r : JobResult) (h : Acts p s u) (pages : p .pages = true)
    (job : p .job = true) (port : p .port = true) (reader : p .reader = true) (notices : p .notices = true) :
    Acts p s (finishJob kind r u) := by
  unfold finishJob; try dsimp only
  repeat' (first | with_reducible assumption | with_reducible apply handResult_acts
                  | with_reducible apply placeMark_acts | with_reducible apply setJob_acts | split
                  | with_reducible rfl)

theorem finishOpen_acts (kind : JobKind) (c : ResultCode) (h : Acts p s u) (pages : p .pages = true)
    (job : p .job = true) (port : p .port = true) (reader : p .reader = true) (notices : p .notices = true)
    (freeCount : p .freeCount = true) :
    Acts p s (finishOpen kind c u) := by
  unfold finishOpen; try dsimp only
  repeat' (first | with_reducible assumption | with_reducible apply spendFree_acts
                  | with_reducible apply finishJob_acts | split | with_reducible rfl)

theorem releaseStations_acts (h : Acts p s u) (photo : p .photo = true) :
    Acts p s (releaseStations u) := by
  unfold releaseStations; try dsimp only
  repeat' (first | with_reducible assumption | with_reducible apply setPhoto_acts | split | with_reducible rfl
                  | exact Or.inl (Nat.le_refl _) | exact Or.inr (Nat.zero_le _))

theorem putScan_acts (j : ScanJob) (h : Acts p s u) (job : p .job = true) :
    Acts p s (putScan j u) := by
  unfold putScan; try dsimp only
  repeat' (first | with_reducible assumption | with_reducible apply setJob_acts | split | with_reducible rfl)

theorem putPhoto_acts (p0 : PhotoJob) (h : Acts p s u) (job : p .job = true) :
    Acts p s (putPhoto p0 u) := by
  unfold putPhoto; try dsimp only
  repeat' (first | with_reducible assumption | with_reducible apply setJob_acts | split | with_reducible rfl)

theorem endScan_acts (j : ScanJob) (h : Acts p s u) (turntable : p .turntable = true) (job : p .job = true)
    (photo : p .photo = true) (port : p .port = true) (reader : p .reader = true) (notices : p .notices = true) :
    Acts p s (endScan j u) := by
  unfold endScan; try dsimp only
  repeat' (first | with_reducible assumption | with_reducible apply handResult_acts
                  | with_reducible apply decelerate_acts | with_reducible apply releaseStations_acts | split
                  | with_reducible rfl)

theorem handPhoto_acts (p0 : PhotoJob) (h : Acts p s u) (job : p .job = true) (photo : p .photo = true)
    (port : p .port = true) (reader : p .reader = true) (notices : p .notices = true)
    (freeCount : p .freeCount = true) :
    Acts p s (handPhoto p0 u) := by
  unfold handPhoto; try dsimp only
  repeat' (first | with_reducible assumption | with_reducible apply spendFree_acts
                  | with_reducible apply handResult_acts | with_reducible apply releaseStations_acts | split
                  | with_reducible rfl)

theorem endPhotoJob_acts (p0 : PhotoJob) (h : Acts p s u) (pages : p .pages = true) (job : p .job = true)
    (photo : p .photo = true) (port : p .port = true) (reader : p .reader = true) (notices : p .notices = true)
    (freeCount : p .freeCount = true) :
    Acts p s (endPhotoJob p0 u) := by
  unfold endPhotoJob; try dsimp only
  repeat' (first | with_reducible assumption | with_reducible apply placeMark_acts
                  | with_reducible apply putPhoto_acts | with_reducible apply handPhoto_acts | split
                  | with_reducible rfl)

theorem jobTold_acts (h : Acts p s u) (turntable : p .turntable = true) (job : p .job = true)
    (photo : p .photo = true) (port : p .port = true) (reader : p .reader = true) (notices : p .notices = true)
    (freeCount : p .freeCount = true) :
    Acts p s (jobTold u) := by
  unfold jobTold; try dsimp only
  repeat' (first | with_reducible assumption | with_reducible apply handResult_acts
                  | with_reducible apply endScan_acts | with_reducible apply handPhoto_acts | split
                  | with_reducible rfl)

theorem discardScan_acts (j : ScanJob) (h : Acts p s u) (turntable : p .turntable = true) (staging : p .staging = true)
    (pages : p .pages = true) (job : p .job = true) (photo : p .photo = true) (port : p .port = true)
    (reader : p .reader = true) (notices : p .notices = true) : Acts p s (discardScan j u) := by
  unfold discardScan
  have hd := discardQueued_acts (clearMark_acts h pages) staging pages
  exact endScan_acts _ hd turntable job photo port reader notices

end Sys2Proof.Machine
end

