-- ==== Sys2Proof/Laws/ActsPages.lean ====
section
/-! SUPPORT. What an operation can do (see Laws/Acts): the Page Manager. -/

namespace Sys2Proof.Machine

variable {p : Field → Bool} {s u : State}

theorem discardOnPageWait_acts (h : Acts p s u) (turntable : p .turntable = true) (staging : p .staging = true)
    (pages : p .pages = true) (job : p .job = true) (photo : p .photo = true) (port : p .port = true)
    (reader : p .reader = true) (notices : p .notices = true) :
    Acts p s (discardOnPageWait u) := by
  unfold discardOnPageWait; try dsimp only
  repeat' (first | with_reducible assumption | with_reducible apply discardScan_acts | split | with_reducible rfl)

theorem setPageWait_acts (h : Acts p s u) (pages : p .pages = true) (notices : p .notices = true) :
    Acts p s (setPageWait u) := by
  unfold setPageWait; try dsimp only
  repeat' (first | with_reducible assumption | with_reducible apply raise_acts | with_reducible apply setPages_acts
                  | split | with_reducible rfl)

theorem exhaust_acts (h : Acts p s u) (turntable : p .turntable = true) (staging : p .staging = true)
    (pages : p .pages = true) (job : p .job = true) (photo : p .photo = true) (port : p .port = true)
    (reader : p .reader = true) (notices : p .notices = true) :
    Acts p s (exhaust u) := by
  unfold exhaust; try dsimp only
  repeat' (first | with_reducible assumption | with_reducible apply discardOnPageWait_acts
                  | with_reducible apply setPageWait_acts | split | with_reducible rfl)

theorem readDescriptor_acts (table : Nat × Nat) (k : Nat) (h : Acts p s u) (pages : p .pages = true)
    (port : p .port = true) :
    Acts p s (readDescriptor table k u) := by
  unfold readDescriptor; try dsimp only
  repeat' (first | with_reducible assumption | with_reducible apply request_acts | with_reducible apply setPages_acts
                  | split | with_reducible rfl)

theorem openPass_acts (h : Acts p s u) (turntable : p .turntable = true) (staging : p .staging = true)
    (pages : p .pages = true) (job : p .job = true) (photo : p .photo = true) (port : p .port = true)
    (reader : p .reader = true) (notices : p .notices = true) :
    Acts p s (openPass u) := by
  unfold openPass; try dsimp only
  repeat' (first | with_reducible assumption | with_reducible apply exhaust_acts
                  | with_reducible apply readDescriptor_acts | split | with_reducible rfl)

theorem wakePages_acts (h : Acts p s u) (turntable : p .turntable = true) (staging : p .staging = true)
    (pages : p .pages = true) (job : p .job = true) (photo : p .photo = true) (port : p .port = true)
    (reader : p .reader = true) (notices : p .notices = true) :
    Acts p s (wakePages u) := by
  unfold wakePages; try dsimp only
  repeat' (first | with_reducible assumption | with_reducible apply openPass_acts
                  | with_reducible apply setPages_acts | split | with_reducible rfl)

theorem passEnds_acts (h : Acts p s u) (turntable : p .turntable = true) (staging : p .staging = true)
    (pages : p .pages = true) (job : p .job = true) (photo : p .photo = true) (port : p .port = true)
    (reader : p .reader = true) (notices : p .notices = true) :
    Acts p s (passEnds u) := by
  unfold passEnds; try dsimp only
  repeat' (first | with_reducible assumption | with_reducible apply exhaust_acts | with_reducible apply openPass_acts
                  | with_reducible apply setPages_acts | split | with_reducible rfl)

theorem descriptorWrite_acts (purpose : Purpose) (p0 : Page) (fs : Fields) (h : Acts p s u) (port : p .port = true) :
    Acts p s (descriptorWrite purpose p0 fs u) := by
  unfold descriptorWrite; try dsimp only
  repeat' (first | with_reducible assumption | with_reducible apply request_acts | split | with_reducible rfl)

theorem descriptorState_acts (purpose : Purpose) (p0 : Page) (code : Nat) (h : Acts p s u) (port : p .port = true) :
    Acts p s (descriptorState purpose p0 code u) := by
  unfold descriptorState; try dsimp only
  repeat' (first | with_reducible assumption | with_reducible apply descriptorWrite_acts | split | with_reducible rfl)

theorem takePage_acts (i : Nat) (d : List Byte) (count : Nat) (h : Acts p s u) (pages : p .pages = true)
    (port : p .port = true) :
    Acts p s (takePage i d count u) := by
  unfold takePage; try dsimp only
  repeat' (first | with_reducible assumption | with_reducible apply descriptorWrite_acts
                  | with_reducible apply setPages_acts | split | with_reducible rfl)

theorem descriptorRead_acts (d : List Byte) (h : Acts p s u) (turntable : p .turntable = true)
    (staging : p .staging = true) (pages : p .pages = true) (job : p .job = true) (photo : p .photo = true)
    (port : p .port = true) (reader : p .reader = true) (notices : p .notices = true) :
    Acts p s (descriptorRead d u) := by
  unfold descriptorRead; try dsimp only
  repeat' (first | with_reducible assumption | with_reducible apply readDescriptor_acts
                  | with_reducible apply passEnds_acts | with_reducible apply takePage_acts
                  | with_reducible apply setPages_acts | split | with_reducible rfl)

theorem putPage_acts (p0 : Page) (h : Acts p s u) (pages : p .pages = true) :
    Acts p s (putPage p0 u) := by
  unfold putPage; try dsimp only
  repeat' (first | with_reducible assumption | with_reducible apply setPages_acts | split | with_reducible rfl)

theorem takeFieldWritten_acts (h : Acts p s u) (pages : p .pages = true) (port : p .port = true) :
    Acts p s (takeFieldWritten u) := by
  unfold takeFieldWritten; try dsimp only
  repeat' (first | with_reducible assumption | with_reducible apply descriptorState_acts
                  | with_reducible apply putPage_acts | split | with_reducible rfl)

theorem takeStateWritten_acts (h : Acts p s u) (pages : p .pages = true) :
    Acts p s (takeStateWritten u) := by
  unfold takeStateWritten; try dsimp only
  repeat' (first | with_reducible assumption | with_reducible apply putPage_acts | split | with_reducible rfl)

theorem beginSeal_acts (r : SealReason) (p0 : Page) (h : Acts p s u) (pages : p .pages = true) :
    Acts p s (beginSeal r p0 u) := by
  unfold beginSeal; try dsimp only
  repeat' (first | with_reducible assumption | with_reducible apply putPage_acts | split | with_reducible rfl)

theorem sealProgress_acts (h : Acts p s u) (pages : p .pages = true) (port : p .port = true) :
    Acts p s (sealProgress u) := by
  unfold sealProgress; try dsimp only
  repeat' (first | with_reducible assumption | with_reducible apply descriptorWrite_acts
                  | with_reducible apply putPage_acts | split | with_reducible rfl)

theorem sealFieldWritten_acts (h : Acts p s u) (pages : p .pages = true) (port : p .port = true) :
    Acts p s (sealFieldWritten u) := by
  unfold sealFieldWritten; try dsimp only
  repeat' (first | with_reducible assumption | with_reducible apply descriptorState_acts
                  | with_reducible apply putPage_acts | split | with_reducible rfl)

theorem sealStateWritten_acts (h : Acts p s u) (turntable : p .turntable = true) (pages : p .pages = true)
    (job : p .job = true) (photo : p .photo = true) (port : p .port = true) (reader : p .reader = true)
    (notices : p .notices = true) (freeCount : p .freeCount = true) :
    Acts p s (sealStateWritten u) := by
  unfold sealStateWritten; try dsimp only
  repeat' (first | with_reducible assumption | with_reducible apply raise_acts | with_reducible apply clearMark_acts
                  | with_reducible apply jobTold_acts | with_reducible apply setPages_acts | split
                  | with_reducible rfl)

theorem markReached_acts (m : EndMark) (h : Acts p s u) (turntable : p .turntable = true) (pages : p .pages = true)
    (job : p .job = true) (photo : p .photo = true) (port : p .port = true) (reader : p .reader = true)
    (notices : p .notices = true) (freeCount : p .freeCount = true) :
    Acts p s (markReached m u) := by
  unfold markReached; try dsimp only
  repeat' (first | with_reducible assumption | with_reducible apply clearMark_acts
                  | with_reducible apply jobTold_acts | with_reducible apply beginSeal_acts
                  | with_reducible apply setPages_acts | split | with_reducible rfl)

theorem checkMark_acts (h : Acts p s u) (turntable : p .turntable = true) (pages : p .pages = true)
    (job : p .job = true) (photo : p .photo = true) (port : p .port = true) (reader : p .reader = true)
    (notices : p .notices = true) (freeCount : p .freeCount = true) :
    Acts p s (checkMark u) := by
  unfold checkMark; try dsimp only
  repeat' (first | with_reducible assumption | with_reducible apply clearMark_acts
                  | with_reducible apply jobTold_acts | with_reducible apply markReached_acts | split
                  | with_reducible rfl)

theorem issueContinuation_acts (h0 : HeaderRec) (p0 : Page) (h : Acts p s u) (pages : p .pages = true)
    (port : p .port = true) :
    Acts p s (issueContinuation h0 p0 u) := by
  unfold issueContinuation; try dsimp only
  repeat' (first | with_reducible assumption | with_reducible apply request_acts | with_reducible apply putPage_acts
                  | split | with_reducible rfl)

/-- Two queues of the same records in the same order have the same size. -/
theorem entriesSize_map {f : Entry → Entry} (hf : ∀ e, (f e).record = e.record) (es : List Entry) :
    entriesSize (es.map f) = entriesSize es := by
  induction es with
  | nil => rfl
  | cons e es ih => simp only [List.map, entriesSize, hf, ih]

theorem pointSize_map {f : Entry → Entry} (hf : ∀ e, (f e).record = e.record) (es : List Entry) :
    pointSize (es.map f) = pointSize es := by
  induction es with
  | nil => rfl
  | cons e es ih => simp only [List.map, pointSize, hf, ih]

theorem queueKept_markIssued (seq : Nat) (es : List Entry) : QueueKept es (markIssued seq es) := by
  have hf : ∀ e : Entry, (if e.seq = seq then { e with issued := true } else e).record = e.record := by
    intro e; split <;> rfl
  intro h1 h2
  unfold markIssued
  rw [entriesSize_map hf, pointSize_map hf]
  exact ⟨h1, h2⟩

theorem issueRecord_acts (e : Entry) (p0 : Page) (h : Acts p s u) (staging : p .staging = true)
    (pages : p .pages = true)
    (port : p .port = true) : Acts p s (issueRecord e p0 u) :=
  request_acts _ (setPages_acts _ (setStaging_acts _ h staging (queueKept_markIssued _ _)) pages) port

theorem issueStep_acts {v : State} (hv : issueStep u = some v) (h : Acts p s u) (staging : p .staging = true)
    (pages : p .pages = true) (port : p .port = true) : Acts p s v := by
  unfold issueStep at hv
  split at hv
  · split at hv
    · split at hv
      · split at hv
        · cases hv; exact issueContinuation_acts _ _ h pages port
        · cases hv; exact issueRecord_acts _ _ h staging pages port
      · cases hv; exact issueRecord_acts _ _ h staging pages port
    · cases hv
  · cases hv

theorem sealIfFull_acts (h : Acts p s u) (pages : p .pages = true) :
    Acts p s (sealIfFull u) := by
  unfold sealIfFull; try dsimp only
  repeat' (first | with_reducible assumption | with_reducible apply beginSeal_acts | split | with_reducible rfl)

theorem removeEntry_acts (seq : Nat) (h : Acts p s u) (staging : p .staging = true) : Acts p s (removeEntry seq u) :=
  setStaging_acts _ h staging (queueKept_filter _ _)

theorem countLost_acts (e : Entry) (h : Acts p s u) (loss : p .loss = true) (pages : p .pages = true) :
    Acts p s (countLost e u) := by
  unfold countLost; try dsimp only
  repeat' (first | with_reducible assumption | with_reducible apply setLoss_acts | with_reducible apply setPages_acts
                  | split | with_reducible rfl)

theorem dropStep_acts {v : State} (hv : dropStep u = some v) (h : Acts p s u) (staging : p .staging = true)
    (loss : p .loss = true) (pages : p .pages = true) : Acts p s v := by
  unfold dropStep at hv
  split at hv
  · split at hv
    · cases hv; exact countLost_acts _ (removeEntry_acts _ h staging) loss pages
    · cases hv
  · cases hv

theorem dropHeads_acts (n : Nat) (h : Acts p s u) (staging : p .staging = true) (loss : p .loss = true)
    (pages : p .pages = true) : Acts p s (dropHeads n u) := by
  induction n generalizing u with
  | zero => exact h
  | succ n ih =>
    unfold dropHeads
    split
    · rename_i hv; exact ih (dropStep_acts hv h staging loss pages)
    · exact h

theorem issueRecords_acts (n : Nat) (h : Acts p s u) (staging : p .staging = true) (loss : p .loss = true)
    (pages : p .pages = true) (port : p .port = true) : Acts p s (issueRecords n u) := by
  induction n generalizing u with
  | zero => exact h
  | succ n ih =>
    unfold issueRecords
    split
    · rename_i hv; exact ih (dropStep_acts hv h staging loss pages)
    · split
      · rename_i hv; exact ih (issueStep_acts hv h staging pages port)
      · exact sealIfFull_acts h pages

theorem advancePages_acts (h : Acts p s u) (turntable : p .turntable = true) (staging : p .staging = true)
    (loss : p .loss = true) (pages : p .pages = true) (job : p .job = true) (photo : p .photo = true)
    (port : p .port = true) (reader : p .reader = true) (notices : p .notices = true)
    (freeCount : p .freeCount = true) :
    Acts p s (advancePages u) := by
  unfold advancePages; try dsimp only
  repeat' (first | with_reducible assumption | with_reducible apply discardOnPageWait_acts
                  | with_reducible apply openPass_acts | with_reducible apply sealProgress_acts
                  | with_reducible apply checkMark_acts | with_reducible apply dropHeads_acts
                  | with_reducible apply issueRecords_acts | split | with_reducible rfl)

theorem raiseFill_acts (n : Nat) (h : Acts p s u) (pages : p .pages = true) :
    Acts p s (raiseFill n u) := by
  unfold raiseFill; try dsimp only
  repeat' (first | with_reducible assumption | with_reducible apply putPage_acts | split | with_reducible rfl)

theorem setFirsts_acts (r : Rec) (h : Acts p s u) (pages : p .pages = true) :
    Acts p s (setFirsts r u) := by
  unfold setFirsts; try dsimp only
  repeat' (first | with_reducible assumption | with_reducible apply putPage_acts | split | with_reducible rfl)

theorem scanShotStored_acts (echoes : Nat) (j : ScanJob) (h : Acts p s u) (job : p .job = true) :
    Acts p s (scanShotStored echoes j u) := by
  unfold scanShotStored; try dsimp only
  repeat' (first | with_reducible assumption | with_reducible apply putScan_acts | split | with_reducible rfl)

theorem scanTrailerStored_acts (line : Nat) (j : ScanJob) (h : Acts p s u) (job : p .job = true)
    (port : p .port = true) (reader : p .reader = true) :
    Acts p s (scanTrailerStored line j u) := by
  unfold scanTrailerStored; try dsimp only
  repeat' (first | with_reducible assumption | with_reducible apply pushProgress_acts
                  | with_reducible apply putScan_acts | split | with_reducible rfl)

theorem markWritten_acts (seq : Nat) (h : Acts p s u) (markWait : p .markWait = true) (pages : p .pages = true)
    (job : p .job = true) (port : p .port = true) (reader : p .reader = true) (notices : p .notices = true) :
    Acts p s (markWritten seq u) := by
  unfold markWritten; try dsimp only
  repeat' (first | with_reducible assumption | with_reducible apply finishJob_acts
                  | with_reducible apply setMarkWait_acts | split | with_reducible rfl)

theorem recordReport_acts (e : Entry) (h : Acts p s u) (markWait : p .markWait = true) (pages : p .pages = true)
    (job : p .job = true) (port : p .port = true) (reader : p .reader = true) (notices : p .notices = true) :
    Acts p s (recordReport e u) := by
  unfold recordReport; try dsimp only
  repeat' (first | with_reducible assumption | with_reducible apply putPage_acts
                  | with_reducible apply scanShotStored_acts | with_reducible apply scanTrailerStored_acts
                  | with_reducible apply markWritten_acts | with_reducible apply setPages_acts | split
                  | with_reducible rfl)

theorem recordWritten_acts (len : Nat) (h : Acts p s u) (staging : p .staging = true) (markWait : p .markWait = true)
    (pages : p .pages = true) (job : p .job = true) (port : p .port = true) (reader : p .reader = true)
    (notices : p .notices = true) : Acts p s (recordWritten len u) := by
  unfold recordWritten
  split
  · rename_i e es he
    exact recordReport_acts _ (setFirsts_acts _ (raiseFill_acts _ (setStaging_acts _ h staging
      (he ▸ queueKept_tail e es)) pages) pages) markWait pages job port reader notices
  · exact h

theorem continuationWritten_acts (len : Nat) (h : Acts p s u) (pages : p .pages = true) :
    Acts p s (continuationWritten len u) := by
  unfold continuationWritten; try dsimp only
  repeat' (first | with_reducible assumption | with_reducible apply putPage_acts
                  | with_reducible apply raiseFill_acts | split | with_reducible rfl)

theorem countAll_acts (es : List Entry) (h : Acts p s u) (loss : p .loss = true) (pages : p .pages = true) :
    Acts p s (countAll es u) := by
  induction es generalizing u with
  | nil => exact h
  | cons e es ih => exact ih (countLost_acts _ h loss pages)

theorem endAbandon_acts (h : Acts p s u) (staging : p .staging = true) (loss : p .loss = true)
    (pages : p .pages = true) :
    Acts p s (endAbandon u) := by
  unfold endAbandon
  split
  · split
    · exact countAll_acts _ (setStaging_acts _ (setPages_acts _ h pages) staging (queueKept_filter _ _)) loss pages
    · exact h
  · exact h

end Sys2Proof.Machine
end

