-- ==== Sys2Proof/Laws/ActsScan.lean ====
section
/-! SUPPORT. What an operation can do (see Laws/Acts): the SCAN job, its lines, and the Shot Scheduler. -/

namespace Sys2Proof.Machine

variable {p : Field → Bool} {s u : State}

theorem startScan_acts (p0 : ScanParams) (h : Acts p s u) (sched : p .sched = true) (tracker : p .tracker = true)
    (intake : p .intake = true) (line : p .line = true) (job : p .job = true) (photo : p .photo = true) :
    Acts p s (startScan p0 u) := by
  unfold startScan; try dsimp only
  repeat' (first | with_reducible assumption | with_reducible apply putScan_acts | with_reducible apply setSched_acts
                  | with_reducible apply setTracker_acts | with_reducible apply setIntake_acts
                  | with_reducible apply setLine_acts | with_reducible apply setPhoto_acts | split
                  | with_reducible rfl | exact Or.inl ⟨rfl, rfl⟩ | exact Or.inr rfl | exact Or.inl (Nat.le_refl _)
                  | exact Or.inr (Nat.zero_le _))

theorem failPre_acts (c : ResultCode) (j : ScanJob) (h : Acts p s u) (turntable : p .turntable = true)
    (pages : p .pages = true) (job : p .job = true) (photo : p .photo = true) (port : p .port = true)
    (reader : p .reader = true) (notices : p .notices = true) :
    Acts p s (failPre c j u) := by
  unfold failPre; try dsimp only
  repeat' (first | with_reducible assumption | with_reducible apply decelerate_acts
                  | with_reducible apply placeMark_acts | with_reducible apply putScan_acts
                  | with_reducible apply endScan_acts | split | with_reducible rfl)

theorem enterRunIn_acts (j : ScanJob) (h : Acts p s u) (job : p .job = true) :
    Acts p s (enterRunIn j u) := by
  unfold enterRunIn; try dsimp only
  repeat' (first | with_reducible assumption | with_reducible apply putScan_acts | split | with_reducible rfl)

theorem enterPosition_acts (j : ScanJob) (h : Acts p s u) (turntable : p .turntable = true) (pages : p .pages = true)
    (job : p .job = true) (photo : p .photo = true) (port : p .port = true) (reader : p .reader = true)
    (notices : p .notices = true) :
    Acts p s (enterPosition j u) := by
  unfold enterPosition; try dsimp only
  repeat' (first | with_reducible assumption | with_reducible apply moveRequest_acts
                  | with_reducible apply putScan_acts | with_reducible apply failPre_acts
                  | with_reducible apply enterRunIn_acts | split | with_reducible rfl)

theorem issueTrack_acts (j : ScanJob) (h : Acts p s u) (turntable : p .turntable = true) (pages : p .pages = true)
    (job : p .job = true) (photo : p .photo = true) (port : p .port = true) (reader : p .reader = true)
    (notices : p .notices = true) :
    Acts p s (issueTrack j u) := by
  unfold issueTrack; try dsimp only
  repeat' (first | with_reducible assumption | with_reducible apply trackRequest_acts
                  | with_reducible apply putScan_acts | with_reducible apply failPre_acts | split
                  | with_reducible rfl)

theorem runInIndex_acts (j : ScanJob) (h : Acts p s u) (turntable : p .turntable = true) (pages : p .pages = true)
    (job : p .job = true) (photo : p .photo = true) (port : p .port = true) (reader : p .reader = true)
    (notices : p .notices = true) :
    Acts p s (runInIndex j u) := by
  unfold runInIndex; try dsimp only
  repeat' (first | with_reducible assumption | with_reducible apply putScan_acts
                  | with_reducible apply issueTrack_acts | split | with_reducible rfl)

theorem takeScan_acts (h : Acts p s u) (turntable : p .turntable = true) (sched : p .sched = true)
    (tracker : p .tracker = true) (intake : p .intake = true) (line : p .line = true) (pages : p .pages = true)
    (job : p .job = true) (photo : p .photo = true) (port : p .port = true) (reader : p .reader = true)
    (notices : p .notices = true) :
    Acts p s (takeScan u) := by
  unfold takeScan; try dsimp only
  repeat' (first | with_reducible assumption | with_reducible apply handResult_acts
                  | with_reducible apply startScan_acts | with_reducible apply enterPosition_acts | split
                  | with_reducible rfl)

theorem beginDrain_acts (j : ScanJob) (h : Acts p s u) (turntable : p .turntable = true)
    (staging : p .staging = true) (pages : p .pages = true) (job : p .job = true) (photo : p .photo = true)
    (port : p .port = true) (reader : p .reader = true) (notices : p .notices = true) :
    Acts p s (beginDrain j u) := by
  unfold beginDrain; try dsimp only
  repeat' (first | with_reducible assumption | with_reducible apply placeMark_acts
                  | with_reducible apply placeDrain_acts | with_reducible apply putScan_acts
                  | with_reducible apply endScan_acts | with_reducible apply discardScan_acts | split
                  | with_reducible rfl)

theorem enterEnding_acts (j : ScanJob) (h : Acts p s u) (turntable : p .turntable = true) (sector : p .sector = true)
    (sched : p .sched = true) (staging : p .staging = true) (pages : p .pages = true) (job : p .job = true)
    (photo : p .photo = true) (port : p .port = true) (reader : p .reader = true) (notices : p .notices = true) :
    Acts p s (enterEnding j u) := by
  unfold enterEnding; try dsimp only
  repeat' (first | with_reducible assumption | with_reducible apply putScan_acts
                  | with_reducible apply beginDrain_acts | with_reducible apply setSector_acts
                  | with_reducible apply setSched_acts | split | with_reducible rfl | exact Or.inl ⟨rfl, rfl⟩
                  | exact Or.inr rfl)

theorem scanLineClosed_acts (r : LineReport) (h : Acts p s u) (turntable : p .turntable = true)
    (sector : p .sector = true) (sched : p .sched = true) (staging : p .staging = true) (pages : p .pages = true)
    (job : p .job = true) (photo : p .photo = true) (port : p .port = true) (reader : p .reader = true)
    (notices : p .notices = true) :
    Acts p s (scanLineClosed r u) := by
  unfold scanLineClosed; try dsimp only
  repeat' (first | with_reducible assumption | with_reducible apply pushProgress_acts
                  | with_reducible apply putScan_acts | with_reducible apply enterEnding_acts | split
                  | with_reducible rfl)

theorem scanTrackFault_acts (h : Acts p s u) (job : p .job = true) :
    Acts p s (scanTrackFault u) := by
  unfold scanTrackFault; try dsimp only
  repeat' (first | with_reducible assumption | with_reducible apply putScan_acts | split | with_reducible rfl)

theorem trackingCheck_acts (p0 : ScanParams) (line : Nat) (h : Acts p s u) (turntable : p .turntable = true)
    (h_line : p .line = true) (job : p .job = true) (notices : p .notices = true) :
    Acts p s (trackingCheck p0 line u) := by
  unfold trackingCheck; try dsimp only
  repeat' (first | with_reducible assumption | with_reducible apply enterTurntableFault_acts
                  | with_reducible apply scanTrackFault_acts | with_reducible apply setTurntable_acts
                  | with_reducible apply setLine_acts | split | with_reducible rfl)

theorem offerHeader_acts (line : Nat) (h : Acts p s u) (h_line : p .line = true) (staging : p .staging = true)
    (loss : p .loss = true) :
    Acts p s (offerHeader line u) := by
  unfold offerHeader; try dsimp only
  repeat' (first | with_reducible assumption | with_reducible apply offer_acts | with_reducible apply setLine_acts
                  | with_reducible apply setLoss_acts | split | with_reducible rfl)

theorem openLine_acts (p0 : ScanParams) (h : Acts p s u) (turntable : p .turntable = true) (sched : p .sched = true)
    (intake : p .intake = true) (line : p .line = true) (staging : p .staging = true) (loss : p .loss = true)
    (job : p .job = true) (notices : p .notices = true) :
    Acts p s (openLine p0 u) := by
  unfold openLine; try dsimp only
  repeat' (first | with_reducible assumption | with_reducible apply trackingCheck_acts
                  | with_reducible apply offerHeader_acts | with_reducible apply setSched_acts
                  | with_reducible apply setIntake_acts | with_reducible apply setLine_acts | split
                  | with_reducible rfl | exact Or.inl ⟨rfl, rfl⟩ | exact Or.inr rfl)

theorem lineOver_acts (h : Acts p s u) (sched : p .sched = true) (line : p .line = true) :
    Acts p s (lineOver u) := by
  unfold lineOver; try dsimp only
  repeat' (first | with_reducible assumption | with_reducible apply setSched_acts | with_reducible apply setLine_acts
                  | split | with_reducible rfl | exact Or.inl ⟨rfl, rfl⟩ | exact Or.inr rfl)

theorem closeLine_acts (line : Nat) (r : EndReport) (h : Acts p s u) (turntable : p .turntable = true)
    (sector : p .sector = true) (sched : p .sched = true) (h_line : p .line = true) (staging : p .staging = true)
    (loss : p .loss = true) (pages : p .pages = true) (job : p .job = true) (photo : p .photo = true)
    (port : p .port = true) (reader : p .reader = true) (notices : p .notices = true) :
    Acts p s (closeLine line r u) := by
  unfold closeLine; try dsimp only
  repeat' (first | with_reducible assumption | with_reducible apply offerReserve_acts
                  | with_reducible apply scanLineClosed_acts | with_reducible apply lineOver_acts
                  | with_reducible apply setLine_acts | split | with_reducible rfl)

theorem closeCheck_acts (h : Acts p s u) (turntable : p .turntable = true) (sector : p .sector = true)
    (sched : p .sched = true) (line : p .line = true) (staging : p .staging = true) (loss : p .loss = true)
    (pages : p .pages = true) (job : p .job = true) (photo : p .photo = true) (port : p .port = true)
    (reader : p .reader = true) (notices : p .notices = true) :
    Acts p s (closeCheck u) := by
  unfold closeCheck; try dsimp only
  repeat' (first | with_reducible assumption | with_reducible apply closeLine_acts | split | with_reducible rfl)

theorem endReport_acts (r : EndReport) (h : Acts p s u) (turntable : p .turntable = true) (sector : p .sector = true)
    (sched : p .sched = true) (line : p .line = true) (staging : p .staging = true) (loss : p .loss = true)
    (pages : p .pages = true) (job : p .job = true) (photo : p .photo = true) (port : p .port = true)
    (reader : p .reader = true) (notices : p .notices = true) :
    Acts p s (endReport r u) := by
  unfold endReport; try dsimp only
  repeat' (first | with_reducible assumption | with_reducible apply closeCheck_acts
                  | with_reducible apply setLine_acts | split | with_reducible rfl)

theorem markStop_acts (reason : StopReason) (h : Acts p s u) (line : p .line = true) :
    Acts p s (markStop reason u) := by
  unfold markStop; try dsimp only
  repeat' (first | with_reducible assumption | with_reducible apply setLine_acts | split | with_reducible rfl)

theorem shotLost_acts (h : Acts p s u) (line : p .line = true) (loss : p .loss = true) :
    Acts p s (shotLost u) := by
  unfold shotLost; try dsimp only
  repeat' (first | with_reducible assumption | with_reducible apply setLine_acts | with_reducible apply setLoss_acts
                  | split | with_reducible rfl)

theorem offerShot_acts (r : ShotRec) (h : Acts p s u) (line : p .line = true) (staging : p .staging = true)
    (loss : p .loss = true) :
    Acts p s (offerShot r u) := by
  unfold offerShot; try dsimp only
  repeat' (first | with_reducible assumption | with_reducible apply offer_acts | with_reducible apply shotLost_acts
                  | with_reducible apply setLine_acts | split | with_reducible rfl)

theorem targetClosed_acts (sl : Slot) (o : OpenShot) (h : Acts p s u) (line : p .line = true)
    (staging : p .staging = true) (loss : p .loss = true) :
    Acts p s (targetClosed sl o u) := by
  unfold targetClosed; try dsimp only
  repeat' (first | with_reducible assumption | with_reducible apply offerShot_acts
                  | with_reducible apply setLine_acts | split | with_reducible rfl)

theorem referenceSeen_acts (slot : Nat) (sl : Slot) (o : OpenShot) (e : Echo) (h : Acts p s u)
    (line : p .line = true) (slots : p .slots = true) :
    Acts p s (referenceSeen slot sl o e u) := by
  unfold referenceSeen; try dsimp only
  repeat' (first | with_reducible assumption | with_reducible apply setLine_acts | with_reducible apply setSlots_acts
                  | split | with_reducible rfl)

theorem referenceMissed_acts (h : Acts p s u) (line : p .line = true) :
    Acts p s (referenceMissed u) := by
  unfold referenceMissed; try dsimp only
  repeat' (first | with_reducible assumption | with_reducible apply setLine_acts | split | with_reducible rfl)

theorem shotClosed_acts (o : OpenShot) (h : Acts p s u) (line : p .line = true) (staging : p .staging = true)
    (loss : p .loss = true) (slots : p .slots = true) :
    Acts p s (shotClosed o u) := by
  unfold shotClosed; try dsimp only
  repeat' (first | with_reducible assumption | with_reducible apply targetClosed_acts
                  | with_reducible apply referenceSeen_acts | with_reducible apply referenceMissed_acts | split
                  | with_reducible rfl)

theorem endFiring_acts (cause : EndCause) (h : Acts p s u) (turntable : p .turntable = true)
    (sector : p .sector = true) (sched : p .sched = true) (line : p .line = true) (staging : p .staging = true)
    (loss : p .loss = true) (pages : p .pages = true) (job : p .job = true) (photo : p .photo = true)
    (port : p .port = true) (reader : p .reader = true) (notices : p .notices = true) :
    Acts p s (endFiring cause u) := by
  unfold endFiring; try dsimp only
  repeat' (first | with_reducible assumption | with_reducible apply endReport_acts
                  | with_reducible apply setSched_acts | split | with_reducible rfl | exact Or.inl ⟨rfl, rfl⟩
                  | exact Or.inr rfl)

theorem permitRises_acts (h : Acts p s u) (sched : p .sched = true) :
    Acts p s (permitRises u) := by
  unfold permitRises; try dsimp only
  repeat' (first | with_reducible assumption | with_reducible apply setSched_acts | split | with_reducible rfl
                  | exact Or.inl ⟨rfl, rfl⟩ | exact Or.inr rfl)

theorem recomputePermit_acts (h : Acts p s u) (turntable : p .turntable = true) (sector : p .sector = true)
    (sched : p .sched = true) (line : p .line = true) (staging : p .staging = true) (loss : p .loss = true)
    (pages : p .pages = true) (job : p .job = true) (photo : p .photo = true) (port : p .port = true)
    (reader : p .reader = true) (notices : p .notices = true) :
    Acts p s (recomputePermit u) := by
  unfold recomputePermit; try dsimp only
  repeat' (first | with_reducible assumption | with_reducible apply endFiring_acts
                  | with_reducible apply permitRises_acts | with_reducible apply setSched_acts | split
                  | with_reducible rfl | exact Or.inl ⟨rfl, rfl⟩ | exact Or.inr rfl)

end Sys2Proof.Machine
end

