-- ==== Sys2Proof/Laws/ActsJobs.lean ====
section
/-! SUPPORT. What an operation can do
    (see Laws/Acts): the Photo Unit, what reaches the running job, the take of each job, and the outcomes of transfers. -/

namespace Sys2Proof.Machine

variable {p : Field → Bool} {s u : State}

theorem enterCheck_acts (afterWait : Bool) (h : Acts p s u) (camera : p .camera = true) :
    Acts p s (enterCheck afterWait u) := by
  unfold enterCheck; try dsimp only
  repeat' (first | with_reducible assumption | with_reducible apply setCamera_acts | split | with_reducible rfl)

theorem restPhoto_acts (h : Acts p s u) (photo : p .photo = true) :
    Acts p s (restPhoto u) := by
  unfold restPhoto; try dsimp only
  repeat' (first | with_reducible assumption | with_reducible apply setPhoto_acts | split | with_reducible rfl
                  | exact Or.inl (Nat.le_refl _) | exact Or.inr (Nat.zero_le _))

theorem expose_acts (index : Nat) (st : Station) (line : Option Nat) (isInline : Bool) (h : Acts p s u)
    (photo : p .photo = true) (out : p .out = true) :
    Acts p s (expose index st line isInline u) := by
  unfold expose; try dsimp only
  repeat' (first | with_reducible assumption | with_reducible apply emit_acts | with_reducible apply setPhoto_acts
                  | split | with_reducible rfl | exact rfl | exact Or.inl (Nat.le_refl _)
                  | exact Or.inr (Nat.zero_le _))

theorem putPhotograph_acts (p0 : Photograph) (h : Acts p s u) (photo : p .photo = true) :
    Acts p s (putPhotograph p0 u) := by
  unfold putPhotograph; try dsimp only
  repeat' (first | with_reducible assumption | with_reducible apply setPhoto_acts | split | with_reducible rfl
                  | exact Or.inl (Nat.le_refl _) | exact Or.inr (Nat.zero_le _))

theorem writePhotoHeader_acts (p0 : Photograph) (h : Acts p s u) (photo : p .photo = true) (port : p .port = true)
    (freeCount : p .freeCount = true) :
    Acts p s (writePhotoHeader p0 u) := by
  unfold writePhotoHeader; try dsimp only
  repeat' (first | with_reducible assumption | with_reducible apply request_acts
                  | with_reducible apply spendFree_acts | with_reducible apply setPhoto_acts | split
                  | with_reducible rfl | exact Or.inl (Nat.le_refl _) | exact Or.inr (Nat.zero_le _))

theorem photoProgress_acts (h : Acts p s u) (photo : p .photo = true) (port : p .port = true)
    (freeCount : p .freeCount = true) :
    Acts p s (photoProgress u) := by
  unfold photoProgress; try dsimp only
  repeat' (first | with_reducible assumption | with_reducible apply writePhotoHeader_acts | split | with_reducible rfl)

theorem midExposure_acts (p0 : Photograph) (h : Acts p s u) (photo : p .photo = true) :
    Acts p s (midExposure p0 u) := by
  unfold midExposure; try dsimp only
  repeat' (first | with_reducible assumption | with_reducible apply putPhotograph_acts | split | with_reducible rfl)

theorem exposureOver_acts (p0 : Photograph) (h : Acts p s u) (photo : p .photo = true) (port : p .port = true)
    (out : p .out = true) (freeCount : p .freeCount = true) :
    Acts p s (exposureOver p0 u) := by
  unfold exposureOver; try dsimp only
  repeat' (first | with_reducible assumption | with_reducible apply emit_acts
                  | with_reducible apply putPhotograph_acts | with_reducible apply photoProgress_acts
                  | with_reducible apply setPhoto_acts | split | with_reducible rfl | exact rfl
                  | exact Or.inl (Nat.le_refl _) | exact Or.inr (Nat.zero_le _))

theorem requestAll_acts (ts : List Transfer) (h : Acts p s u) (port : p .port = true) : Acts p s (requestAll ts u) := by
  induction ts generalizing u with
  | nil => exact h
  | cons t ts ih => exact ih (request_acts _ h port)

theorem stopRows_acts (cause : PhotoEnd) (p0 : Photograph) (h : Acts p s u) (photo : p .photo = true)
    (out : p .out = true) :
    Acts p s (stopRows cause p0 u) := by
  unfold stopRows; try dsimp only
  repeat' (first | with_reducible assumption | with_reducible apply emit_acts
                  | with_reducible apply putPhotograph_acts | split | with_reducible rfl | exact rfl)

theorem acceptRow_acts (data : List Byte) (p0 : Photograph) (hrows : u.photo.rows.length < rowCapacity) (h : Acts p s u)
    (photo : p .photo = true) (port : p .port = true) (out : p .out = true) : Acts p s (acceptRow data p0 u) := by
  have h1 : Acts p s (u.setPhoto { u.photo with rows := u.photo.rows ++ [{ index := p0.rowsTaken, data := data }] }) :=
    setPhoto_acts _ h photo (Or.inr (by simp only [List.length_append, List.length_singleton]; exact hrows))
  unfold acceptRow; dsimp only
  split
  · exact putPhotograph_acts _ (requestAll_acts _ h1 port) photo
  · split
    · exact stopRows_acts _ _ (requestAll_acts _ h1 port) photo out
    · exact putPhotograph_acts _ (requestAll_acts _ h1 port) photo

theorem rowArrives_acts (data : List Byte) (p0 : Photograph) (h : Acts p s u) (photo : p .photo = true)
    (port : p .port = true) (out : p .out = true) : Acts p s (rowArrives data p0 u) := by
  unfold rowArrives
  split
  · rename_i hr; exact acceptRow_acts _ _ hr h photo port out
  · exact stopRows_acts _ _ h photo out

theorem rowStored_acts (h : Acts p s u) (photo : p .photo = true) (port : p .port = true)
    (freeCount : p .freeCount = true) : Acts p s (rowStored u) := by
  unfold rowStored
  split
  · refine photoProgress_acts (putPhotograph_acts _ (setPhoto_acts _ h photo (Or.inl ?_)) photo) photo port freeCount
    simp only [List.length_tail]; omega
  · exact h

theorem cameraFault_acts (h : Acts p s u) (photo : p .photo = true) (port : p .port = true) (out : p .out = true)
    (freeCount : p .freeCount = true) :
    Acts p s (cameraFault u) := by
  unfold cameraFault; try dsimp only
  repeat' (first | with_reducible assumption | with_reducible apply emit_acts
                  | with_reducible apply putPhotograph_acts | with_reducible apply photoProgress_acts | split
                  | with_reducible rfl | exact rfl)

theorem abortPhotograph_acts (h : Acts p s u) (photo : p .photo = true) (port : p .port = true) (out : p .out = true)
    (freeCount : p .freeCount = true) :
    Acts p s (abortPhotograph u) := by
  unfold abortPhotograph; try dsimp only
  repeat' (first | with_reducible assumption | with_reducible apply putPhotograph_acts
                  | with_reducible apply photoProgress_acts | with_reducible apply stopRows_acts | split
                  | with_reducible rfl)

theorem exposeStation_acts (p0 : PhotoJob) (h : Acts p s u) (photo : p .photo = true) (out : p .out = true) :
    Acts p s (exposeStation p0 u) := by
  unfold exposeStation; try dsimp only
  repeat' (first | with_reducible assumption | with_reducible apply expose_acts | split | with_reducible rfl)

theorem cameraLost_acts (p0 : PhotoJob) (h : Acts p s u) (turntable : p .turntable = true) (pages : p .pages = true)
    (job : p .job = true) (photo : p .photo = true) (port : p .port = true) (reader : p .reader = true)
    (notices : p .notices = true) (freeCount : p .freeCount = true) :
    Acts p s (cameraLost p0 u) := by
  unfold cameraLost; try dsimp only
  repeat' (first | with_reducible assumption | with_reducible apply decelerate_acts
                  | with_reducible apply endPhotoJob_acts | with_reducible apply restPhoto_acts | split
                  | with_reducible rfl)

theorem beginStation_acts (p0 : PhotoJob) (h : Acts p s u) (turntable : p .turntable = true)
    (pages : p .pages = true) (job : p .job = true) (photo : p .photo = true) (port : p .port = true)
    (reader : p .reader = true) (notices : p .notices = true) (out : p .out = true)
    (freeCount : p .freeCount = true) :
    Acts p s (beginStation p0 u) := by
  unfold beginStation; try dsimp only
  repeat' (first | with_reducible assumption | with_reducible apply moveRequest_acts
                  | with_reducible apply putPhoto_acts | with_reducible apply endPhotoJob_acts
                  | with_reducible apply exposeStation_acts | with_reducible apply cameraLost_acts
                  | with_reducible apply setPhoto_acts | split | with_reducible rfl | exact Or.inl (Nat.le_refl _)
                  | exact Or.inr (Nat.zero_le _))

theorem stationEnded_acts (status : StationStatus) (cause : Option PhotoEnd) (p0 : PhotoJob) (h : Acts p s u)
    (turntable : p .turntable = true) (pages : p .pages = true) (job : p .job = true) (photo : p .photo = true)
    (port : p .port = true) (reader : p .reader = true) (notices : p .notices = true) (out : p .out = true)
    (freeCount : p .freeCount = true) :
    Acts p s (stationEnded status cause p0 u) := by
  unfold stationEnded; try dsimp only
  repeat' (first | with_reducible assumption | with_reducible apply pushProgress_acts
                  | with_reducible apply decelerate_acts | with_reducible apply putPhoto_acts
                  | with_reducible apply endPhotoJob_acts | with_reducible apply beginStation_acts | split
                  | with_reducible rfl)

theorem tellStationEnded_acts (status : StationStatus) (cause : Option PhotoEnd) (h : Acts p s u)
    (turntable : p .turntable = true) (staging : p .staging = true) (pages : p .pages = true) (job : p .job = true)
    (photo : p .photo = true) (port : p .port = true) (reader : p .reader = true) (notices : p .notices = true)
    (out : p .out = true) (freeCount : p .freeCount = true) :
    Acts p s (tellStationEnded status cause u) := by
  unfold tellStationEnded; try dsimp only
  repeat' (first | with_reducible assumption | with_reducible apply beginDrain_acts
                  | with_reducible apply stationEnded_acts | split | with_reducible rfl)

theorem photoFinish_acts (h : Acts p s u) (turntable : p .turntable = true) (staging : p .staging = true)
    (pages : p .pages = true) (job : p .job = true) (camera : p .camera = true) (photo : p .photo = true)
    (port : p .port = true) (reader : p .reader = true) (notices : p .notices = true) (out : p .out = true)
    (freeCount : p .freeCount = true) :
    Acts p s (photoFinish u) := by
  unfold photoFinish; try dsimp only
  repeat' (first | with_reducible assumption | with_reducible apply enterCheck_acts
                  | with_reducible apply restPhoto_acts | with_reducible apply tellStationEnded_acts
                  | with_reducible apply setPhoto_acts | split | with_reducible rfl | exact Or.inl (Nat.le_refl _)
                  | exact Or.inr (Nat.zero_le _))

theorem photoHeaderWritten_acts (h : Acts p s u) (turntable : p .turntable = true) (staging : p .staging = true)
    (loss : p .loss = true) (pages : p .pages = true) (job : p .job = true) (camera : p .camera = true)
    (photo : p .photo = true) (port : p .port = true) (reader : p .reader = true) (notices : p .notices = true)
    (out : p .out = true) (freeCount : p .freeCount = true) :
    Acts p s (photoHeaderWritten u) := by
  unfold photoHeaderWritten; try dsimp only
  repeat' (first | with_reducible assumption | with_reducible apply spendFree_acts
                  | with_reducible apply offerReserve_acts | with_reducible apply photoFinish_acts | split
                  | with_reducible rfl)

theorem losePhotograph_acts (p0 : Photograph) (h : Acts p s u) (photo : p .photo = true) (port : p .port = true) :
    Acts p s (losePhotograph p0 u) := by
  unfold losePhotograph; try dsimp only
  repeat' (first | with_reducible assumption | with_reducible apply ignore_acts | with_reducible apply withdraw_acts
                  | with_reducible apply setPhoto_acts | split | with_reducible rfl | exact Or.inl (Nat.le_refl _)
                  | exact Or.inr (Nat.zero_le _))

theorem photoMemoryFault_acts (h : Acts p s u) (photo : p .photo = true) (port : p .port = true) (out : p .out = true) :
    Acts p s (photoMemoryFault u) := by
  unfold photoMemoryFault; try dsimp only
  repeat' (first | with_reducible assumption | with_reducible apply emit_acts
                  | with_reducible apply losePhotograph_acts | split | with_reducible rfl | exact rfl)

theorem photoHeaderFault_acts (h : Acts p s u) (photo : p .photo = true) (port : p .port = true) :
    Acts p s (photoHeaderFault u) := by
  unfold photoHeaderFault; try dsimp only
  repeat' (first | with_reducible assumption | with_reducible apply losePhotograph_acts | split | with_reducible rfl)

theorem photoDrained_acts (h : Acts p s u) (turntable : p .turntable = true) (staging : p .staging = true)
    (pages : p .pages = true) (job : p .job = true) (camera : p .camera = true) (photo : p .photo = true)
    (port : p .port = true) (reader : p .reader = true) (notices : p .notices = true) (out : p .out = true)
    (freeCount : p .freeCount = true) :
    Acts p s (photoDrained u) := by
  unfold photoDrained; try dsimp only
  repeat' (first | with_reducible assumption | with_reducible apply photoFinish_acts | split | with_reducible rfl)

theorem crossStations_acts (b : InlineBase) (line : Nat) (travel : Int) (hand : Option Nat) (i : Nat) (l : List StationSlot)
    (h : Acts p s u)
    (photo : p .photo = true) (out : p .out = true) : Acts p s (crossStations b line travel hand i l u) := by
  induction l generalizing i u with
  | nil => exact h
  | cons x rest ih =>
    unfold crossStations; dsimp only
    refine ih (i + 1) ?_
    split
    · split
      · exact expose_acts _ _ _ _ h photo out
      · exact setPhoto_acts _ h photo (Or.inl (Nat.le_refl _))
    · exact h

theorem crossings_acts (line : Nat) (error : Int) (h : Acts p s u) (photo : p .photo = true) (out : p .out = true) :
    Acts p s (crossings line error u) := by
  unfold crossings; try dsimp only
  repeat' (first | with_reducible assumption | with_reducible apply crossStations_acts | split | with_reducible rfl)

theorem stopRequest_acts (r : StopReason) (h : Acts p s u) (turntable : p .turntable = true)
    (sector : p .sector = true) (sched : p .sched = true) (line : p .line = true) (staging : p .staging = true)
    (loss : p .loss = true) (pages : p .pages = true) (job : p .job = true) (photo : p .photo = true)
    (port : p .port = true) (reader : p .reader = true) (notices : p .notices = true) :
    Acts p s (stopRequest r u) := by
  unfold stopRequest; try dsimp only
  repeat' (first | with_reducible assumption | with_reducible apply closeCheck_acts
                  | with_reducible apply markStop_acts | with_reducible apply endFiring_acts | split
                  | with_reducible rfl)

theorem endIfNoLine_acts (h : Acts p s u) (turntable : p .turntable = true) (sector : p .sector = true)
    (sched : p .sched = true) (staging : p .staging = true) (pages : p .pages = true) (job : p .job = true)
    (photo : p .photo = true) (port : p .port = true) (reader : p .reader = true) (notices : p .notices = true) :
    Acts p s (endIfNoLine u) := by
  unfold endIfNoLine; try dsimp only
  repeat' (first | with_reducible assumption | with_reducible apply enterEnding_acts | split | with_reducible rfl)

theorem failScanning_acts (c : ResultCode) (r : StopReason) (j : ScanJob) (h : Acts p s u)
    (turntable : p .turntable = true) (sector : p .sector = true) (sched : p .sched = true) (line : p .line = true)
    (staging : p .staging = true) (loss : p .loss = true) (pages : p .pages = true) (job : p .job = true)
    (photo : p .photo = true) (port : p .port = true) (reader : p .reader = true) (notices : p .notices = true) :
    Acts p s (failScanning c r j u) := by
  unfold failScanning; try dsimp only
  repeat' (first | with_reducible assumption | with_reducible apply putScan_acts
                  | with_reducible apply stopRequest_acts | with_reducible apply endIfNoLine_acts | split
                  | with_reducible rfl)

theorem scanFail_acts (c : ResultCode) (r : StopReason) (h : Acts p s u) (turntable : p .turntable = true)
    (sector : p .sector = true) (sched : p .sched = true) (line : p .line = true) (staging : p .staging = true)
    (loss : p .loss = true) (pages : p .pages = true) (job : p .job = true) (photo : p .photo = true)
    (port : p .port = true) (reader : p .reader = true) (notices : p .notices = true) :
    Acts p s (scanFail c r u) := by
  unfold scanFail; try dsimp only
  repeat' (first | with_reducible assumption | with_reducible apply putScan_acts
                  | with_reducible apply failScanning_acts | split | with_reducible rfl)

theorem scanMemoryFault_acts (j : ScanJob) (h : Acts p s u) (turntable : p .turntable = true)
    (sector : p .sector = true) (sched : p .sched = true) (line : p .line = true) (staging : p .staging = true)
    (loss : p .loss = true) (pages : p .pages = true) (job : p .job = true) (photo : p .photo = true)
    (port : p .port = true) (reader : p .reader = true) (notices : p .notices = true) :
    Acts p s (scanMemoryFault j u) := by
  unfold scanMemoryFault; try dsimp only
  repeat' (first | with_reducible assumption | with_reducible apply putScan_acts | with_reducible apply endScan_acts
                  | with_reducible apply failPre_acts | with_reducible apply failScanning_acts | split
                  | with_reducible rfl)

theorem photoJobMemoryFault_acts (descriptor : Bool) (p0 : PhotoJob) (h : Acts p s u) (pages : p .pages = true)
    (job : p .job = true) (photo : p .photo = true) (port : p .port = true) (reader : p .reader = true)
    (notices : p .notices = true) (freeCount : p .freeCount = true) :
    Acts p s (photoJobMemoryFault descriptor p0 u) := by
  unfold photoJobMemoryFault; try dsimp only
  repeat' (first | with_reducible assumption | with_reducible apply putPhoto_acts
                  | with_reducible apply handPhoto_acts | with_reducible apply endPhotoJob_acts
                  | with_reducible apply restPhoto_acts | split | with_reducible rfl)

theorem jobMemoryFault_acts (descriptor : Bool) (h : Acts p s u) (turntable : p .turntable = true)
    (sector : p .sector = true) (sched : p .sched = true) (line : p .line = true) (staging : p .staging = true)
    (loss : p .loss = true) (markWait : p .markWait = true) (pages : p .pages = true) (job : p .job = true)
    (photo : p .photo = true) (port : p .port = true) (reader : p .reader = true) (notices : p .notices = true)
    (freeCount : p .freeCount = true) :
    Acts p s (jobMemoryFault descriptor u) := by
  unfold jobMemoryFault; try dsimp only
  repeat' (first | with_reducible assumption | with_reducible apply spendFree_acts
                  | with_reducible apply handResult_acts | with_reducible apply scanMemoryFault_acts
                  | with_reducible apply photoJobMemoryFault_acts | with_reducible apply setMarkWait_acts | split
                  | with_reducible rfl)

theorem jobMirror_acts (h : Acts p s u) (turntable : p .turntable = true) (sector : p .sector = true)
    (sched : p .sched = true) (line : p .line = true) (staging : p .staging = true) (loss : p .loss = true)
    (pages : p .pages = true) (job : p .job = true) (photo : p .photo = true) (port : p .port = true)
    (reader : p .reader = true) (notices : p .notices = true) (freeCount : p .freeCount = true) :
    Acts p s (jobMirror u) := by
  unfold jobMirror; try dsimp only
  repeat' (first | with_reducible assumption | with_reducible apply finishJob_acts
                  | with_reducible apply finishOpen_acts | with_reducible apply failPre_acts
                  | with_reducible apply enterPosition_acts | with_reducible apply scanFail_acts | split
                  | with_reducible rfl)

theorem mirrorChanged_acts (h : Acts p s u) (turntable : p .turntable = true) (sector : p .sector = true)
    (sched : p .sched = true) (line : p .line = true) (staging : p .staging = true) (loss : p .loss = true)
    (pages : p .pages = true) (job : p .job = true) (photo : p .photo = true) (port : p .port = true)
    (reader : p .reader = true) (notices : p .notices = true) (freeCount : p .freeCount = true) :
    Acts p s (mirrorChanged u) := by
  unfold mirrorChanged; try dsimp only
  repeat' (first | with_reducible assumption | with_reducible apply recomputePermit_acts
                  | with_reducible apply jobMirror_acts | split | with_reducible rfl)

theorem jobArrived_acts (h : Acts p s u) (pages : p .pages = true) (job : p .job = true) (photo : p .photo = true)
    (port : p .port = true) (reader : p .reader = true) (notices : p .notices = true) (out : p .out = true)
    (freeCount : p .freeCount = true) :
    Acts p s (jobArrived u) := by
  unfold jobArrived; try dsimp only
  repeat' (first | with_reducible assumption | with_reducible apply finishOpen_acts
                  | with_reducible apply enterRunIn_acts | with_reducible apply exposeStation_acts | split
                  | with_reducible rfl)

theorem photoTurntableFault_acts (p0 : PhotoJob) (h : Acts p s u) (pages : p .pages = true) (job : p .job = true)
    (photo : p .photo = true) (port : p .port = true) (reader : p .reader = true) (notices : p .notices = true)
    (freeCount : p .freeCount = true) :
    Acts p s (photoTurntableFault p0 u) := by
  unfold photoTurntableFault; try dsimp only
  repeat' (first | with_reducible assumption | with_reducible apply putPhoto_acts
                  | with_reducible apply endPhotoJob_acts | with_reducible apply restPhoto_acts | split
                  | with_reducible rfl)

theorem jobTurntableFault_acts (h : Acts p s u) (turntable : p .turntable = true) (pages : p .pages = true)
    (job : p .job = true) (photo : p .photo = true) (port : p .port = true) (reader : p .reader = true)
    (notices : p .notices = true) (freeCount : p .freeCount = true) :
    Acts p s (jobTurntableFault u) := by
  unfold jobTurntableFault; try dsimp only
  repeat' (first | with_reducible assumption | with_reducible apply finishJob_acts
                  | with_reducible apply failPre_acts | with_reducible apply photoTurntableFault_acts | split
                  | with_reducible rfl)

theorem abortSealWait_acts (kind : JobKind) (r : JobResult) (h : Acts p s u) (pages : p .pages = true)
    (job : p .job = true) (port : p .port = true) (reader : p .reader = true) (notices : p .notices = true)
    (freeCount : p .freeCount = true) :
    Acts p s (abortSealWait kind r u) := by
  unfold abortSealWait; try dsimp only
  repeat' (first | with_reducible assumption | with_reducible apply spendFree_acts
                  | with_reducible apply handResult_acts | with_reducible apply clearMark_acts
                  | with_reducible apply setJob_acts | split | with_reducible rfl)

theorem giveUp_acts (which : Purpose) (h : Acts p s u) (port : p .port = true) :
    Acts p s (giveUp which u) := by
  unfold giveUp; try dsimp only
  repeat' (first | with_reducible assumption | with_reducible apply ignore_acts | with_reducible apply withdraw_acts
                  | split | with_reducible rfl)

theorem abortScanning_acts (j : ScanJob) (h : Acts p s u) (turntable : p .turntable = true)
    (sector : p .sector = true) (sched : p .sched = true) (line : p .line = true) (staging : p .staging = true)
    (loss : p .loss = true) (pages : p .pages = true) (job : p .job = true) (photo : p .photo = true)
    (port : p .port = true) (reader : p .reader = true) (notices : p .notices = true) (out : p .out = true)
    (freeCount : p .freeCount = true) :
    Acts p s (abortScanning j u) := by
  unfold abortScanning; try dsimp only
  repeat' (first | with_reducible assumption | with_reducible apply abortPhotograph_acts
                  | with_reducible apply failScanning_acts | split | with_reducible rfl)

theorem abortEnding_acts (j : ScanJob) (h : Acts p s u) (turntable : p .turntable = true)
    (staging : p .staging = true) (pages : p .pages = true) (job : p .job = true) (photo : p .photo = true)
    (port : p .port = true) (reader : p .reader = true) (notices : p .notices = true) :
    Acts p s (abortEnding j u) := by
  unfold abortEnding; try dsimp only
  repeat' (first | with_reducible assumption | with_reducible apply putScan_acts
                  | with_reducible apply discardScan_acts | split | with_reducible rfl)

theorem abortScan_acts (j : ScanJob) (h : Acts p s u) (turntable : p .turntable = true) (sector : p .sector = true)
    (sched : p .sched = true) (line : p .line = true) (staging : p .staging = true) (loss : p .loss = true)
    (pages : p .pages = true) (job : p .job = true) (photo : p .photo = true) (port : p .port = true)
    (reader : p .reader = true) (notices : p .notices = true) (out : p .out = true)
    (freeCount : p .freeCount = true) :
    Acts p s (abortScan j u) := by
  unfold abortScan; try dsimp only
  repeat' (first | with_reducible assumption | with_reducible apply clearMark_acts
                  | with_reducible apply endScan_acts | with_reducible apply failPre_acts
                  | with_reducible apply abortScanning_acts | with_reducible apply abortEnding_acts | split
                  | with_reducible rfl)

theorem abortPhoto_acts (p0 : PhotoJob) (h : Acts p s u) (turntable : p .turntable = true) (pages : p .pages = true)
    (job : p .job = true) (photo : p .photo = true) (port : p .port = true) (reader : p .reader = true)
    (notices : p .notices = true) (out : p .out = true) (freeCount : p .freeCount = true) :
    Acts p s (abortPhoto p0 u) := by
  unfold abortPhoto; try dsimp only
  repeat' (first | with_reducible assumption | with_reducible apply decelerate_acts
                  | with_reducible apply clearMark_acts | with_reducible apply putPhoto_acts
                  | with_reducible apply handPhoto_acts | with_reducible apply endPhotoJob_acts
                  | with_reducible apply restPhoto_acts | with_reducible apply abortPhotograph_acts | split
                  | with_reducible rfl)

theorem abortJob_acts (job : Job) (h : Acts p s u) (turntable : p .turntable = true) (sector : p .sector = true)
    (sched : p .sched = true) (line : p .line = true) (staging : p .staging = true) (loss : p .loss = true)
    (markWait : p .markWait = true) (pages : p .pages = true) (h_job : p .job = true) (photo : p .photo = true)
    (port : p .port = true) (reader : p .reader = true) (notices : p .notices = true) (out : p .out = true)
    (freeCount : p .freeCount = true) :
    Acts p s (abortJob job u) := by
  unfold abortJob; try dsimp only
  repeat' (first | with_reducible assumption | with_reducible apply decelerate_acts
                  | with_reducible apply finishOpen_acts | with_reducible apply abortSealWait_acts
                  | with_reducible apply giveUp_acts | with_reducible apply abortScan_acts
                  | with_reducible apply abortPhoto_acts | with_reducible apply setMarkWait_acts | split
                  | with_reducible rfl)

theorem countLines_acts (l : List (Nat × HeaderRec)) (h : Acts p s u) (loss : p .loss = true) :
    Acts p s (countLines l u) := by
  induction l generalizing u with
  | nil => exact h
  | cons x rest ih => exact ih (setLoss_acts _ h loss)

theorem dropWaiting_acts (line : Nat × Nat) (h : Acts p s u) (staging : p .staging = true) (loss : p .loss = true)
    (pages : p .pages = true) : Acts p s (dropWaiting line u) :=
  countAll_acts _ (setStaging_acts _ h staging (queueKept_filter _ _)) loss pages

theorem discardLines_acts (lost : List (Nat × HeaderRec)) (h : Acts p s u) (staging : p .staging = true)
    (loss : p .loss = true) (pages : p .pages = true) :
    Acts p s (discardLines lost u) := by
  unfold discardLines; try dsimp only
  repeat' (first | with_reducible assumption | with_reducible apply countLines_acts
                  | with_reducible apply dropWaiting_acts | with_reducible apply setPages_acts | split
                  | with_reducible rfl)

theorem issuedFirst_size (m : Nat) (es : List Entry) :
    entriesSize (issuedFirst m es) = entriesSize es ∧ pointSize (issuedFirst m es) = pointSize es := by
  induction es generalizing m with
  | nil => cases m <;> exact ⟨rfl, rfl⟩
  | cons e es ih =>
    cases m with
    | zero => constructor <;> simp only [issuedFirst, entriesSize, pointSize, (ih 0).1, (ih 0).2]
    | succ m => constructor <;> simp only [issuedFirst, entriesSize, pointSize, (ih m).1, (ih m).2]

theorem withdrawRecords_acts (h : Acts p s u) (staging : p .staging = true) (port : p .port = true) :
    Acts p s (withdrawRecords u) :=
  withdraw_acts _ (setStaging_acts _ h staging (fun h1 h2 =>
    ⟨(issuedFirst_size _ _).1.symm ▸ h1, (issuedFirst_size _ _).2.symm ▸ h2⟩)) port

theorem abandonPage_acts (h : Acts p s u) (turntable : p .turntable = true) (sector : p .sector = true)
    (sched : p .sched = true) (line : p .line = true) (staging : p .staging = true) (loss : p .loss = true)
    (markWait : p .markWait = true) (pages : p .pages = true) (job : p .job = true) (photo : p .photo = true)
    (port : p .port = true) (reader : p .reader = true) (notices : p .notices = true)
    (freeCount : p .freeCount = true) :
    Acts p s (abandonPage u) := by
  unfold abandonPage; try dsimp only
  repeat' (first | with_reducible assumption | with_reducible apply ignore_acts | with_reducible apply clearMark_acts
                  | with_reducible apply putPage_acts | with_reducible apply endAbandon_acts
                  | with_reducible apply jobMemoryFault_acts | with_reducible apply discardLines_acts
                  | with_reducible apply withdrawRecords_acts | split | with_reducible rfl)

theorem descriptorFault_acts (h : Acts p s u) (turntable : p .turntable = true) (sector : p .sector = true)
    (sched : p .sched = true) (line : p .line = true) (staging : p .staging = true) (loss : p .loss = true)
    (markWait : p .markWait = true) (pages : p .pages = true) (job : p .job = true) (photo : p .photo = true)
    (port : p .port = true) (reader : p .reader = true) (notices : p .notices = true)
    (freeCount : p .freeCount = true) :
    Acts p s (descriptorFault u) := by
  unfold descriptorFault; try dsimp only
  repeat' (first | with_reducible assumption | with_reducible apply clearMark_acts
                  | with_reducible apply jobMemoryFault_acts | with_reducible apply setPages_acts | split
                  | with_reducible rfl)

theorem acceptTable_acts (address : Nat) (count : Nat) (poll : Nat) (mode : Nat) (h : Acts p s u)
    (pages : p .pages = true) (port : p .port = true) (reader : p .reader = true) (notices : p .notices = true) :
    Acts p s (acceptTable address count poll mode u) := by
  unfold acceptTable; try dsimp only
  repeat' (first | with_reducible assumption | with_reducible apply setAttention_acts
                  | with_reducible apply giveUp_acts | with_reducible apply setPages_acts
                  | with_reducible apply setReader_acts | split | with_reducible rfl)

theorem takeSetup_acts (h : Acts p s u) (pages : p .pages = true) (job : p .job = true) (port : p .port = true)
    (reader : p .reader = true) (notices : p .notices = true) (freeCount : p .freeCount = true) :
    Acts p s (takeSetup u) := by
  unfold takeSetup; try dsimp only
  repeat' (first | with_reducible assumption | with_reducible apply handResult_acts
                  | with_reducible apply finishJob_acts | with_reducible apply finishOpen_acts
                  | with_reducible apply acceptTable_acts | split | with_reducible rfl)

theorem takeSpin_acts (h : Acts p s u) (mirror : p .mirror = true) (pages : p .pages = true) (job : p .job = true)
    (port : p .port = true) (reader : p .reader = true) (notices : p .notices = true)
    (freeCount : p .freeCount = true) :
    Acts p s (takeSpin u) := by
  unfold takeSpin; try dsimp only
  repeat' (first | with_reducible assumption | with_reducible apply handResult_acts
                  | with_reducible apply finishOpen_acts | with_reducible apply setMirror_acts
                  | with_reducible apply setJob_acts | split | with_reducible rfl)

theorem takePark_acts (h : Acts p s u) (mirror : p .mirror = true) (pages : p .pages = true) (job : p .job = true)
    (port : p .port = true) (reader : p .reader = true) (notices : p .notices = true)
    (freeCount : p .freeCount = true) :
    Acts p s (takePark u) := by
  unfold takePark; try dsimp only
  repeat' (first | with_reducible assumption | with_reducible apply finishOpen_acts
                  | with_reducible apply setMirror_acts | split | with_reducible rfl)

theorem takeTurn_acts (h : Acts p s u) (turntable : p .turntable = true) (pages : p .pages = true)
    (job : p .job = true) (port : p .port = true) (reader : p .reader = true) (notices : p .notices = true)
    (freeCount : p .freeCount = true) :
    Acts p s (takeTurn u) := by
  unfold takeTurn; try dsimp only
  repeat' (first | with_reducible assumption | with_reducible apply spendFree_acts
                  | with_reducible apply handResult_acts | with_reducible apply moveRequest_acts
                  | with_reducible apply finishOpen_acts | with_reducible apply setJob_acts | split
                  | with_reducible rfl)

theorem takeProfile_acts (h : Acts p s u) (job : p .job = true) (port : p .port = true) (reader : p .reader = true)
    (notices : p .notices = true) :
    Acts p s (takeProfile u) := by
  unfold takeProfile; try dsimp only
  repeat' (first | with_reducible assumption | with_reducible apply request_acts
                  | with_reducible apply handResult_acts | with_reducible apply setJob_acts | split
                  | with_reducible rfl)

theorem profileReadDone_acts (data : List Byte) (h : Acts p s u) (pages : p .pages = true) (job : p .job = true)
    (slots : p .slots = true) (port : p .port = true) (reader : p .reader = true) (notices : p .notices = true) :
    Acts p s (profileReadDone data u) := by
  unfold profileReadDone; try dsimp only
  repeat' (first | with_reducible assumption | with_reducible apply finishJob_acts
                  | with_reducible apply setSlots_acts | split | with_reducible rfl)

theorem takeReport_acts (h : Acts p s u) (job : p .job = true) (port : p .port = true) (reader : p .reader = true)
    (notices : p .notices = true) :
    Acts p s (takeReport u) := by
  unfold takeReport; try dsimp only
  repeat' (first | with_reducible assumption | with_reducible apply request_acts
                  | with_reducible apply handResult_acts | with_reducible apply setJob_acts | split
                  | with_reducible rfl)

theorem reportWriteDone_acts (h : Acts p s u) (pages : p .pages = true) (job : p .job = true) (port : p .port = true)
    (reader : p .reader = true) (notices : p .notices = true) :
    Acts p s (reportWriteDone u) := by
  unfold reportWriteDone; try dsimp only
  repeat' (first | with_reducible assumption | with_reducible apply finishJob_acts | split | with_reducible rfl)

theorem takeMark_acts (h : Acts p s u) (staging : p .staging = true) (loss : p .loss = true)
    (markWait : p .markWait = true) (pages : p .pages = true) (job : p .job = true) (port : p .port = true)
    (reader : p .reader = true) (notices : p .notices = true) :
    Acts p s (takeMark u) := by
  unfold takeMark; try dsimp only
  repeat' (first | with_reducible assumption | with_reducible apply offerReserve_acts
                  | with_reducible apply finishJob_acts | with_reducible apply setMarkWait_acts
                  | with_reducible apply setJob_acts | split | with_reducible rfl)

theorem takePhoto_acts (h : Acts p s u) (turntable : p .turntable = true) (pages : p .pages = true)
    (job : p .job = true) (photo : p .photo = true) (port : p .port = true) (reader : p .reader = true)
    (notices : p .notices = true) (out : p .out = true) (freeCount : p .freeCount = true) :
    Acts p s (takePhoto u) := by
  unfold takePhoto; try dsimp only
  repeat' (first | with_reducible assumption | with_reducible apply handResult_acts
                  | with_reducible apply beginStation_acts | with_reducible apply setPhoto_acts | split
                  | with_reducible rfl | exact Or.inl (Nat.le_refl _) | exact Or.inr (Nat.zero_le _))

theorem takeJob_acts (k : JobKind) (h : Acts p s u) (mirror : p .mirror = true) (turntable : p .turntable = true)
    (sched : p .sched = true) (tracker : p .tracker = true) (intake : p .intake = true) (line : p .line = true)
    (staging : p .staging = true) (loss : p .loss = true) (markWait : p .markWait = true) (pages : p .pages = true)
    (job : p .job = true) (photo : p .photo = true) (port : p .port = true) (reader : p .reader = true)
    (notices : p .notices = true) (out : p .out = true) (freeCount : p .freeCount = true) :
    Acts p s (takeJob u k) := by
  cases k <;> unfold takeJob <;> dsimp only
  · with_reducible apply takeSetup_acts <;> assumption
  · with_reducible apply takeSpin_acts <;> assumption
  · with_reducible apply takePark_acts <;> assumption
  · with_reducible apply takeTurn_acts <;> assumption
  · with_reducible apply takeProfile_acts <;> assumption
  · with_reducible apply takeReport_acts <;> assumption
  · with_reducible apply takeScan_acts <;> assumption
  · with_reducible apply takePhoto_acts <;> assumption
  · with_reducible apply takeMark_acts <;> assumption

theorem dispatchJob_acts (h : Acts p s u) (mirror : p .mirror = true) (turntable : p .turntable = true)
    (sched : p .sched = true) (tracker : p .tracker = true) (intake : p .intake = true) (line : p .line = true)
    (staging : p .staging = true) (loss : p .loss = true) (markWait : p .markWait = true) (pages : p .pages = true)
    (job : p .job = true) (jobSerial : p .jobSerial = true) (photo : p .photo = true) (port : p .port = true)
    (reader : p .reader = true) (notices : p .notices = true) (out : p .out = true)
    (freeCount : p .freeCount = true) :
    Acts p s (dispatchJob u) := by
  unfold dispatchJob; try dsimp only
  repeat' (first | with_reducible assumption | with_reducible apply takeJob_acts
                  | with_reducible apply setJobSerial_acts | with_reducible apply setReader_acts | split
                  | with_reducible rfl)

theorem completed_acts (p0 : Purpose) (len : Nat) (data : List Byte) (h : Acts p s u) (mirror : p .mirror = true)
    (turntable : p .turntable = true) (sched : p .sched = true) (tracker : p .tracker = true)
    (intake : p .intake = true) (line : p .line = true) (staging : p .staging = true) (loss : p .loss = true)
    (markWait : p .markWait = true) (pages : p .pages = true) (job : p .job = true) (jobSerial : p .jobSerial = true)
    (camera : p .camera = true) (photo : p .photo = true) (slots : p .slots = true) (port : p .port = true)
    (reader : p .reader = true) (notices : p .notices = true) (out : p .out = true)
    (freeCount : p .freeCount = true) :
    Acts p s (completed p0 len data u) := by
  unfold completed; try dsimp only
  repeat' (first | with_reducible assumption | with_reducible apply examinationRead_acts
                  | with_reducible apply linkRead_acts | with_reducible apply resultCodeWritten_acts
                  | with_reducible apply resultStateWritten_acts | with_reducible apply blockWritten_acts
                  | with_reducible apply descriptorRead_acts | with_reducible apply takeFieldWritten_acts
                  | with_reducible apply takeStateWritten_acts | with_reducible apply sealFieldWritten_acts
                  | with_reducible apply sealStateWritten_acts | with_reducible apply recordWritten_acts
                  | with_reducible apply continuationWritten_acts | with_reducible apply rowStored_acts
                  | with_reducible apply photoHeaderWritten_acts | with_reducible apply profileReadDone_acts
                  | with_reducible apply reportWriteDone_acts | with_reducible apply dispatchJob_acts | split
                  | with_reducible rfl)

theorem landed_acts (t : Transfer) (h : Acts p s u) (out : p .out = true) :
    Acts p s (landed t u) := by
  unfold landed; try dsimp only
  repeat' (first | with_reducible assumption | with_reducible apply emit_acts | split | with_reducible rfl | exact rfl)

theorem writeBackFault_acts (h : Acts p s u) (turntable : p .turntable = true) (sector : p .sector = true)
    (sched : p .sched = true) (line : p .line = true) (staging : p .staging = true) (loss : p .loss = true)
    (markWait : p .markWait = true) (pages : p .pages = true) (job : p .job = true) (photo : p .photo = true)
    (port : p .port = true) (reader : p .reader = true) (notices : p .notices = true) (out : p .out = true)
    (freeCount : p .freeCount = true) :
    Acts p s (writeBackFault u) := by
  unfold writeBackFault; try dsimp only
  repeat' (first | with_reducible assumption | with_reducible apply haltOnLoss_acts
                  | with_reducible apply abortJob_acts | with_reducible apply setReader_acts | split
                  | with_reducible rfl)

theorem jobAccessFault_acts (h : Acts p s u) (pages : p .pages = true) (job : p .job = true) (port : p .port = true)
    (reader : p .reader = true) (notices : p .notices = true) :
    Acts p s (jobAccessFault u) := by
  unfold jobAccessFault; try dsimp only
  repeat' (first | with_reducible assumption | with_reducible apply finishJob_acts | split | with_reducible rfl)

theorem faulted_acts (p0 : Purpose) (h : Acts p s u) (turntable : p .turntable = true) (sector : p .sector = true)
    (sched : p .sched = true) (line : p .line = true) (staging : p .staging = true) (loss : p .loss = true)
    (markWait : p .markWait = true) (pages : p .pages = true) (job : p .job = true) (photo : p .photo = true)
    (port : p .port = true) (reader : p .reader = true) (notices : p .notices = true) (out : p .out = true)
    (freeCount : p .freeCount = true) :
    Acts p s (faulted p0 u) := by
  unfold faulted; try dsimp only
  repeat' (first | with_reducible assumption | with_reducible apply haltOnLoss_acts
                  | with_reducible apply photoMemoryFault_acts | with_reducible apply photoHeaderFault_acts
                  | with_reducible apply abandonPage_acts | with_reducible apply descriptorFault_acts
                  | with_reducible apply writeBackFault_acts | with_reducible apply jobAccessFault_acts | split
                  | with_reducible rfl)

theorem requesterDrained_acts (r : Requester) (h : Acts p s u) (turntable : p .turntable = true)
    (staging : p .staging = true) (loss : p .loss = true) (pages : p .pages = true) (job : p .job = true)
    (camera : p .camera = true) (photo : p .photo = true) (port : p .port = true) (reader : p .reader = true)
    (notices : p .notices = true) (out : p .out = true) (freeCount : p .freeCount = true) :
    Acts p s (requesterDrained r u) := by
  unfold requesterDrained; try dsimp only
  repeat' (first | with_reducible assumption | with_reducible apply endAbandon_acts
                  | with_reducible apply photoDrained_acts | split | with_reducible rfl)

theorem reportOutcome_acts (t : Transfer) (a : Answer) (h : Acts p s u) (mirror : p .mirror = true)
    (turntable : p .turntable = true) (sector : p .sector = true) (sched : p .sched = true)
    (tracker : p .tracker = true) (intake : p .intake = true) (line : p .line = true) (staging : p .staging = true)
    (loss : p .loss = true) (markWait : p .markWait = true) (pages : p .pages = true) (job : p .job = true)
    (jobSerial : p .jobSerial = true) (camera : p .camera = true) (photo : p .photo = true) (slots : p .slots = true)
    (port : p .port = true) (reader : p .reader = true) (notices : p .notices = true) (out : p .out = true)
    (freeCount : p .freeCount = true) :
    Acts p s (reportOutcome t a u) := by
  unfold reportOutcome; try dsimp only
  repeat' (first | with_reducible assumption | with_reducible apply completed_acts
                  | with_reducible apply faulted_acts | with_reducible apply requesterDrained_acts | split
                  | with_reducible rfl)

end Sys2Proof.Machine
end

