-- ==== Sys2Proof/Laws/JobEnd.lean ====
section
/-! SUPPORT. The ends of jobs: what handing a result back and finishing a short job leave. -/

namespace Sys2Proof.Machine

variable {r : JobResult} {kind : JobKind} {s : State}

theorem nextBlockWrite_keeps (s : State) :
    (nextBlockWrite s).job = s.job ∧ (nextBlockWrite s).reader.activity = s.reader.activity ∧
    (nextBlockWrite s).reader.result = s.reader.result ∧
    (nextBlockWrite s).reader.writeBackLost = s.reader.writeBackLost := by
  unfold nextBlockWrite
  split
  · exact ⟨rfl, rfl, rfl, rfl⟩
  · split
    · exact ⟨rfl, rfl, rfl, rfl⟩
    · split <;> exact ⟨rfl, rfl, rfl, rfl⟩

/-- What stands in the block write list is still to be written after the next write has been asked for. -/
theorem nextBlockWrite_toWrite (s : State) (w : BlockWrite) (h : w ∈ s.reader.writeList) :
    w ∈ (nextBlockWrite s).reader.writeList ∨
      maskedTransfer .chain .blockWrite ((nextBlockWrite s).reader.cursor.getD 0 + w.offset) w.data w.mask ∈
        (nextBlockWrite s).port.control := by
  unfold nextBlockWrite
  split
  · exact Or.inl h
  · split
    · rename_i x rest e
      rw [e] at h
      rcases List.mem_cons.mp h with h | h
      · subst h
        exact Or.inr (List.mem_append_right _ (List.mem_singleton.mpr rfl))
      · exact Or.inl h
    · rename_i e; rw [e] at h; cases h

/-- A transfer that waits for its grant still waits after the next block write has been asked for. -/
theorem nextBlockWrite_control (s : State) (t : Transfer) (h : t ∈ s.port.control) :
    t ∈ (nextBlockWrite s).port.control := by
  unfold nextBlockWrite
  split
  · exact h
  · split
    · exact List.mem_append_left _ h
    · split
      · exact List.mem_append_left _ h
      · exact h

theorem nextBlockWrite_cursor (s : State) : (nextBlockWrite s).reader.cursor = s.reader.cursor := by
  unfold nextBlockWrite
  split
  · rfl
  · split
    · rfl
    · split <;> rfl

theorem handResult_handsBack (h : s.reader.writeBackLost = false) : HandsBack r (handResult r s) := by
  unfold handResult; dsimp only; rw [if_neg (by simp [h])]
  unfold HandsBack
  refine ⟨(nextBlockWrite_keeps _).1.trans rfl, (nextBlockWrite_keeps _).2.1.trans rfl,
    (nextBlockWrite_keeps _).2.2.1.trans rfl, ?_⟩
  intro w hw
  exact nextBlockWrite_toWrite _ w (List.mem_append_right _ hw)

/-- Handing a result back leaves to be written what was to be written. -/
theorem handResult_toWrite {fs : Fields} (h : s.reader.writeBackLost = false) (hf : ToWrite fs s) :
    ToWrite fs (handResult r s) := by
  unfold handResult; dsimp only; rw [if_neg (by simp [h])]
  intro w hw
  rcases hf w hw with hw | hw
  · exact nextBlockWrite_toWrite _ w (List.mem_append_left _ hw)
  · rw [nextBlockWrite_cursor]
    exact Or.inr (nextBlockWrite_control _ _ hw)

/-- A progress write-back: what it does to reader and port (R174, R183). -/
theorem pushProgress_wroteBack (fs : Fields) (s : State) : WroteBack fs s (pushProgress fs s) := by
  constructor
  · intro h; unfold pushProgress; rw [if_pos (by simp [h])]; exact ⟨rfl, rfl⟩
  · intro h b; unfold pushProgress nextBlockWrite; rw [if_neg (by simp [h])]; dsimp only
    rw [if_pos (by simpa using b)]; exact ⟨rfl, rfl⟩
  · intro w rest h b e; unfold pushProgress nextBlockWrite; rw [if_neg (by simp [h])]; dsimp only
    rw [if_neg (by simp [b])]
    split
    · rename_i x xs e2
      have e3 : x :: xs = w :: rest := e2.symm.trans e
      injection e3 with e4 e5; subst e4; subst e5
      exact ⟨rfl, rfl⟩
    · rename_i e2
      have e3 : ([] : List BlockWrite) = w :: rest := e2.symm.trans e
      cases e3

theorem pushProgress_toWrite (fs : Fields) (h : s.reader.writeBackLost = false) :
    ToWrite fs (pushProgress fs s) := by
  intro w hw; unfold pushProgress; rw [if_neg (by simp [h])]
  exact nextBlockWrite_toWrite _ w (List.mem_append_right _ hw)

theorem pushProgress_onlyIn (fs : Fields) (s : State) : OnlyIn (fields [.reader, .port]) s (pushProgress fs s) := by
  unfold pushProgress
  split
  · exact (Acts.refl _ _).only
  · exact (nextBlockWrite_acts (p := fields [.reader, .port]) (setReader_acts _ (Acts.refl _ _) rfl) rfl rfl).only

theorem handResult_onlyIn (h : s.reader.writeBackLost = false) :
    OnlyIn (fields [.job, .reader, .port]) s (handResult r s) := by
  unfold handResult; dsimp only; rw [if_neg (by simp [h])]
  exact (nextBlockWrite_acts (p := fields [.job, .reader, .port])
    (setReader_acts _ (setJob_acts _ (Acts.refl _ _) rfl) rfl) rfl rfl).only

/-- The end of a job after the loss of a write-back. -/
theorem handResult_haltsLost (h : s.reader.writeBackLost = true) : HaltsLost s (handResult r s) := by
  unfold handResult; dsimp only; rw [if_pos h]
  exact ⟨rfl, raise_pending _ _, rfl⟩

/-- Handing a result back is the end of a job; only job, reader and notices of the state before it matter. -/
theorem handResult_jobEnds {v : State} (reader : s.reader = v.reader) (notices : s.notices = v.notices) :
    JobEnds r v (handResult r s) := by
  refine ⟨fun h => ?_, fun h => ?_⟩
  · have h2 : s.reader.writeBackLost = false := by rw [reader]; exact h
    exact ⟨handResult_handsBack h2, (handResult_onlyIn h2 .notices rfl).trans notices⟩
  · have h2 : s.reader.writeBackLost = true := by rw [reader]; exact h
    have e := handResult_haltsLost (r := r) h2
    unfold HaltsLost at e ⊢; rw [reader, notices] at e; exact e

theorem JobEnds.job {v u : State} (h : JobEnds r v u) : u.job = none := by
  cases l : v.reader.writeBackLost
  · exact (h.result l).1.1
  · exact (h.lost l).1

theorem handResult_onlyInLost (r : JobResult) (s : State) :
    OnlyIn (fields [.job, .reader, .port, .notices]) s (handResult r s) :=
  (handResult_acts r (Acts.refl (fields [.job, .reader, .port, .notices]) s) rfl rfl rfl rfl).only

theorem finishJob_finishes (h : s.reader.writeBackLost = false) :
    Finishes kind r s.seals s.staging.nextSeq (finishJob kind r s) := by
  unfold finishJob Finishes
  split
  · exact ⟨rfl, rfl⟩
  · exact handResult_handsBack h

theorem finishJob_onlyIn (h : s.reader.writeBackLost = false) :
    OnlyIn (fields [.job, .reader, .port, .pages]) s (finishJob kind r s) := by
  unfold finishJob
  split
  · intro f hf; cases f <;> first | rfl | cases hf
  · intro f hf; exact handResult_onlyIn h f (by cases f <;> first | rfl | cases hf)

end Sys2Proof.Machine
end

