-- ==== Sys2Proof/Laws/ScanEnd.lean ====
section
/-! SUPPORT. How a scan leaves SCANNING and ends: what its end, its discard, its drain, a line's close and a failure with a
stop reason do, each said once. -/

namespace Sys2Proof.Machine

variable {s u v w : State} {j k : ScanJob}

/-! ## The end (R124, R126) -/

theorem decelerate_onlyIn (s : State) : OnlyIn (fields [.turntable]) s (decelerate s) :=
  (decelerate_acts (Acts.refl (fields [.turntable]) s) rfl).only

theorem endScan_ends (j : ScanJob) (s : State) : ScanEnds j s (endScan j s) := by
  have d := decelerate_onlyIn s
  have o := handResult_onlyInLost (scanResult j s.azimuth s.photo.stations) (releaseStations (decelerate s))
  have er : (releaseStations (decelerate s)).reader = s.reader := d .reader rfl
  have en : (releaseStations (decelerate s)).notices = s.notices := d .notices rfl
  refine ⟨o .turntable rfl, (o .photo rfl).trans ?_, handResult_jobEnds er en, ?_⟩
  · have e : (decelerate s).photo = s.photo := d .photo rfl
    unfold releaseStations; rw [e]; rfl
  · intro f hf
    have a : f.same (releaseStations (decelerate s)) (endScan j s) := o f (by cases f <;> first | rfl | cases hf)
    have b : f.same s (decelerate s) := d f (by cases f <;> first | rfl | cases hf)
    cases f <;> first | exact Eq.trans a b | cases hf

theorem discardScan_discarded (j : ScanJob) (s : State) : ScanDiscarded j s (discardScan j s) := by
  have e : (s.staging.entries.filter (fun e => Discardable s e && e.record.shot?.isSome)).length =
      shotCount (s.staging.entries.filter (fun e => e.discardable s.jobSerial)) := by
    unfold shotCount; rw [List.filter_filter]
    exact congrArg List.length (List.filter_congr fun x _ => Bool.and_comm _ _)
  have d : (s.staging.entries.any fun e => Discardable s e && IsTrailerOf s.pages.discarding e) =
      (s.staging.entries.filter (fun e => e.discardable s.jobSerial)).any (·.isTrailerOf s.pages.discarding) := by
    rw [List.any_filter]
    congr 1; funext e
    have t : IsTrailerOf s.pages.discarding e = e.isTrailerOf s.pages.discarding := by
      unfold IsTrailerOf Entry.isTrailerOf; cases e.record <;> rfl
    rw [t]; rfl
  unfold ScanDiscarded; rw [e, d]
  exact endScan_ends _ _

theorem beginDrain_drains (j : ScanJob) (s : State) : Drains j s (beginDrain j s) := by
  have no : j.discardDue = false → j.abortTaken = false ∨ s.pages.wait = false →
      ¬ (j.discardDue = true ∨ (j.abortTaken = true ∧ s.pages.wait = true)) := by
    intro d a h; rcases h with h | h
    · rw [d] at h; cases h
    · rcases a with a | a
      · rw [a] at h; cases h.1
      · rw [a] at h; cases h.2
  constructor
  · intro h; unfold beginDrain; rw [if_pos h]; exact discardScan_discarded j s
  · intro d a f; unfold beginDrain; rw [if_neg (no d a), if_pos f]; exact endScan_ends j s
  · intro d a f c
    have c2 : s.seals = true ∨ j.cause.isSome = true := by
      rcases c with c | c
      · exact Or.inl c
      · exact Or.inr (Option.isSome_iff_ne_none.mpr c)
    unfold beginDrain; rw [if_neg (no d a), if_neg (by simp [f]), if_pos c2]; rfl
  · intro d a f c n
    have c2 : ¬ (s.seals = true ∨ j.cause.isSome = true) := by simp [c, n]
    unfold beginDrain; rw [if_neg (no d a), if_neg (by simp [f]), if_neg c2]; rfl

theorem enterEnding_leaves (j : ScanJob) (s : State) : LeavesScanning j s (enterEnding j s) := by
  constructor
  · rintro ⟨p, e, i⟩
    have h : s.inlinePhoto = true := by unfold State.inlinePhoto; rw [e]; exact i
    unfold enterEnding; dsimp only; rw [show State.inlinePhoto _ = s.inlinePhoto from rfl, if_pos h]; rfl
  · intro h
    have h : ¬ s.inlinePhoto = true := by
      unfold State.inlinePhoto
      cases e : s.photo.current with
      | none => simp
      | some p => simp [h p e]
    unfold enterEnding; dsimp only; rw [show State.inlinePhoto _ = s.inlinePhoto from rfl, if_neg h]
    exact beginDrain_drains _ _

/-! ## What stands beside it does not matter to the end -/

theorem decelerate_turntable (h : v.turntable = s.turntable) : (decelerate v).turntable = (decelerate s).turntable := by
  unfold decelerate; rw [h]
  repeat' split
  all_goals first | rfl | exact h

theorem ScanEnds.lineOver (h : ScanEnds j v u) : ScanEnds j (lineOver v) (lineOver u) := by
  refine ⟨h.turntable.trans (decelerate_turntable rfl), h.stations, ⟨h.ends.result, h.ends.lost⟩, ?_⟩
  intro f hf
  have a := h.others f hf
  cases f
  all_goals first | exact a | exact congrArg (fun x : LineState => { x with phase := .none, number := none }) a
                  | exact congrArg (fun x : Scheduler => { x with firing := .noLine }) a

theorem Drains.lineOver (h : Drains j v u) : Drains j (lineOver v) (lineOver u) := by
  refine ⟨fun a => ?_, fun a b c => (h.fault a b c).lineOver, fun a b c d => ?_, fun a b c d e => ?_⟩
  · have x : ScanDiscarded j v u := h.discard a
    unfold ScanDiscarded at x ⊢; exact x.lineOver
  · rw [h.mark a b c d]; rfl
  · rw [h.drain a b c d e]; rfl

theorem LeavesScanning.lineOver (h : LeavesScanning j v u) : LeavesScanning j (lineOver v) (lineOver u) := by
  constructor
  · intro p; rw [h.waits p]; rfl
  · intro p; exact (h.drains p).lineOver

/-- The end of a scan does not read the job that stands in the state. -/
theorem ScanEnds.ofJob {x : Option Job} (h : ScanEnds j { v with job := x } u) : ScanEnds j v u := by
  refine ⟨h.turntable.trans (decelerate_turntable rfl), h.stations, ⟨h.ends.result, h.ends.lost⟩, ?_⟩
  intro f hf
  have a := h.others f hf
  cases f <;> first | exact a | cases hf

theorem Drains.ofJob {x : Option Job} (h : Drains j { v with job := x } u) : Drains j v u := by
  refine ⟨fun a => ?_, fun a b c => (h.fault a b c).ofJob, fun a b c d => h.mark a b c d,
    fun a b c d e => h.drain a b c d e⟩
  have y : ScanDiscarded j { v with job := x } u := h.discard a
  unfold ScanDiscarded at y ⊢
  exact ScanEnds.ofJob (x := x) y

theorem LeavesScanning.ofJob {x : Option Job} (h : LeavesScanning j { v with job := x } u) : LeavesScanning j v u :=
  ⟨fun p => h.waits p, fun p => Drains.ofJob (x := x) (h.drains p)⟩

/-! ## The close of a line (R70 to R73, R118, R122) -/

/-- What the offer of a record of the reserve class does (R79, R82, R84). -/
theorem offerReserve_spec (r : Rec) (s : State) (size : r.limit = 32768) :
    OnlyIn (fields [.staging, .loss]) s (offerReserve r s).1 ∧
    (s.loss = Loss.zero → s.occupancy + r.size ≤ 32768 →
      (offerReserve r s).1.loss = s.loss ∧
      (offerReserve r s).1.staging =
        ⟨s.staging.entries ++ [⟨s.staging.nextSeq, s.jobSerial, r, false⟩], s.staging.nextSeq + 1⟩) ∧
    (s.loss ≠ Loss.zero → s.occupancy + (r.size + 32) ≤ 32768 →
      (offerReserve r s).1.loss = Loss.zero ∧
      (offerReserve r s).1.staging =
        ⟨s.staging.entries ++ [⟨s.staging.nextSeq, s.jobSerial, .gap s.loss, false⟩] ++
          [⟨s.staging.nextSeq + 1, s.jobSerial, r, false⟩], s.staging.nextSeq + 1 + 1⟩) ∧
    (32768 < s.occupancy + (r.size + if s.loss = Loss.zero then 0 else 32) →
      (offerReserve r s).1.staging = s.staging ∧ (offerReserve r s).1.loss = s.loss.addOther) := by
  refine ⟨(offerReserve_acts r (Acts.refl (fields [.staging, .loss]) s) rfl rfl).only, ?_, ?_, ?_⟩
  · intro l o
    have a : s.hasRoomFor r = true := by
      unfold State.hasRoomFor State.bytesFor Loss.pending; simp [l, size]; omega
    unfold offerReserve offer; rw [if_pos a, if_neg (by simp [Loss.pending, l])]; exact ⟨rfl, rfl⟩
  · intro l o
    have a : s.hasRoomFor r = true := by
      unfold State.hasRoomFor State.bytesFor Loss.pending; simp [l, size, gapSize]; omega
    unfold offerReserve offer; rw [if_pos a, if_pos (by simp [Loss.pending, l])]; exact ⟨rfl, rfl⟩
  · intro o
    have a : ¬ s.hasRoomFor r = true := by
      unfold State.hasRoomFor State.bytesFor Loss.pending
      by_cases l : s.loss = Loss.zero <;> simp [l, size, gapSize] at o ⊢ <;> omega
    unfold offerReserve offer; rw [if_neg a]; exact ⟨rfl, rfl⟩

/-- A close of a line of a scan in SCANNING: the line's values, and then SCANNING goes on or is left. -/
theorem closeLine_closes (n : Nat) (e : EndReport) (h : w.job = some (.scan k)) (sc : k.phase = .scanning) :
    ∃ v, LineCloses n e k w v ∧ ScanGoesOn (afterClose n k w) v (closeLine n e w) := by
  generalize hx : (if w.line.lost then w else (offerReserve (.trailer (trailerOf n e w)) w).1) = x
  have ox : OnlyIn (fields [.staging, .loss]) w x := by
    rw [← hx]; split
    · exact (Acts.refl _ _).only
    · exact (offerReserve_spec _ w rfl).1
  generalize hy : x.setLine { x.line with flags := closingFlags w } = y
  have oy : OnlyIn (fields [.staging, .loss, .line]) w y := by
    intro f hf; rw [← hy]
    have a := ox f (by cases f <;> first | rfl | cases hf)
    cases f <;> first | exact a | cases hf
  have ly : y.line = { w.line with flags := closingFlags w } := by
    rw [← hy, ← show x.line = w.line from ox .line rfl]; rfl
  have jy : y.job = some (.scan k) := (oy .job rfl).trans h
  generalize hz : pushProgress (closeFields (afterClose n k w) y.sched.nextShot y.intake.jobStrays)
    (putScan (afterClose n k w) y) = z
  have oz : OnlyIn (fields [.reader, .port]) (putScan (afterClose n k w) y) z := by rw [← hz]; exact pushProgress_onlyIn _ _
  have wz := pushProgress_wroteBack (closeFields (afterClose n k w) y.sched.nextShot y.intake.jobStrays)
    (putScan (afterClose n k w) y)
  rw [hz] at wz
  have er : (putScan (afterClose n k w) y).reader = w.reader := oy .reader rfl
  have ep : (putScan (afterClose n k w) y).port = w.port := oy .port rfl
  have es : y.sched = w.sched := oy .sched rfl
  have ei : y.intake = w.intake := oy .intake rfl
  refine ⟨lineOver z, ?_, ?_⟩
  · refine ⟨?_, ?_, ?_, ?_, ?_, ?_, ?_⟩
    · have a : z.line = y.line := oz .line rfl
      show ({ z.line with phase := .none, number := none } : LineState) = _
      rw [a, ly]; rfl
    · have a : z.sched = y.sched := oz .sched rfl
      show { z.sched with firing := Firing.noLine } = _
      rw [a, es]
    · intro l
      have a : z.staging = y.staging := oz .staging rfl
      have b : z.loss = y.loss := oz .loss rfl
      rw [if_pos l] at hx; subst hx
      exact ⟨a.trans (by rw [← hy]; rfl), b.trans (by rw [← hy]; rfl)⟩
    · intro flags r l ef er2
      have a : z.staging = x.staging := (oz .staging rfl).trans (by rw [← hy]; rfl)
      have b : z.loss = x.loss := (oz .loss rfl).trans (by rw [← hy]; rfl)
      have c : r = trailerOf n e w := by rw [er2, ef]; rfl
      rw [if_neg (by simp [l]), ← c] at hx
      have sp := offerReserve_spec (.trailer r) w rfl
      rw [hx] at sp
      refine ⟨fun p q => ?_, fun p q => ?_, fun p => ?_⟩
      · obtain ⟨f, g⟩ := sp.2.1 p q; exact ⟨b.trans f, a.trans g⟩
      · obtain ⟨f, g⟩ := sp.2.2.1 p q; exact ⟨b.trans f, a.trans g⟩
      · obtain ⟨f, g⟩ := sp.2.2.2 (by
          by_cases q : w.loss = Loss.zero
          · rw [if_pos q] at p ⊢; exact p
          · rw [if_neg q] at p ⊢; exact p)
        exact ⟨a.trans f, b.trans g⟩
    · exact oz .job rfl
    · refine ⟨fun a => ?_, fun a b => ?_, fun q rest a b c => ?_⟩
      · obtain ⟨f, g⟩ := wz.lost (by rw [er]; exact a); exact ⟨f.trans er, g.trans ep⟩
      · obtain ⟨f, g⟩ := wz.joins (by rw [er]; exact a) (by rw [er]; exact b)
        rw [er, es, ei] at f; exact ⟨f, g.trans ep⟩
      · obtain ⟨f, g⟩ := wz.issues q rest (by rw [er]; exact a) (by rw [er]; exact b) (by rw [er, es, ei]; exact c)
        rw [er] at f g; rw [ep] at g; exact ⟨f, g⟩
    · intro f hf
      have a := oz f (by cases f <;> first | rfl | cases hf)
      have b := oy f (by cases f <;> first | rfl | cases hf)
      cases f <;> first | exact Eq.trans a b | cases hf
  · have cl : closeLine n e w = lineOver (if (afterClose n k w).lastLineClosed then enterEnding (afterClose n k w) z
        else z) := by
      unfold closeLine; dsimp only; rw [hx, hy]
      unfold scanLineClosed; rw [jy]; dsimp only
      have q : k.lineClosed { line := n, flags := closingFlags w, shotsLost := w.line.shotsLost, zone := w.tracker.zone } =
          afterClose n k w := rfl
      rw [q, hz]
      have q2 : (afterClose n k w).phase = .scanning := sc
      simp only [q2, true_and]
    rw [cl]
    constructor
    · intro a b
      have c : ¬ (afterClose n k w).lastLineClosed = true := by
        unfold ScanJob.lastLineClosed; rw [b]; simp; omega
      rw [if_neg c]
    · intro a
      have c : (afterClose n k w).lastLineClosed = true := by
        unfold ScanJob.lastLineClosed
        rcases a with a | a
        · simp [a]
        · simp [Option.isSome_iff_ne_none.mpr a]
      rw [if_pos c]
      exact (enterEnding_leaves _ _).lineOver

theorem closeCheck_idem (w : State) : closeCheck (closeCheck w) = closeCheck w := by
  have again : ∀ n e, closeCheck (closeLine n e w) = closeLine n e w := fun n e => rfl
  cases en : w.line.number with
  | none => have a : closeCheck w = w := by unfold closeCheck; rw [en]
            rw [a, a]
  | some n =>
    cases er : w.line.report with
    | none => have a : closeCheck w = w := by unfold closeCheck; rw [en, er]
              rw [a, a]
    | some e =>
      by_cases c : w.line.phase = .draining ∧ ¬ w.lineHasShots n = true ∧ (e.cause = .permit → w.line.stopTaken = true)
      · have a : closeCheck w = closeLine n e w := by unfold closeCheck; rw [en, er]; dsimp only; rw [if_pos c]
        rw [a, again]
      · have a : closeCheck w = w := by unfold closeCheck; rw [en, er]; dsimp only; rw [if_neg c]
        rw [a, a]

/-- A draining line of a scan in SCANNING whose close waits for nothing but its shots (R70). -/
theorem closeCheck_drains (n : Nat) (e : EndReport) (h : w.job = some (.scan k)) (sc : k.phase = .scanning)
    (ph : w.line.phase = .draining) (nu : w.line.number = some n) (re : w.line.report = some e)
    (st : e.cause = .permit → w.line.stopTaken = true) : LineDrains n e k w (closeCheck w) := by
  constructor
  · intro a; unfold closeCheck; rw [nu, re]; simp [a]
  · intro a; unfold closeCheck; rw [nu, re]; dsimp only
    rw [if_pos ⟨ph, by simp [a], st⟩]
    exact closeLine_closes n e h sc

/-! ## A failure with a stop reason (R120, R122) -/

theorem ScanEnds.jobGone (h : ScanEnds j v u) : u.job = none := by
  cases e : v.reader.writeBackLost with
  | false => exact (h.ends.result e).1.1
  | true => exact (h.ends.lost e).1

/-- A scan that has left SCANNING is in ENDING, or has ended. -/
theorem LeavesScanning.phase (h : LeavesScanning j v u) : ∀ x, u.job = some (.scan x) → x.phase = .ending := by
  intro x e
  have gone : u.job = none → x.phase = .ending := by intro g; rw [g] at e; cases e
  cases c : v.photo.current with
  | some p =>
    cases i : p.isInline with
    | true => rw [h.waits ⟨p, c, i⟩] at e; injection e with e; injection e with e; rw [← e]
    | false => exact drained (h.drains (fun q a => by rw [c] at a; injection a with a; rw [← a]; exact i)) x e gone
  | none => exact drained (h.drains (fun q a => by rw [c] at a; cases a)) x e gone
where
  drained {v u : State} {j : ScanJob} (d : Drains { j with phase := .ending } v u) (x : ScanJob)
      (e : u.job = some (.scan x)) (gone : u.job = none → x.phase = .ending) : x.phase = .ending := by
    by_cases a : j.discardDue = true ∨ (j.abortTaken = true ∧ v.pages.wait = true)
    · exact gone (ScanEnds.jobGone (d.discard a))
    · have b : j.discardDue = false := by cases q : j.discardDue <;> simp_all
      have c : j.abortTaken = false ∨ v.pages.wait = false := by
        cases q : j.abortTaken
        · exact Or.inl rfl
        · cases r : v.pages.wait
          · exact Or.inr rfl
          · exact absurd (Or.inr ⟨q, r⟩) a
      cases f : v.pages.fault with
      | true => exact gone (d.fault b c f).jobGone
      | false =>
        by_cases g : v.seals = true ∨ j.cause ≠ none
        · rw [d.mark b c f g] at e; injection e with e; injection e with e; rw [← e]
        · have g1 : v.seals = false := by cases q : v.seals <;> simp_all
          have g2 : j.cause = none := by cases q : j.cause <;> simp_all
          rw [d.drain b c f g1 g2] at e; injection e with e; injection e with e; rw [← e]

/-- The permit has fallen, and the rest of the scheduler stands. -/
theorem LeavesScanning.sched (h : LeavesScanning j v u) : u.sched = { v.sched with permit := false } := by
  cases c : v.photo.current with
  | some p =>
    cases i : p.isInline with
    | true => rw [h.waits ⟨p, c, i⟩]
    | false => exact drained (h.drains (fun q a => by rw [c] at a; injection a with a; rw [← a]; exact i))
  | none => exact drained (h.drains (fun q a => by rw [c] at a; cases a))
where
  drained {v u : State} {j : ScanJob} (d : Drains j v u) : u.sched = v.sched := by
    by_cases a : j.discardDue = true ∨ (j.abortTaken = true ∧ v.pages.wait = true)
    · exact (ScanEnds.others (d.discard a)) .sched rfl
    · have b : j.discardDue = false := by cases q : j.discardDue <;> simp_all
      have c : j.abortTaken = false ∨ v.pages.wait = false := by
        cases q : j.abortTaken
        · exact Or.inl rfl
        · exact Or.inr (by cases r : v.pages.wait <;> simp_all)
      cases f : v.pages.fault with
      | true => exact (d.fault b c f).others .sched rfl
      | false =>
        by_cases g : v.seals = true ∨ j.cause ≠ none
        · rw [d.mark b c f g]
        · have g1 : v.seals = false := by cases q : v.seals <;> simp_all
          have g2 : j.cause = none := by cases q : j.cause <;> simp_all
          rw [d.drain b c f g1 g2]

theorem endIfNoLine_same (h : ∀ j, u.job = some (.scan j) → j.phase = .scanning → u.line.phase ≠ .none) :
    endIfNoLine u = u := by
  unfold endIfNoLine State.scanJob
  cases e : u.job with
  | none => rfl
  | some x =>
    cases x with
    | scan j => dsimp only; rw [if_neg (fun a => h j e a.1 a.2)]
    | _ => rfl

/-- Once the line drains with a failure cause held, the test for a line that is not open finds nothing to do. -/
theorem LineDrains.endIfNoLine_same {n : Nat} {e : EndReport} (d : LineDrains n e k w u) (c : k.cause ≠ none)
    (ph : w.line.phase = .draining) : endIfNoLine u = u := by
  apply Machine.endIfNoLine_same
  intro j ej sc
  cases a : w.lineHasShots n with
  | true => rw [d.inFlight a, ph]; intro x; cases x
  | false =>
    obtain ⟨v, _, go⟩ := d.closes a
    have q := (go.2 (Or.inr c)).phase j ej
    rw [sc] at q; cases q

theorem firstCause_some (h : Option ResultCode) (c : ResultCode) : firstCause h c ≠ none := by
  cases h <;> intro x <;> cases x

/-- The firing of an open line ends (R30, R37, R70). -/
theorem endFiring_live {n : Nat} (cause : EndCause) (d : s.sched.firing.live = true) (c : s.line.number = some n) :
    endFiring cause s = closeCheck { s with
      sched := { s.sched with firing := .ended, scheduled := none, shotWaits := false, permit := false },
      line := { s.line with
        phase := .draining,
        report := some ⟨n, s.sched.lineShots, s.sched.lineTargets, s.sched.lineFirst, s.sched.lineLast, cause⟩ } } := by
  unfold endFiring; rw [if_pos d, c]; rfl

theorem endFiring_over (cause : EndCause) (d : s.sched.firing.live = false) : endFiring cause s = s := by
  unfold endFiring; rw [if_neg (by rw [d]; simp)]

/-- What a failure with a stop reason does to a scan in SCANNING, taken with the permit as it stands. -/
theorem failScanning_stops (cause : ResultCode) (reason : StopReason) (sc : j.phase = .scanning) (v : State) :
    ScanStops cause reason .stop j v (failScanning cause reason j v) := by
  have mk : ∀ {k : ScanJob}, v.line.phase ≠ .none → markStop reason (putScan k v) =
      { v with job := some (.scan k), line := { v.line with marks := v.line.marks.withStop reason, stopTaken := true } } := by
    intro k h; unfold markStop; rw [if_neg (show ¬ (putScan k v).line.phase = .none from h)]; rfl
  refine ⟨fun a _ => ?_, fun k ek a b c => ?_, fun n e k w ek a b c d _ ee ew => ?_,
    fun n e k w ek a b c d f g ew => ?_⟩
  · unfold failScanning; dsimp only
    cases q : j.stop with
    | none => exact absurd q a
    | some r => rfl
  · have kp : k.phase = .scanning := by rw [ek]; exact sc
    have q : failScanning cause reason j v = endIfNoLine (stopRequest reason (putScan k v)) := by
      unfold failScanning; dsimp only; split
      · rename_i r q; rw [a] at q; cases q
      · rw [← ek]
    have q2 : stopRequest reason (putScan k v) = putScan k v := by
      unfold stopRequest markStop
      rw [if_pos (show (putScan k v).line.phase = .none from b)]
      rw [endFiring_over .stop (s := putScan k v) c]
      unfold closeCheck
      split
      · rw [if_neg (by rw [show (putScan k v).line = v.line from rfl, b]; simp)]
      · rfl
    have q3 : endIfNoLine (putScan k v) = enterEnding k (putScan k v) := by
      unfold endIfNoLine State.scanJob
      rw [show (putScan k v).job = some (.scan k) from rfl]; dsimp only; rw [if_pos ⟨kp, b⟩]
    rw [q, q2, q3]
    exact LeavesScanning.ofJob (x := some (.scan k)) (enterEnding_leaves k (putScan k v))
  · have kp : k.phase = .scanning := by rw [ek]; exact sc
    have q : failScanning cause reason j v = endIfNoLine (stopRequest reason (putScan k v)) := by
      unfold failScanning; dsimp only; split
      · rename_i r q; rw [a] at q; cases q
      · rw [← ek]
    have q2 : stopRequest reason (putScan k v) = closeCheck (closeCheck w) := by
      have mz := mk (k := k) (by rw [b]; simp)
      unfold stopRequest
      rw [endFiring_live (s := markStop reason (putScan k v)) (n := n) .stop (by rw [mz]; exact d) (by rw [mz]; exact c),
        mz, ew, ee]
    have dr := closeCheck_drains n e (w := w) (k := k) (by rw [ew]) kp (by rw [ew]) (by rw [ew]; exact c) (by rw [ew])
      (fun _ => by rw [ew])
    rw [q, q2, closeCheck_idem, dr.endIfNoLine_same (by rw [ek]; exact firstCause_some _ _) (by rw [ew])]
    exact dr
  · have kp : k.phase = .scanning := by rw [ek]; exact sc
    have q : failScanning cause reason j v = endIfNoLine (stopRequest reason (putScan k v)) := by
      unfold failScanning; dsimp only; split
      · rename_i r q; rw [a] at q; cases q
      · rw [← ek]
    have q2 : stopRequest reason (putScan k v) = closeCheck w := by
      have mz := mk (k := k) (by rw [b]; simp)
      unfold stopRequest
      rw [endFiring_over .stop (s := markStop reason (putScan k v)) (by rw [mz]; exact f), mz, ew]
    have dr := closeCheck_drains n e (w := w) (k := k) (by rw [ew]) kp (by rw [ew]; exact b) (by rw [ew]; exact c)
      (by rw [ew]; exact d) (fun _ => by rw [ew])
    rw [q, q2, dr.endIfNoLine_same (by rw [ek]; exact firstCause_some _ _) (by rw [ew]; exact b)]
    exact dr

/-- The permit, where it does not hold, computed anew (R22, R30). -/
theorem recomputePermit_falls (h : v.permitHolds = false) :
    recomputePermit v = if v.sched.permit = true ∧ v.sched.firing = .firing then endFiring .permit v
      else v.setSched { v.sched with permit := false } := by
  unfold recomputePermit; rw [if_neg (by rw [h]; simp)]

theorem scanFail_scanning (cause : ResultCode) (reason : StopReason) (h : v.job = some (.scan j))
    (sc : j.phase = .scanning) : scanFail cause reason v = failScanning cause reason j v := by
  unfold scanFail State.scanJob; rw [h]; dsimp only; rw [sc]

/-- A permit that is down already is not lowered. -/
theorem setPermit_same (p : v.sched.permit = false) : v.setSched { v.sched with permit := false } = v := by
  rw [← p]; rfl

/-- A line whose permit was lost waits for the stop request (R70). -/
theorem closeCheck_permit (h : ∀ e, s.line.report = some e → e.cause = .permit) (st : s.line.stopTaken = false) :
    closeCheck s = s := by
  unfold closeCheck; split
  · rename_i n r en er
    rw [if_neg]
    rintro ⟨_, _, q⟩
    have q2 := q (h r er)
    rw [st] at q2; cases q2
  · rfl

/-- A failure that is an input of the permit too reaches a scan in SCANNING after the permit has fallen (R22, R120, log
45). -/
theorem scanFail_stops (cause : ResultCode) (reason : StopReason) (h : v.job = some (.scan j)) (sc : j.phase = .scanning)
    (no : v.permitHolds = false) :
    ScanStops cause reason (if v.sched.permit = true ∧ v.sched.firing = .firing then .permit else .stop) j v
      (scanFail cause reason (recomputePermit v)) := by
  rw [recomputePermit_falls no]
  by_cases pf : v.sched.permit = true ∧ v.sched.firing = .firing
  · have live : v.sched.firing.live = true := by rw [pf.2]; rfl
    rw [if_pos pf, if_pos pf]
    refine ⟨fun _ p => (by rw [pf.1] at p; cases p), fun _ _ _ _ p => (by rw [live] at p; cases p), ?_,
      fun _ _ _ _ _ _ _ _ _ p => (by rw [live] at p; cases p)⟩
    intro n e k w ek a b c _ st ee ew
    have e1 : endFiring .permit v = { v with
        sched := { v.sched with firing := .ended, scheduled := none, shotWaits := false, permit := false },
        line := { v.line with phase := .draining, report := some e } } := by
      rw [endFiring_live (n := n) .permit live c, ← ee]
      exact closeCheck_permit (fun x q => by injection q with q; rw [← q, ee]) st
    rw [scanFail_scanning (j := j) cause reason (by rw [e1]; exact h) sc, e1]
    exact (failScanning_stops cause reason sc _).draining n e k w ek a rfl c rfl rfl rfl (by rw [ew])
  · rw [if_neg pf, if_neg pf,
      scanFail_scanning (v := v.setSched { v.sched with permit := false }) (j := j) cause reason h sc]
    have fs := failScanning_stops cause reason sc (v.setSched { v.sched with permit := false })
    refine ⟨fun a p => ?_, fun k ek a b c => ?_, fun n e k w ek a b c d st ee ew => ?_,
      fun n e k w ek a b c d f g ew => ?_⟩
    · rw [setPermit_same p] at fs ⊢; exact fs.again a p
    · have lv := fs.noLine k ek a b c
      exact ⟨fun p => lv.waits p, fun p => lv.drains p⟩
    · exact fs.opened n e k w ek a b c d st ee ew
    · rw [setPermit_same g] at fs ⊢; exact fs.draining n e k w ek a b c d f g ew

/-- An ABORT at the inline photograph in hand, if there is one (R123, R145). -/
theorem abortPhotograph_inline (s : State) : InlineAborted s (if s.inlinePhoto then abortPhotograph s else s) := by
  have inl : ∀ p, s.photo.current = some p → p.isInline = true → s.inlinePhoto = true := by
    intro p c i; unfold State.inlinePhoto; rw [c]; exact i
  refine ⟨fun h => ?_, fun p c i e => ?_, fun p c i e a => ?_, fun p c i e a => ?_⟩
  · rw [if_neg]
    unfold State.inlinePhoto
    cases c : s.photo.current with
    | none => simp
    | some p => simp [h p c]
  · rw [if_pos (inl p c i)]; unfold abortPhotograph; rw [c]; dsimp only; rw [if_pos e]; rfl
  · rw [if_pos (inl p c i)]; unfold abortPhotograph; rw [c]; dsimp only; rw [if_neg e, if_pos a]; rfl
  · rw [if_pos (inl p c i)]; unfold abortPhotograph; rw [c]; dsimp only; rw [if_neg e, if_neg (by rw [a]; simp)]

end Sys2Proof.Machine
end

