-- ==== Sys2Proof/Laws/Abort.lean ====
section
/-! SUPPORT. What an ABORT, or the loss of a write-back, does to a running job that is no scan in SCANNING, said once. -/

namespace Sys2Proof.Machine

variable {r : JobResult} {kind : JobKind} {s v u : State}

/-! ## What the end of a short job leaves -/

/-- The purposes of what waits after the next block write has been asked for. -/
theorem nextBlockWrite_purposes (s : State) : ∀ y ∈ (nextBlockWrite s).port.control,
    y ∈ s.port.control ∨ y.purpose = .blockWrite ∨ y.purpose = .resultCode := by
  intro y
  unfold nextBlockWrite
  have asked : ∀ t : Transfer, y ∈ s.port.control ++ [t] → y ∈ s.port.control ∨ y = t := fun t h => by
    rcases List.mem_append.mp h with h | h
    · exact Or.inl h
    · exact Or.inr (List.mem_singleton.mp h)
  split
  · exact Or.inl
  · split
    · exact fun h => (asked _ h).imp id fun e => Or.inl (by rw [e]; rfl)
    · split
      · exact fun h => (asked _ h).imp id fun e => Or.inr (by rw [e]; rfl)
      · exact Or.inl

/-- The purposes of what waits after a result has been handed back. -/
theorem handResult_purposes (r : JobResult) (s : State) : ∀ y ∈ (handResult r s).port.control,
    (∃ x ∈ s.port.control, x.purpose = y.purpose) ∨ y.purpose = .blockWrite ∨ y.purpose = .resultCode := by
  intro y
  unfold handResult; dsimp only
  split
  · intro h
    obtain ⟨x, hx, e⟩ := List.mem_map.mp (show y ∈ s.port.control.map (·.ignoreIf fun t => t.purpose.isReaderRead) from h)
    refine Or.inl ⟨x, hx, ?_⟩
    rw [← e]; unfold Transfer.ignoreIf; split <;> rfl
  · exact fun h => (nextBlockWrite_purposes _ y h).imp (fun h => ⟨y, h, rfl⟩) id

theorem giveUp_withdraws (which : Purpose) (s : State) : ∀ y ∈ (giveUp which s).port.control, y.purpose ≠ which := by
  intro y h
  obtain ⟨x, hx, e⟩ := List.mem_map.mp (show y ∈ ((s.port.control.filter (fun t => !decide (t.purpose = which))).map
    (·.ignoreIf fun t => decide (t.purpose = which))) from h)
  rw [List.mem_filter] at hx
  rw [← e]; unfold Transfer.ignoreIf
  split <;> simpa using hx.2

/-- A short job reaches an outcome whose detail is open: only block, reader, queue and notices of the state before it matter
to the outcome. -/
theorem finishOpen_concludes (kind : JobKind) (c : ResultCode) (hr : s.reader = v.reader) (hq : s.staging = v.staging)
    (hn : s.notices = v.notices) : Concludes kind ⟨c, openDetail s, []⟩ v (finishOpen kind c s) := by
  have seals : s.spendFree.seals = v.seals := by
    show s.seals = v.seals; unfold State.seals; rw [hr]
  refine ⟨fun h => ?_, fun h => ?_⟩
  · unfold finishOpen finishJob; rw [if_pos (seals.trans h)]
    refine ⟨rfl, hn, ?_⟩
    show some (EndMark.mk s.staging.nextSeq _ _) = _
    rw [hq]; rfl
  · unfold finishOpen finishJob; rw [if_neg (by rw [seals, h]; simp)]
    exact handResult_jobEnds hr hn

theorem finishOpen_purposes (kind : JobKind) (c : ResultCode) (s : State) : ∀ y ∈ (finishOpen kind c s).port.control,
    (∃ x ∈ s.port.control, x.purpose = y.purpose) ∨ y.purpose = .blockWrite ∨ y.purpose = .resultCode := by
  intro y
  unfold finishOpen finishJob
  split
  · exact fun h => Or.inl ⟨y, h, rfl⟩
  · exact handResult_purposes _ _ y

/-! ## ABORT by the kind of job -/

theorem abortWaiting {job : Job} {kind : JobKind} (k : job.waits = some kind) :
    (∃ detail, Concludes kind ⟨.aborted, detail, []⟩ s (abortJob job s)) ∧
    (abortJob job s).turntable = (if job = .turnWait then (decelerate s).turntable else s.turntable) ∧
    (abortJob job s).markWait = (if job = .markWait then none else s.markWait) ∧
    (kind = .profile → ∀ x ∈ (abortJob job s).port.control, x.purpose ≠ .profileRead) ∧
    (kind = .report → ∀ x ∈ (abortJob job s).port.control, x.purpose ≠ .reportWrite) ∧
    OnlyIn (fields [.job, .reader, .port, .pages, .turntable, .markWait, .notices, .freeCount]) s (abortJob job s) := by
  have acts (kind : JobKind) (x : State) :
      OnlyIn (fields [.job, .reader, .port, .pages, .notices, .freeCount]) x (finishOpen kind .aborted x) :=
    (finishOpen_acts (p := fields [.job, .reader, .port, .pages, .notices, .freeCount]) kind .aborted (Acts.refl _ x)
      rfl rfl rfl rfl rfl rfl).only
  have frame (kind : JobKind) (x : State) (h : OnlyIn (fields [.port, .turntable, .markWait]) s x) :
      OnlyIn (fields [.job, .reader, .port, .pages, .turntable, .markWait, .notices, .freeCount]) s
        (finishOpen kind .aborted x) :=
    (h.mono (by intro f hf; cases f <;> first | rfl | cases hf)).trans
      ((acts kind x).mono (by intro f hf; cases f <;> first | rfl | cases hf))
  have d : OnlyIn (fields [.port, .turntable, .markWait]) s (decelerate s) :=
    (decelerate_onlyIn s).mono (by intro f hf; cases f <;> first | rfl | cases hf)
  have g (w : Purpose) : OnlyIn (fields [.port, .turntable, .markWait]) s (giveUp w s) :=
    (giveUp_acts (p := fields [.port, .turntable, .markWait]) w (Acts.refl _ s) rfl).only
  have gone (kind : JobKind) (w : Purpose) (h1 : w ≠ .blockWrite) (h2 : w ≠ .resultCode) :
      ∀ x ∈ (finishOpen kind .aborted (giveUp w s)).port.control, x.purpose ≠ w := by
    intro x hx
    rcases finishOpen_purposes _ _ _ x hx with ⟨y, hy, e⟩ | e | e
    · rw [← e]; exact giveUp_withdraws w s y hy
    · rw [e]; exact h1.symm
    · rw [e]; exact h2.symm
  cases job with
  | spinWait =>
    cases k
    exact ⟨⟨_, finishOpen_concludes _ _ rfl rfl rfl⟩, acts _ _ .turntable rfl, acts _ _ .markWait rfl, nofun, nofun,
      frame _ _ ((Acts.refl _ s).only)⟩
  | turnWait =>
    cases k
    exact ⟨⟨_, finishOpen_concludes _ _ (d .reader rfl) (d .staging rfl) (d .notices rfl)⟩, acts _ _ .turntable rfl,
      (acts _ _ .markWait rfl).trans (decelerate_onlyIn s .markWait rfl), nofun, nofun, frame _ _ d⟩
  | profileRead a b =>
    cases k
    exact ⟨⟨_, finishOpen_concludes _ _ rfl rfl rfl⟩, acts _ _ .turntable rfl, acts _ _ .markWait rfl,
      fun _ => gone _ _ (by decide) (by decide), nofun, frame _ _ (g _)⟩
  | reportWrite =>
    cases k
    exact ⟨⟨_, finishOpen_concludes _ _ rfl rfl rfl⟩, acts _ _ .turntable rfl, acts _ _ .markWait rfl, nofun,
      fun _ => gone _ _ (by decide) (by decide), frame _ _ (g _)⟩
  | markWait =>
    cases k
    exact ⟨⟨_, finishOpen_concludes _ _ rfl rfl rfl⟩, acts _ _ .turntable rfl, acts _ _ .markWait rfl, nofun, nofun,
      frame _ _ (setMarkWait_acts (p := fields [.port, .turntable, .markWait]) none (Acts.refl _ s) rfl).only⟩
  | sealWait _ _ => cases k
  | scan _ => cases k
  | photo _ => cases k

theorem failPre_decelerates_twice (j : ScanJob) (s : State) (h : ScanEnds j (decelerate s) u) : ScanEnds j s u := by
  have d := decelerate_onlyIn s
  have twice : (decelerate (decelerate s)).turntable = (decelerate s).turntable := by
    cases e : s.turntable.state <;> simp [decelerate, e, State.setTurntable]
  have ep : (decelerate s).photo = s.photo := d .photo rfl
  have ea : (decelerate s).azimuth = s.azimuth := d .azimuth rfl
  have er : (decelerate s).reader = s.reader := d .reader rfl
  have en : (decelerate s).notices = s.notices := d .notices rfl
  refine ⟨h.turntable.trans twice, h.stations.trans (by rw [ep]), ⟨fun wb => ?_, fun wb => ?_⟩, ?_⟩
  · have e := h.ends.result (by rw [er]; exact wb)
    rw [ep, ea, en] at e; exact e
  · have e := h.ends.lost (by rw [er]; exact wb)
    unfold HaltsLost at e ⊢; rw [er, en] at e; exact e
  · exact (d.mono (by intro f hf; cases f <;> first | rfl | cases hf)).trans h.others

theorem abortScan_early (j : ScanJob) (s : State) (h : j.phase = .hold ∨ j.phase = .position ∨ j.phase = .runIn) :
    EarlyScanAborted j s (abortScan j s) := by
  have d := decelerate_onlyIn s
  have e : abortScan j s =
      if j.endWait = .none then failPre .aborted j s else if s.sealBegun then s else endScan j (clearMark s) := by
    unfold abortScan; rcases h with h | h | h <;> rw [h]
  refine ⟨fun n c => ?_, fun n c => ?_, fun n c => ?_, fun n c => ?_⟩
  · rw [e, if_pos n]; unfold failPre; dsimp only; rw [if_pos c]
    refine ⟨rfl, rfl, ?_, ?_⟩
    · have ep : (decelerate s).pages = s.pages := d .pages rfl
      have eq : (decelerate s).staging = s.staging := d .staging rfl
      show { (decelerate s).pages with mark := some (EndMark.mk (decelerate s).staging.nextSeq .abort false) } = _
      rw [ep, eq]
    · intro f hf
      have a := d f (by cases f <;> first | rfl | cases hf)
      cases f <;> first | exact a | cases hf
  · rw [e, if_pos n]; unfold failPre; dsimp only; rw [if_neg (by simp [c])]
    exact failPre_decelerates_twice _ _ (endScan_ends _ _)
  · rw [e, if_neg n, if_pos c]
  · rw [e, if_neg n, if_neg (by simp [c])]; exact endScan_ends _ _

theorem abortScan_ending (j : ScanJob) (s : State) (h : j.phase = .ending) : EndingScanAborted j s (abortScan j s) := by
  have e : abortScan j s = abortEnding j s := by unfold abortScan; rw [h]
  rw [e]
  refine ⟨fun n => ?_, fun n c => ?_, fun n c => ?_⟩ <;> unfold abortEnding <;> dsimp only
  · rw [if_pos n]; rfl
  · rw [if_neg n, if_pos c]; rfl
  · rw [if_neg n, if_neg (by simp [c])]; exact discardScan_discarded _ _

/-- A PHOTO job hands its result back: only reader, notices and stations of the state before it matter. -/
theorem handPhoto_jobEnds (p : PhotoJob) (hr : s.reader = v.reader) (hn : s.notices = v.notices)
    (hs : s.photo.stations = v.photo.stations) :
    JobEnds (photoResult p (photoDetail p s) v.photo.stations) v (handPhoto p s) := by
  unfold handPhoto; rw [hs]
  apply handResult_jobEnds
  · show State.reader (if p.lateCause then s.spendFree else s) = _; split <;> exact hr
  · show State.notices (if p.lateCause then s.spendFree else s) = _; split <;> exact hn

theorem handPhoto_keeps (p : PhotoJob) (s : State) :
    (handPhoto p s).pages = s.pages ∧ (handPhoto p s).turntable = s.turntable ∧
    (handPhoto p s).photo = { s.photo with stations := [], inlineBase := none } ∧
    (p.lateCause = false → (handPhoto p s).freeCount = s.freeCount) := by
  have o := handResult_onlyInLost (photoResult p (photoDetail p s) s.photo.stations)
    (releaseStations (if p.lateCause then s.spendFree else s))
  refine ⟨(o .pages rfl).trans ?_, (o .turntable rfl).trans ?_, (o .photo rfl).trans ?_, fun l => (o .freeCount rfl).trans ?_⟩
  · show State.pages (if p.lateCause then s.spendFree else s) = _; split <;> rfl
  · show State.turntable (if p.lateCause then s.spendFree else s) = _; split <;> rfl
  · show { State.photo (if p.lateCause then s.spendFree else s) with stations := [], inlineBase := none } = _; split <;> rfl
  · show State.freeCount (if p.lateCause then s.spendFree else s) = _; rw [l]; rfl

theorem abortPhoto_idle (a c : PhotoJob) (s : State)
    (hc : c = { a with abortTaken := true, cause := firstCause a.cause .aborted }) (w : a.sealWait = false)
    (b : s.photo.state.busy = false) :
    (abortPhoto a s).turntable = (decelerate s).turntable ∧
    (abortPhoto a s).photo.state = (if s.camera.presence = .present then .idle else .absent) ∧
    (s.seals = true →
      (abortPhoto a s).job = some (.photo { c with sealWait := true }) ∧
      (abortPhoto a s).pages.mark = some ⟨s.staging.nextSeq, .abort, false⟩ ∧ (abortPhoto a s).notices = s.notices) ∧
    (s.seals = false →
      (abortPhoto a s).photo.stations = [] ∧ ∃ detail, (a.lateCause = false → detail = a.index) ∧
        JobEnds (photoResult c detail s.photo.stations) s (abortPhoto a s)) ∧
    (a.lateCause = false → (abortPhoto a s).freeCount = s.freeCount) ∧
    OnlyIn (fields [.job, .reader, .port, .pages, .turntable, .photo, .notices, .freeCount]) s (abortPhoto a s) := by
  subst hc
  have d := decelerate_onlyIn s
  have er : (decelerate s).reader = s.reader := d .reader rfl
  have en : (decelerate s).notices = s.notices := d .notices rfl
  have eq : (decelerate s).staging = s.staging := d .staging rfl
  have ep : (decelerate s).photo = s.photo := d .photo rfl
  have ec : (decelerate s).camera = s.camera := d .camera rfl
  have ef : (decelerate s).freeCount = s.freeCount := d .freeCount rfl
  have rest : restState (decelerate s).camera = (if s.camera.presence = .present then .idle else .absent) := by
    rw [ec]; rfl
  have held : firstCause a.cause .aborted ≠ none := by cases a.cause <;> simp [firstCause]
  have e : abortPhoto a s = endPhotoJob { a with abortTaken := true, cause := firstCause a.cause .aborted }
      (restPhoto (decelerate s)) := by
    unfold abortPhoto; dsimp only; rw [if_neg (by simp [w]), if_neg (by simp [b])]
  have frame : OnlyIn (fields [.job, .reader, .port, .pages, .turntable, .photo, .notices, .freeCount]) s (abortPhoto a s) := by
    rw [e]
    exact (endPhotoJob_acts (p := fields [.job, .reader, .port, .pages, .turntable, .photo, .notices, .freeCount]) _
      (restPhoto_acts (decelerate_acts (Acts.refl _ s) rfl) rfl) rfl rfl rfl rfl rfl rfl rfl).only
  have seals : (restPhoto (decelerate s)).seals = s.seals := by
    show (decelerate s).seals = _; unfold State.seals; rw [er]
  refine ⟨?_, ?_, fun h => ?_, fun h => ?_, fun l => ?_, frame⟩
  · rw [e]; unfold endPhotoJob
    split
    · rfl
    · exact (handPhoto_keeps _ _).2.1
  · rw [e]; unfold endPhotoJob
    split
    · exact rest
    · rw [(handPhoto_keeps _ _).2.2.1]; exact rest
  · rw [e]; unfold endPhotoJob; rw [if_pos (seals.trans h), if_neg held]
    refine ⟨rfl, ?_, en⟩
    show some (EndMark.mk (decelerate s).staging.nextSeq _ _) = _
    rw [eq]
  · rw [e]; unfold endPhotoJob; rw [if_neg (by rw [seals, h]; simp)]
    refine ⟨by rw [(handPhoto_keeps _ _).2.2.1], _, fun l => ?_,
      handPhoto_jobEnds _ er en (by show (decelerate s).photo.stations = _; rw [ep])⟩
    unfold photoDetail; rw [if_neg (by simp [l])]
  · rw [e]; unfold endPhotoJob
    split
    · exact ef
    · have k := (handPhoto_keeps { a with abortTaken := true, cause := firstCause a.cause .aborted }
        (restPhoto (decelerate s))).2.2.2 l
      exact k.trans ef

theorem abortPhoto_aborted (a : PhotoJob) (s : State) : PhotoJobAborted a s (abortPhoto a s) := by
  have busy (c : PhotoJob) (hc : c = { a with abortTaken := true, cause := firstCause a.cause .aborted })
      (w : a.sealWait = false) (b : s.photo.state.busy = true) : abortPhoto a s = abortPhotograph (putPhoto c s) := by
    subst hc; unfold abortPhoto; dsimp only; rw [if_neg (by simp [w]), if_pos b]
  have late (c : PhotoJob) (hc : c = { a with abortTaken := true, cause := firstCause a.cause .aborted }) :
      { a.failLate .aborted with abortTaken := true } = { c with lateCause := a.lateCause || decide (a.cause = none) } := by
    subst hc; unfold PhotoJob.failLate; cases a.cause <;> rfl
  refine ⟨fun c hc w b => abortPhoto_idle a c s hc w b, fun c p hc w q x => ?_, fun c p hc w q x y => ?_,
    fun c p hc w q x y => ?_, fun c hc w b => ?_, fun c hc w b => ?_⟩
  · rw [busy c hc w (by rw [x]; rfl)]; unfold abortPhotograph
    rw [show (putPhoto c s).photo.current = some p from q]; dsimp only; rw [if_pos (by exact x)]; rfl
  · rw [busy c hc w (by rw [x]; rfl)]; unfold abortPhotograph
    rw [show (putPhoto c s).photo.current = some p from q]; dsimp only
    rw [if_neg (by rw [show (putPhoto c s).photo.state = _ from x]; simp), if_pos y]; rfl
  · rw [busy c hc w (by rw [x]; rfl)]; unfold abortPhotograph
    rw [show (putPhoto c s).photo.current = some p from q]; dsimp only
    rw [if_neg (by rw [show (putPhoto c s).photo.state = _ from x]; simp), if_neg (by simp [y])]; rfl
  · unfold abortPhoto; dsimp only; rw [if_pos w, if_pos b, late c hc]; rfl
  · have e : abortPhoto a s = handPhoto { c with lateCause := a.lateCause || decide (a.cause = none) } (clearMark s) := by
      unfold abortPhoto; dsimp only; rw [if_pos w, if_neg (by simp [b]), late c hc]
    have k := handPhoto_keeps { c with lateCause := a.lateCause || decide (a.cause = none) } (clearMark s)
    rw [e]
    have ends := handPhoto_jobEnds (s := clearMark s) (v := s)
      { c with lateCause := a.lateCause || decide (a.cause = none) } rfl rfl rfl
    refine ⟨by rw [k.1]; rfl, by rw [k.2.2.1], ⟨_, fun l n => ?_, ends⟩, ?_⟩
    · unfold photoDetail; rw [if_neg (by simp [l, n])]; subst hc; rfl
    · exact (handPhoto_acts (p := fields [.job, .reader, .port, .pages, .photo, .notices, .freeCount]) _
        (clearMark_acts (Acts.refl _ s) rfl) rfl rfl rfl rfl rfl rfl).only

/-- What an ABORT does to a running job that is no scan in SCANNING. -/
theorem abortJob_aborted (job : Job) (s : State) (h : ∀ j, job = .scan j → j.phase ≠ .scanning) :
    JobAborted job s (abortJob job s) := by
  refine ⟨fun kind k => abortWaiting k, fun j e p => ?_, fun j e p => ?_, fun a e => ?_, fun kind r e => ?_⟩
  · subst e; exact abortScan_early j s p
  · subst e; exact abortScan_ending j s p
  · subst e; exact abortPhoto_aborted a s
  · subst e
    show (_ → ∃ detail, abortSealWait kind r s = _) ∧ (_ → (abortSealWait kind r s).pages.mark = none ∧ _)
    refine ⟨fun b => ?_, fun b => ?_⟩
    · refine ⟨openDetail s, ?_⟩
      unfold abortSealWait; rw [if_pos b]; unfold abortedResult; cases kind <;> rfl
    · have a : abortSealWait kind r s = handResult (abortedResult kind r false s) (clearMark s).spendFree := by
        unfold abortSealWait; rw [if_neg (by simp [b])]
      have o := handResult_onlyInLost (abortedResult kind r false s) (clearMark s).spendFree
      have ends : JobEnds (abortedResult kind r false s) s (abortSealWait kind r s) := by
        rw [a]; exact handResult_jobEnds rfl rfl
      refine ⟨by rw [a]; exact congrArg (·.mark) (o .pages rfl), fun k n => ?_, fun k => ⟨openDetail s, ?_⟩, ?_⟩
      · have q : abortedResult kind r false s = r := by
          unfold abortedResult; rcases k with k | k <;> rw [k] <;> simp [n]
        rw [q] at ends; exact ends
      · have q : abortedResult kind r false s = ⟨.aborted, openDetail s, []⟩ := by
          unfold abortedResult
          rcases k with ⟨k1, k2⟩ | k
          · cases kind <;> first | rfl | exact absurd rfl k1 | exact absurd rfl k2
          · cases kind <;> simp [k, plainResult]
        rw [q] at ends; exact ends
      · show OnlyIn _ s (abortSealWait kind r s)
        rw [a]
        exact (handResult_acts (p := fields [.job, .reader, .port, .pages, .notices, .freeCount]) _
          (spendFree_acts (clearMark_acts (Acts.refl _ s) rfl) rfl) rfl rfl rfl rfl).only

end Sys2Proof.Machine
end

