-- ==== Sys2Proof/Laws/ActsEvents.lean ====
section
/-! SUPPORT. What an operation can do (see Laws/Acts): the events themselves, one lemma each. -/

namespace Sys2Proof.Machine

variable {p : Field → Bool} {s u : State}

theorem controlAbort_acts (h : Acts p s u) (turntable : p .turntable = true) (sector : p .sector = true)
    (sched : p .sched = true) (line : p .line = true) (staging : p .staging = true) (loss : p .loss = true)
    (markWait : p .markWait = true) (pages : p .pages = true) (job : p .job = true) (photo : p .photo = true)
    (port : p .port = true) (reader : p .reader = true) (notices : p .notices = true) (out : p .out = true)
    (freeCount : p .freeCount = true) :
    Acts p s (controlAbort u) := by
  unfold controlAbort; try dsimp only
  repeat' (first | with_reducible assumption | with_reducible apply refuse_acts
                  | with_reducible apply advancePages_acts | with_reducible apply abortJob_acts | split
                  | with_reducible rfl)

theorem controlHalt_acts (h : Acts p s u) (port : p .port = true) (reader : p .reader = true)
    (notices : p .notices = true) :
    Acts p s (controlHalt u) := by
  unfold controlHalt; try dsimp only
  repeat' (first | with_reducible assumption | with_reducible apply refuse_acts
                  | with_reducible apply enterHalted_acts | with_reducible apply setReader_acts | split
                  | with_reducible rfl)

theorem controlResume_acts (h : Acts p s u) (port : p .port = true) (reader : p .reader = true)
    (notices : p .notices = true) :
    Acts p s (controlResume u) := by
  unfold controlResume; try dsimp only
  repeat' (first | with_reducible assumption | with_reducible apply refuse_acts
                  | with_reducible apply beginExamination_acts | with_reducible apply beginLinkRead_acts
                  | with_reducible apply setReader_acts | split | with_reducible rfl)

theorem controlCut_acts (h : Acts p s u) (turntable : p .turntable = true) (staging : p .staging = true)
    (loss : p .loss = true) (pages : p .pages = true) (job : p .job = true) (photo : p .photo = true)
    (port : p .port = true) (reader : p .reader = true) (notices : p .notices = true)
    (freeCount : p .freeCount = true) :
    Acts p s (controlCut u) := by
  unfold controlCut; try dsimp only
  repeat' (first | with_reducible assumption | with_reducible apply refuse_acts | with_reducible apply beginSeal_acts
                  | with_reducible apply advancePages_acts | split | with_reducible rfl)

theorem writeChainStart_acts (value : Word) (h : Acts p s u) (port : p .port = true) (reader : p .reader = true)
    (notices : p .notices = true) :
    Acts p s (writeChainStart value u) := by
  unfold writeChainStart; try dsimp only
  repeat' (first | with_reducible assumption | with_reducible apply refuse_acts
                  | with_reducible apply beginExamination_acts | with_reducible apply setReader_acts | split
                  | with_reducible rfl)

theorem writeLook_acts (h : Acts p s u) (turntable : p .turntable = true) (staging : p .staging = true)
    (loss : p .loss = true) (pages : p .pages = true) (job : p .job = true) (photo : p .photo = true)
    (port : p .port = true) (reader : p .reader = true) (notices : p .notices = true)
    (freeCount : p .freeCount = true) :
    Acts p s (writeLook u) := by
  unfold writeLook; try dsimp only
  repeat' (first | with_reducible assumption | with_reducible apply lookAtChain_acts
                  | with_reducible apply wakePages_acts | with_reducible apply advancePages_acts | split
                  | with_reducible rfl)

theorem writeMask_acts (value : Word) (h : Acts p s u) (notices : p .notices = true) : Acts p s (writeMask value u) :=
  setNotices_acts _ h notices ⟨driveAttn_sound _ rfl rfl rfl, by rw [driveAttn_pending]; exact BitVec.and_self⟩

theorem pulseOver_acts (h : Acts p s u) (notices : p .notices = true) : Acts p s (pulseOver u) := by
  unfold pulseOver
  split
  · rename_i he
    refine setNotices_acts _ h notices ⟨fun hs => ?_, BitVec.and_self⟩
    unfold Notices.sound at hs ⊢
    cases hm : u.notices.mode
    · simp only [hm] at hs
      rw [hs.2] at he
      cases he
    · simp only [Option.isSome_none]
  · exact h

theorem indexAtScan_acts (h : Acts p s u) (turntable : p .turntable = true) (sector : p .sector = true)
    (sched : p .sched = true) (intake : p .intake = true) (line : p .line = true) (staging : p .staging = true)
    (loss : p .loss = true) (pages : p .pages = true) (job : p .job = true) (photo : p .photo = true)
    (port : p .port = true) (reader : p .reader = true) (notices : p .notices = true) (out : p .out = true) :
    Acts p s (indexAtScan u) := by
  unfold indexAtScan; try dsimp only
  repeat' (first | with_reducible assumption | with_reducible apply runInIndex_acts
                  | with_reducible apply openLine_acts | with_reducible apply recomputePermit_acts
                  | with_reducible apply crossings_acts | split | with_reducible rfl)

theorem indexAtPages_acts (h : Acts p s u) (turntable : p .turntable = true) (staging : p .staging = true)
    (pages : p .pages = true) (job : p .job = true) (photo : p .photo = true) (port : p .port = true)
    (reader : p .reader = true) (notices : p .notices = true) :
    Acts p s (indexAtPages u) := by
  unfold indexAtPages; try dsimp only
  repeat' (first | with_reducible assumption | with_reducible apply wakePages_acts | split | with_reducible rfl)

theorem indexMark_acts (h : Acts p s u) (angle : p .angle = true) (mirror : p .mirror = true)
    (turntable : p .turntable = true) (sector : p .sector = true) (sched : p .sched = true)
    (intake : p .intake = true) (line : p .line = true) (staging : p .staging = true) (loss : p .loss = true)
    (pages : p .pages = true) (job : p .job = true) (photo : p .photo = true) (port : p .port = true)
    (reader : p .reader = true) (notices : p .notices = true) (out : p .out = true)
    (freeCount : p .freeCount = true) :
    Acts p s (indexMark u) := by
  unfold indexMark; try dsimp only
  repeat' (first | with_reducible assumption | with_reducible apply advancePages_acts
                  | with_reducible apply mirrorChanged_acts | with_reducible apply indexAtScan_acts
                  | with_reducible apply indexAtPages_acts | with_reducible apply setAngle_acts
                  | with_reducible apply setMirror_acts | split | with_reducible rfl)

theorem rateWatchOver_acts (h : Acts p s u) (mirror : p .mirror = true) :
    Acts p s (rateWatchOver u) := by
  unfold rateWatchOver; try dsimp only
  repeat' (first | with_reducible assumption | with_reducible apply setMirror_acts | split | with_reducible rfl)

theorem watchdogOver_acts (h : Acts p s u) (mirror : p .mirror = true) (turntable : p .turntable = true)
    (sector : p .sector = true) (sched : p .sched = true) (line : p .line = true) (staging : p .staging = true)
    (loss : p .loss = true) (pages : p .pages = true) (job : p .job = true) (photo : p .photo = true)
    (port : p .port = true) (reader : p .reader = true) (notices : p .notices = true)
    (freeCount : p .freeCount = true) :
    Acts p s (watchdogOver u) := by
  unfold watchdogOver; try dsimp only
  repeat' (first | with_reducible assumption | with_reducible apply advancePages_acts
                  | with_reducible apply mirrorChanged_acts | with_reducible apply setMirror_acts | split
                  | with_reducible rfl)

theorem spinUpLimitOver_acts (h : Acts p s u) (mirror : p .mirror = true) (turntable : p .turntable = true)
    (sector : p .sector = true) (sched : p .sched = true) (line : p .line = true) (staging : p .staging = true)
    (loss : p .loss = true) (pages : p .pages = true) (job : p .job = true) (photo : p .photo = true)
    (port : p .port = true) (reader : p .reader = true) (notices : p .notices = true)
    (freeCount : p .freeCount = true) :
    Acts p s (spinUpLimitOver u) := by
  unfold spinUpLimitOver; try dsimp only
  repeat' (first | with_reducible assumption | with_reducible apply raise_acts
                  | with_reducible apply advancePages_acts | with_reducible apply mirrorChanged_acts
                  | with_reducible apply setMirror_acts | split | with_reducible rfl)

theorem bandEntered_acts (h : Acts p s u) (turntable : p .turntable = true) :
    Acts p s (bandEntered u) := by
  unfold bandEntered; try dsimp only
  repeat' (first | with_reducible assumption | with_reducible apply setTurntable_acts | split | with_reducible rfl)

theorem bandLeft_acts (h : Acts p s u) (turntable : p .turntable = true) :
    Acts p s (bandLeft u) := by
  unfold bandLeft; try dsimp only
  repeat' (first | with_reducible assumption | with_reducible apply setTurntable_acts | split | with_reducible rfl)

theorem answerArrived_acts (h : Acts p s u) (turntable : p .turntable = true) (pages : p .pages = true)
    (job : p .job = true) (photo : p .photo = true) (port : p .port = true) (reader : p .reader = true)
    (notices : p .notices = true) (out : p .out = true) (freeCount : p .freeCount = true) :
    Acts p s (answerArrived u) := by
  unfold answerArrived; try dsimp only
  repeat' (first | with_reducible assumption | with_reducible apply jobArrived_acts
                  | with_reducible apply setTurntable_acts | split | with_reducible rfl)

theorem settled_acts (h : Acts p s u) (turntable : p .turntable = true) (staging : p .staging = true)
    (loss : p .loss = true) (pages : p .pages = true) (job : p .job = true) (photo : p .photo = true)
    (port : p .port = true) (reader : p .reader = true) (notices : p .notices = true) (out : p .out = true)
    (freeCount : p .freeCount = true) :
    Acts p s (settled u) := by
  unfold settled; try dsimp only
  repeat' (first | with_reducible assumption | with_reducible apply advancePages_acts
                  | with_reducible apply answerArrived_acts | with_reducible apply setTurntable_acts | split
                  | with_reducible rfl)

theorem slewLimitOver_acts (h : Acts p s u) (turntable : p .turntable = true) (staging : p .staging = true)
    (loss : p .loss = true) (pages : p .pages = true) (job : p .job = true) (photo : p .photo = true)
    (port : p .port = true) (reader : p .reader = true) (notices : p .notices = true)
    (freeCount : p .freeCount = true) :
    Acts p s (slewLimitOver u) := by
  unfold slewLimitOver; try dsimp only
  repeat' (first | with_reducible assumption | with_reducible apply enterTurntableFault_acts
                  | with_reducible apply advancePages_acts | with_reducible apply jobTurntableFault_acts | split
                  | with_reducible rfl)

theorem atRest_acts (h : Acts p s u) (turntable : p .turntable = true) :
    Acts p s (atRest u) := by
  unfold atRest; try dsimp only
  repeat' (first | with_reducible assumption | with_reducible apply setTurntable_acts | split | with_reducible rfl)

theorem permitFalls_acts (h : Acts p s u) (turntable : p .turntable = true) (sector : p .sector = true)
    (sched : p .sched = true) (line : p .line = true) (staging : p .staging = true) (loss : p .loss = true)
    (pages : p .pages = true) (job : p .job = true) (photo : p .photo = true) (port : p .port = true)
    (reader : p .reader = true) (notices : p .notices = true) :
    Acts p s (permitFalls u) := by
  unfold permitFalls; try dsimp only
  repeat' (first | with_reducible assumption | with_reducible apply recomputePermit_acts
                  | with_reducible apply scanFail_acts | split | with_reducible rfl)

theorem permitDeasserted_acts (h : Acts p s u) (turntable : p .turntable = true) (emission : p .emission = true)
    (sector : p .sector = true) (sched : p .sched = true) (line : p .line = true) (staging : p .staging = true)
    (loss : p .loss = true) (pages : p .pages = true) (job : p .job = true) (photo : p .photo = true)
    (port : p .port = true) (reader : p .reader = true) (notices : p .notices = true)
    (freeCount : p .freeCount = true) :
    Acts p s (permitDeasserted u) := by
  unfold permitDeasserted; try dsimp only
  repeat' (first | with_reducible assumption | with_reducible apply advancePages_acts
                  | with_reducible apply permitFalls_acts | with_reducible apply setEmission_acts | split
                  | with_reducible rfl)

theorem permitAsserted_acts (h : Acts p s u) (emission : p .emission = true) :
    Acts p s (permitAsserted u) := by
  unfold permitAsserted; try dsimp only
  repeat' (first | with_reducible assumption | with_reducible apply setEmission_acts | split | with_reducible rfl)

theorem permitCounted_acts (h : Acts p s u) (turntable : p .turntable = true) (emission : p .emission = true)
    (sector : p .sector = true) (sched : p .sched = true) (line : p .line = true) (staging : p .staging = true)
    (loss : p .loss = true) (pages : p .pages = true) (job : p .job = true) (photo : p .photo = true)
    (port : p .port = true) (reader : p .reader = true) (notices : p .notices = true) :
    Acts p s (permitCounted u) := by
  unfold permitCounted; try dsimp only
  repeat' (first | with_reducible assumption | with_reducible apply recomputePermit_acts
                  | with_reducible apply setEmission_acts | split | with_reducible rfl)

theorem sectorEntered_acts (h : Acts p s u) (turntable : p .turntable = true) (sector : p .sector = true)
    (sched : p .sched = true) (line : p .line = true) (staging : p .staging = true) (loss : p .loss = true)
    (pages : p .pages = true) (job : p .job = true) (photo : p .photo = true) (port : p .port = true)
    (reader : p .reader = true) (notices : p .notices = true) :
    Acts p s (sectorEntered u) := by
  unfold sectorEntered; try dsimp only
  repeat' (first | with_reducible assumption | with_reducible apply recomputePermit_acts
                  | with_reducible apply setSector_acts | split | with_reducible rfl)

theorem sectorLeft_acts (h : Acts p s u) (turntable : p .turntable = true) (sector : p .sector = true)
    (sched : p .sched = true) (line : p .line = true) (staging : p .staging = true) (loss : p .loss = true)
    (pages : p .pages = true) (job : p .job = true) (photo : p .photo = true) (port : p .port = true)
    (reader : p .reader = true) (notices : p .notices = true) (freeCount : p .freeCount = true) :
    Acts p s (sectorLeft u) := by
  unfold sectorLeft; try dsimp only
  repeat' (first | with_reducible assumption | with_reducible apply advancePages_acts
                  | with_reducible apply endFiring_acts | with_reducible apply recomputePermit_acts
                  | with_reducible apply setSector_acts | split | with_reducible rfl)

theorem countOutside_acts (h : Acts p s u) (counters : p .counters = true) :
    Acts p s (countOutside u) := by
  unfold countOutside; try dsimp only
  repeat' (first | with_reducible assumption | with_reducible apply setCounters_acts | split | with_reducible rfl)

theorem countStray_acts (h : Acts p s u) (intake : p .intake = true) (counters : p .counters = true) :
    Acts p s (countStray u) := by
  unfold countStray; try dsimp only
  repeat' (first | with_reducible assumption | with_reducible apply setIntake_acts
                  | with_reducible apply setCounters_acts | split | with_reducible rfl)

theorem strayInLine_acts (h : Acts p s u) (intake : p .intake = true) (counters : p .counters = true) :
    Acts p s (strayInLine u) := by
  unfold strayInLine; try dsimp only
  repeat' (first | with_reducible assumption | with_reducible apply countStray_acts
                  | with_reducible apply setIntake_acts | split | with_reducible rfl)

theorem strayBefore_acts (h : Acts p s u) (intake : p .intake = true) (counters : p .counters = true) :
    Acts p s (strayBefore u) := by
  unfold strayBefore; try dsimp only
  repeat' (first | with_reducible assumption | with_reducible apply countStray_acts
                  | with_reducible apply setIntake_acts | split | with_reducible rfl)

theorem strayTarget_acts (h : Acts p s u) (intake : p .intake = true) (counters : p .counters = true) :
    Acts p s (strayTarget u) := by
  unfold strayTarget; try dsimp only
  repeat' (first | with_reducible assumption | with_reducible apply strayInLine_acts
                  | with_reducible apply strayBefore_acts | split | with_reducible rfl)

theorem countBlanked_acts (h : Acts p s u) (intake : p .intake = true) :
    Acts p s (countBlanked u) := by
  unfold countBlanked; try dsimp only
  repeat' (first | with_reducible assumption | with_reducible apply setIntake_acts | split | with_reducible rfl)

theorem modifyShot_acts (number : Nat) (f : OpenShot → OpenShot) (h : Acts p s u) (shots : p .shots = true) :
    Acts p s (modifyShot number f u) :=
  setShots_acts _ h shots (Nat.le_of_eq (List.length_map _))

theorem referenceEcho_acts (e : Echo) (h : Acts p s u) (shots : p .shots = true) (intake : p .intake = true)
    (counters : p .counters = true) :
    Acts p s (referenceEcho e u) := by
  unfold referenceEcho; try dsimp only
  repeat' (first | with_reducible assumption | with_reducible apply countStray_acts
                  | with_reducible apply modifyShot_acts | split | with_reducible rfl)

theorem attachEcho_acts (limit : Nat) (c : Choice) (o : OpenShot) (range : Nat) (e : Echo) (h : Acts p s u)
    (shots : p .shots = true) (tracker : p .tracker = true) (intake : p .intake = true)
    (counters : p .counters = true) :
    Acts p s (attachEcho limit c o range e u) := by
  unfold attachEcho; try dsimp only
  repeat' (first | with_reducible assumption | with_reducible apply modifyShot_acts
                  | with_reducible apply setTracker_acts | with_reducible apply setIntake_acts
                  | with_reducible apply setCounters_acts | split | with_reducible rfl)

theorem matchEcho_acts (sl : Slot) (limit : Nat) (e : Echo) (h : Acts p s u) (shots : p .shots = true)
    (tracker : p .tracker = true) (intake : p .intake = true) (counters : p .counters = true) :
    Acts p s (matchEcho sl limit e u) := by
  unfold matchEcho; try dsimp only
  repeat' (first | with_reducible assumption | with_reducible apply strayInLine_acts
                  | with_reducible apply attachEcho_acts | split | with_reducible rfl)

theorem targetEcho_acts (j : ScanJob) (sl : Slot) (e : Echo) (h : Acts p s u) (shots : p .shots = true)
    (tracker : p .tracker = true) (intake : p .intake = true) (counters : p .counters = true) :
    Acts p s (targetEcho j sl e u) := by
  unfold targetEcho; try dsimp only
  repeat' (first | with_reducible assumption | with_reducible apply strayBefore_acts
                  | with_reducible apply countBlanked_acts | with_reducible apply matchEcho_acts | split
                  | with_reducible rfl)

theorem sortEcho_acts (ch : Channel) (j : ScanJob) (sl : Slot) (e : Echo) (h : Acts p s u) (shots : p .shots = true)
    (tracker : p .tracker = true) (intake : p .intake = true) (counters : p .counters = true) :
    Acts p s (sortEcho ch j sl e u) := by
  unfold sortEcho; try dsimp only
  repeat' (first | with_reducible assumption | with_reducible apply referenceEcho_acts
                  | with_reducible apply targetEcho_acts | split | with_reducible rfl)

theorem lateEcho_acts (ch : Channel) (h : Acts p s u) (intake : p .intake = true) (counters : p .counters = true) :
    Acts p s (lateEcho ch u) := by
  unfold lateEcho; try dsimp only
  repeat' (first | with_reducible assumption | with_reducible apply countStray_acts
                  | with_reducible apply strayTarget_acts | split | with_reducible rfl)

theorem echoArrives_acts (ch : Channel) (e : Echo) (h : Acts p s u) (shots : p .shots = true)
    (tracker : p .tracker = true) (intake : p .intake = true) (counters : p .counters = true) :
    Acts p s (echoArrives ch e u) := by
  unfold echoArrives; try dsimp only
  repeat' (first | with_reducible assumption | with_reducible apply countOutside_acts
                  | with_reducible apply sortEcho_acts | with_reducible apply lateEcho_acts
                  | with_reducible apply setIntake_acts | split | with_reducible rfl)

theorem handShot_acts (o : OpenShot) (h : Acts p s u) (turntable : p .turntable = true) (sector : p .sector = true)
    (sched : p .sched = true) (shots : p .shots = true) (line : p .line = true) (staging : p .staging = true)
    (loss : p .loss = true) (pages : p .pages = true) (job : p .job = true) (photo : p .photo = true)
    (slots : p .slots = true) (port : p .port = true) (reader : p .reader = true) (notices : p .notices = true) :
    Acts p s (handShot o u) := by
  have h1 : Acts p s (u.setShots (u.shots.filter (fun x => decide (x.number ≠ o.number)))) :=
    setShots_acts _ h shots (List.length_filter_le _ _)
  unfold handShot; dsimp only
  split
  · with_reducible apply scanFail_acts <;> first | assumption | (with_reducible apply shotClosed_acts <;> assumption)
  · with_reducible apply shotClosed_acts <;> assumption

theorem pollTicks_acts (h : Acts p s u) (turntable : p .turntable = true) (staging : p .staging = true)
    (loss : p .loss = true) (pages : p .pages = true) (job : p .job = true) (photo : p .photo = true)
    (port : p .port = true) (reader : p .reader = true) (notices : p .notices = true)
    (freeCount : p .freeCount = true) :
    Acts p s (pollTicks u) := by
  unfold pollTicks; try dsimp only
  repeat' (first | with_reducible assumption | with_reducible apply lookAtChain_acts
                  | with_reducible apply wakePages_acts | with_reducible apply advancePages_acts
                  | with_reducible apply setReader_acts | split | with_reducible rfl)

theorem runInDelayOver_acts (h : Acts p s u) (turntable : p .turntable = true) (staging : p .staging = true)
    (loss : p .loss = true) (pages : p .pages = true) (job : p .job = true) (photo : p .photo = true)
    (port : p .port = true) (reader : p .reader = true) (notices : p .notices = true)
    (freeCount : p .freeCount = true) :
    Acts p s (runInDelayOver u) := by
  unfold runInDelayOver; try dsimp only
  repeat' (first | with_reducible assumption | with_reducible apply advancePages_acts
                  | with_reducible apply issueTrack_acts | split | with_reducible rfl)

theorem enterScanning_acts (j : ScanJob) (h : Acts p s u) (turntable : p .turntable = true)
    (sector : p .sector = true) (sched : p .sched = true) (line : p .line = true) (staging : p .staging = true)
    (loss : p .loss = true) (pages : p .pages = true) (job : p .job = true) (photo : p .photo = true)
    (port : p .port = true) (reader : p .reader = true) (notices : p .notices = true) :
    Acts p s (enterScanning j u) := by
  unfold enterScanning; try dsimp only
  repeat' (first | with_reducible assumption | with_reducible apply putScan_acts | with_reducible apply scanFail_acts
                  | with_reducible apply setSector_acts | split | with_reducible rfl)

theorem runInCompletes_acts (h : Acts p s u) (turntable : p .turntable = true) (sector : p .sector = true)
    (sched : p .sched = true) (line : p .line = true) (staging : p .staging = true) (loss : p .loss = true)
    (pages : p .pages = true) (job : p .job = true) (photo : p .photo = true) (port : p .port = true)
    (reader : p .reader = true) (notices : p .notices = true) (freeCount : p .freeCount = true) :
    Acts p s (runInCompletes u) := by
  unfold runInCompletes; try dsimp only
  repeat' (first | with_reducible assumption | with_reducible apply advancePages_acts
                  | with_reducible apply enterScanning_acts | split | with_reducible rfl)

theorem midExposureOver_acts (h : Acts p s u) (photo : p .photo = true) :
    Acts p s (midExposureOver u) := by
  unfold midExposureOver; try dsimp only
  repeat' (first | with_reducible assumption | with_reducible apply midExposure_acts | split | with_reducible rfl)

theorem exposureTimeOver_acts (h : Acts p s u) (photo : p .photo = true) (port : p .port = true)
    (out : p .out = true) (freeCount : p .freeCount = true) :
    Acts p s (exposureTimeOver u) := by
  unfold exposureTimeOver; try dsimp only
  repeat' (first | with_reducible assumption | with_reducible apply exposureOver_acts | split | with_reducible rfl)

theorem rowTaken_acts (data : List Byte) (h : Acts p s u) (photo : p .photo = true) (port : p .port = true)
    (out : p .out = true) :
    Acts p s (rowTaken data u) := by
  unfold rowTaken; try dsimp only
  repeat' (first | with_reducible assumption | with_reducible apply rowArrives_acts | split | with_reducible rfl)

theorem rowTimeOver_acts (h : Acts p s u) (photo : p .photo = true) (port : p .port = true) (out : p .out = true)
    (freeCount : p .freeCount = true) :
    Acts p s (rowTimeOver u) := by
  unfold rowTimeOver; try dsimp only
  repeat' (first | with_reducible assumption | with_reducible apply cameraFault_acts | split | with_reducible rfl)

theorem presenceLevel_acts (level : Bool) (h : Acts p s u) (camera : p .camera = true) (notices : p .notices = true) :
    Acts p s (presenceLevel level u) := by
  unfold presenceLevel; try dsimp only
  repeat' (first | with_reducible assumption | with_reducible apply raise_acts | with_reducible apply setCamera_acts
                  | split | with_reducible rfl)

theorem presenceRises_acts (h : Acts p s u) (camera : p .camera = true) (notices : p .notices = true) :
    Acts p s (presenceRises u) := by
  unfold presenceRises; try dsimp only
  repeat' (first | with_reducible assumption | with_reducible apply enterCheck_acts
                  | with_reducible apply presenceLevel_acts | split | with_reducible rfl)

theorem photoCameraGone_acts (h : Acts p s u) (turntable : p .turntable = true) (pages : p .pages = true)
    (job : p .job = true) (photo : p .photo = true) (port : p .port = true) (reader : p .reader = true)
    (notices : p .notices = true) (out : p .out = true) (freeCount : p .freeCount = true) :
    Acts p s (photoCameraGone u) := by
  unfold photoCameraGone; try dsimp only
  repeat' (first | with_reducible assumption | with_reducible apply restPhoto_acts
                  | with_reducible apply cameraFault_acts | with_reducible apply cameraLost_acts | split
                  | with_reducible rfl)

theorem enterAbsent_acts (h : Acts p s u) (camera : p .camera = true) :
    Acts p s (enterAbsent u) := by
  unfold enterAbsent; try dsimp only
  repeat' (first | with_reducible assumption | with_reducible apply setCamera_acts | split | with_reducible rfl)

theorem faultIfBusy_acts (h : Acts p s u) (turntable : p .turntable = true) (staging : p .staging = true)
    (loss : p .loss = true) (pages : p .pages = true) (job : p .job = true) (photo : p .photo = true)
    (port : p .port = true) (reader : p .reader = true) (notices : p .notices = true) (out : p .out = true)
    (freeCount : p .freeCount = true) :
    Acts p s (faultIfBusy u) := by
  unfold faultIfBusy; try dsimp only
  repeat' (first | with_reducible assumption | with_reducible apply advancePages_acts
                  | with_reducible apply cameraFault_acts | split | with_reducible rfl)

theorem presenceDrops_acts (h : Acts p s u) (turntable : p .turntable = true) (staging : p .staging = true)
    (loss : p .loss = true) (pages : p .pages = true) (job : p .job = true) (camera : p .camera = true)
    (photo : p .photo = true) (port : p .port = true) (reader : p .reader = true) (notices : p .notices = true)
    (out : p .out = true) (freeCount : p .freeCount = true) :
    Acts p s (presenceDrops u) := by
  unfold presenceDrops; try dsimp only
  repeat' (first | with_reducible assumption | with_reducible apply advancePages_acts
                  | with_reducible apply presenceLevel_acts | with_reducible apply photoCameraGone_acts
                  | with_reducible apply enterAbsent_acts | with_reducible apply faultIfBusy_acts | split
                  | with_reducible rfl)

theorem presenceTimeOver_acts (h : Acts p s u) (camera : p .camera = true) :
    Acts p s (presenceTimeOver u) := by
  unfold presenceTimeOver; try dsimp only
  repeat' (first | with_reducible assumption | with_reducible apply enterAbsent_acts | split | with_reducible rfl)

theorem errorInPresent_acts (h : Acts p s u) (turntable : p .turntable = true) (pages : p .pages = true)
    (job : p .job = true) (camera : p .camera = true) (photo : p .photo = true) (port : p .port = true)
    (reader : p .reader = true) (notices : p .notices = true) (out : p .out = true)
    (freeCount : p .freeCount = true) :
    Acts p s (errorInPresent u) := by
  unfold errorInPresent; try dsimp only
  repeat' (first | with_reducible assumption | with_reducible apply enterCheck_acts
                  | with_reducible apply cameraFault_acts | with_reducible apply photoCameraGone_acts
                  | with_reducible apply setCamera_acts | split | with_reducible rfl)

theorem errorRises_acts (h : Acts p s u) (turntable : p .turntable = true) (staging : p .staging = true)
    (loss : p .loss = true) (pages : p .pages = true) (job : p .job = true) (camera : p .camera = true)
    (photo : p .photo = true) (port : p .port = true) (reader : p .reader = true) (notices : p .notices = true)
    (out : p .out = true) (freeCount : p .freeCount = true) :
    Acts p s (errorRises u) := by
  unfold errorRises; try dsimp only
  repeat' (first | with_reducible assumption | with_reducible apply advancePages_acts
                  | with_reducible apply faultIfBusy_acts | with_reducible apply errorInPresent_acts
                  | with_reducible apply setCamera_acts | split | with_reducible rfl)

theorem errorDrops_acts (h : Acts p s u) (camera : p .camera = true) :
    Acts p s (errorDrops u) := by
  unfold errorDrops; try dsimp only
  repeat' (first | with_reducible assumption | with_reducible apply setCamera_acts | split | with_reducible rfl)

theorem checkPassed_acts (h : Acts p s u) (camera : p .camera = true) (photo : p .photo = true)
    (notices : p .notices = true) :
    Acts p s (checkPassed u) := by
  unfold checkPassed; try dsimp only
  repeat' (first | with_reducible assumption | with_reducible apply raise_acts | with_reducible apply restPhoto_acts
                  | with_reducible apply setCamera_acts | split | with_reducible rfl)

theorem checkTimeOver_acts (h : Acts p s u) (camera : p .camera = true) (photo : p .photo = true)
    (notices : p .notices = true) :
    Acts p s (checkTimeOver u) := by
  unfold checkTimeOver; try dsimp only
  repeat' (first | with_reducible assumption | with_reducible apply checkPassed_acts | split | with_reducible rfl)

end Sys2Proof.Machine
end

