-- ==== Sys2Proof/Laws/Bytes.lean ====
section
/-! SUPPORT. Fields of bytes: what a value written low byte first reads back as, and how a field is found in bytes that are
joined. -/

namespace Sys2Proof.Machine

@[simp] theorem leBytes_length (n v : Nat) : (leBytes n v).length = n := by
  induction n generalizing v with
  | zero => rfl
  | succ n ih => simp [leBytes, ih]

@[simp] theorem zeros_length (n : Nat) : (zeros n).length = n := by simp [zeros]

theorem fromLe_leBytes (n v : Nat) : fromLe (leBytes n v) = v % 2 ^ (8 * n) := by
  induction n generalizing v with
  | zero => simp [leBytes, fromLe, Nat.mod_one]
  | succ n ih =>
    have split : 2 ^ (8 * n + 8) = 256 * 2 ^ (8 * n) := (Nat.pow_add 2 (8 * n) 8).trans (Nat.mul_comm _ _)
    simp only [leBytes, fromLe, ih, BitVec.toNat_ofNat]
    show _ = v % 2 ^ (8 * n + 8)
    rw [split]
    exact Nat.mod_mul.symm

/-- A field at the start of joined bytes is the value of the first part. -/
theorem field_first (a b : List Byte) (n : Nat) (h : a.length = n) : field (a ++ b) 0 n = fromLe a := by
  unfold field; subst h; simp

/-- A field past the first part of joined bytes is found in the rest. -/
theorem field_past (a b : List Byte) (o n k : Nat) (h : a.length = k) (ho : k ≤ o) :
    field (a ++ b) o n = field b (o - k) n := by
  unfold field; rw [List.drop_append]; subst h; rw [List.drop_of_length_le ho]; rfl

end Sys2Proof.Machine
end

