-- ==== Sys2Proof/Laws/Descriptor.lean ====
section
/-! SUPPORT. The field write of a page's descriptor: the bytes it carries, field by field. -/

namespace Sys2Proof.Machine

theorem leOption_length (n : Nat) (v : Option Nat) : (leOption n v).length = n := by
  cases v <;> simp [leOption]

/-- A field that may be none reads back as it is stored. -/
theorem fromLe_leOption (n : Nat) (v : Option Nat) (h : n = 4 ∨ n = 8) : fromLe (leOption n v) = storedAs n v := by
  cases v with
  | none => rcases h with rfl | rfl <;> decide
  | some x => exact fromLe_leBytes n x

/-- The 32 bytes of a field write: fill, sequence and seal reason, then first line and first shot, 0 between them. -/
theorem pageFields_data (p : Page) :
    (pageFields p).toWrite.data =
      [0, 0, 0, 0] ++ (leBytes 4 p.fill ++ (leBytes 4 p.sequence ++ (leBytes 1 (sealCode p.sealing) ++ ([0, 0, 0] ++
        (leOption 4 p.firstLine ++ ([0, 0, 0, 0] ++ leOption 8 p.firstShot)))))) := by
  unfold pageFields
  cases p.firstLine <;> cases p.firstShot <;>
    simp [Fields.toWrite, Fields.data, Fields.low, Fields.high, ceilDiv, leOption, List.range_succ, Fields.byteAt, leBytes] <;>
    rfl

theorem pageFields_mask (p : Page) :
    (pageFields p).toWrite.mask =
      List.replicate 4 false ++ List.replicate 9 true ++ List.replicate 3 false ++ List.replicate 4 true ++
        List.replicate 4 false ++ List.replicate 8 true := by
  unfold pageFields
  cases p.firstLine <;> cases p.firstShot <;>
    simp [Fields.toWrite, Fields.mask, Fields.low, Fields.high, ceilDiv, leOption, List.range_succ, Fields.byteAt, leBytes] <;>
    rfl

theorem pageFields_offset (p : Page) : (pageFields p).toWrite.offset = 0x18 := by
  simp [Fields.toWrite, Fields.low, pageFields]

/-- The transfer that a take or a seal asks for carries the page's fields (R91, R98, R196). -/
theorem fieldWrite_of_pageFields (purpose : Purpose) (p : Page) (descriptor : Nat) :
    FieldWrite purpose p (sealCode p.sealing) descriptor
      (maskedTransfer .descriptor purpose (descriptor + (pageFields p).toWrite.offset) (pageFields p).toWrite.data
        (pageFields p).toWrite.mask) := by
  have len : (pageFields p).toWrite.data.length = 32 := by
    rw [pageFields_data]; simp [leOption_length]
  refine ⟨⟨rfl, rfl, rfl, rfl⟩, ⟨by rw [pageFields_offset]; rfl, len, len⟩, ?_, ?_, ?_, ?_, ?_, pageFields_mask p⟩ <;>
    show field (pageFields p).toWrite.data _ _ = _ <;> rw [pageFields_data, field_past _ _ _ _ 4 rfl (by decide)]
  · rw [field_first _ _ _ (leBytes_length ..), fromLe_leBytes]
  · rw [field_past _ _ _ _ _ (leBytes_length ..) (by decide), field_first _ _ _ (leBytes_length ..), fromLe_leBytes]
  · rw [field_past _ _ _ _ _ (leBytes_length ..) (by decide), field_past _ _ _ _ _ (leBytes_length ..) (by decide),
      field_first _ _ _ (leBytes_length ..), fromLe_leBytes]
    rcases p.sealing with _ | r
    · rfl
    · cases r <;> rfl
  · rw [field_past _ _ _ _ _ (leBytes_length ..) (by decide), field_past _ _ _ _ _ (leBytes_length ..) (by decide),
      field_past _ _ _ _ _ (leBytes_length ..) (by decide), field_past _ _ _ _ 3 rfl (by decide),
      field_first _ _ _ (leOption_length ..), fromLe_leOption _ _ (Or.inl rfl)]
  · rw [field_past _ _ _ _ _ (leBytes_length ..) (by decide), field_past _ _ _ _ _ (leBytes_length ..) (by decide),
      field_past _ _ _ _ _ (leBytes_length ..) (by decide), field_past _ _ _ _ 3 rfl (by decide),
      field_past _ _ _ _ _ (leOption_length ..) (by decide), field_past _ _ _ _ 4 rfl (by decide)]
    unfold field
    rw [← fromLe_leOption _ _ (Or.inr rfl), List.take_of_length_le (by simp [leOption_length])]; rfl

end Sys2Proof.Machine
end

