-- ==== Sys2Proof/Laws/MirrorLost.lean ====
section
/-! SUPPORT. A scan that a failure has reached in SCANNING takes no index: it has its stop, or has left SCANNING. -/

namespace Sys2Proof.Machine

variable {j : ScanJob} {s t : State}

/-- The values of a scan that takes no index: it has its stop, or has left SCANNING for ENDING. -/
def ScanJob.NoIndex (j : ScanJob) : Prop := j.phase ≠ .runIn ∧ (j.phase = .scanning → j.stop ≠ none)

/-- No scan that runs takes an index. -/
def NoIndex (s : State) : Prop := ∀ j, s.job = some (.scan j) → j.NoIndex

theorem NoIndex.indexAtScan (h : NoIndex s) : indexAtScan s = s := by
  unfold Machine.indexAtScan State.scanJob
  split
  · rfl
  · rename_i x e
    split at e
    · rename_i y k
      cases e
      obtain ⟨a, b⟩ := h x k
      rw [if_neg, if_neg]
      · rintro ⟨p, -⟩; exact a p
      · unfold lineMayOpen; intro m
        simp only [Bool.and_eq_true, decide_eq_true_eq, Option.isNone_iff_eq_none] at m
        exact b m.1.1.1 m.1.1.2
    · cases e

theorem NoIndex.ofJob (h : NoIndex s) (e : t.job = s.job) : NoIndex t := by
  unfold NoIndex; rw [e]; exact h

theorem NoIndex.put (h : j.NoIndex) (s : State) : NoIndex (putScan j s) := by
  intro x e
  cases e; exact h

theorem NoIndex.ofNone (e : s.job = none) : NoIndex s := by
  intro x k; rw [e] at k; cases k

theorem endScan_noIndex (j : ScanJob) (s : State) : NoIndex (endScan j s) := .ofNone (endScan_ends j s).ends.job

theorem beginDrain_noIndex (h : j.phase = .ending) (s : State) : NoIndex (beginDrain j s) := by
  have n : ∀ w, NoIndex (putScan { j with endWait := w } s) := fun w =>
    .put ⟨by show j.phase ≠ _; rw [h]; decide, fun q => by rw [show _ = _ from h] at q; cases q⟩ s
  unfold beginDrain
  split
  · exact endScan_noIndex _ _
  · split
    · exact endScan_noIndex _ _
    · split
      · exact (n .mark).ofJob rfl
      · exact (n .drain).ofJob rfl

theorem enterEnding_noIndex (j : ScanJob) (s : State) : NoIndex (enterEnding j s) := by
  unfold enterEnding
  dsimp only
  split
  · exact .put ⟨by simp, by simp⟩ _
  · exact beginDrain_noIndex rfl _

theorem scanLineClosed_noIndex (r : LineReport) (h : NoIndex s) : NoIndex (scanLineClosed r s) := by
  unfold scanLineClosed
  split
  · rename_i x e
    dsimp only
    split
    · exact enterEnding_noIndex _ _
    · exact (NoIndex.put (j := x.lineClosed r) (h x e) s).ofJob (pushProgress_onlyIn _ _ .job rfl)
  · exact h

theorem closeCheck_noIndex (h : NoIndex s) : NoIndex (closeCheck s) := by
  unfold closeCheck
  split
  · split
    · rename_i n r _ _ _
      unfold closeLine
      refine NoIndex.ofJob (scanLineClosed_noIndex _ (h.ofJob ?_)) rfl
      show State.job (if s.line.lost = true then s else (offerReserve (.trailer (trailerOf n r s)) s).1) = s.job
      split
      · rfl
      · exact (offerReserve_acts (p := fields [.staging, .loss]) _ (Acts.refl _ _) rfl rfl).only .job rfl
    · exact h
  · exact h

theorem stopRequest_noIndex (r : StopReason) (h : NoIndex s) : NoIndex (stopRequest r s) := by
  have m : NoIndex (markStop r s) := by unfold markStop; split <;> exact h
  unfold stopRequest
  refine closeCheck_noIndex ?_
  unfold endFiring
  split
  · exact closeCheck_noIndex (m.ofJob rfl)
  · exact m

theorem endIfNoLine_noIndex (h : NoIndex s) : NoIndex (endIfNoLine s) := by
  unfold endIfNoLine
  split
  · split
    · exact enterEnding_noIndex _ _
    · exact h
  · exact h

/-- What a failure with a stop reason leaves of a scan in SCANNING takes no index. -/
theorem failScanning_noIndex (c : ResultCode) (r : StopReason) (h : j.phase = .scanning) (s : State) :
    NoIndex (failScanning c r j s) := by
  have n : j.phase ≠ .runIn := by rw [h]; decide
  unfold failScanning
  dsimp only
  split
  · rename_i x e
    exact .put (j := { j with cause := firstCause j.cause c }) ⟨n, fun _ => by show j.stop ≠ none; rw [e]; simp⟩ s
  · exact endIfNoLine_noIndex (stopRequest_noIndex r
      (.put (j := { j with cause := firstCause j.cause c, stop := some r }) ⟨n, fun _ => by simp⟩ s))

end Sys2Proof.Machine
end

