-- ==== Sys2Proof/Laws/Outcomes.lean ====
section
/-! SUPPORT. The completion of a requester's oldest transfer, and the dispatch of a job by it, each as one equation: with
no transfer behind it answered, the completion reports exactly the one. -/

namespace Sys2Proof.Machine

theorem observe_onlyIn (m : Moment) (s : State) : OnlyIn (fields [.time, .angle, .azimuth, .rest, .issueSlot, .rstin, .out]) s (observe m s) := by
  intro f hf; cases f <;> first | rfl | cases hf

theorem outOf_setOut (x : Port) (r q : Requester) (l : List Outstanding) :
    (x.setOut r l).outOf q = if q = r then l else x.outOf q := by
  cases r <;> cases q <;> rfl

theorem setOut_setOut (x : Port) (r : Requester) (l l' : List Outstanding) :
    (x.setOut r l).setOut r l' = x.setOut r l' := by
  cases r <;> rfl

theorem reportOutcome_answers (t : Transfer) (a : Answer) (s : State) (r : Requester) :
    ((reportOutcome t a s).port.outOf r).map Outstanding.mark = (s.port.outOf r).map Outstanding.mark :=
  Acts.answers (p := fun _ => true)
    (by with_reducible apply reportOutcome_acts <;> first | exact Acts.refl _ _ | rfl) r

/-- Nothing is reported at a requester whose oldest transfer has no answer. -/
theorem reportAnswered_stops (r : Requester) (n : Nat) (s : State)
    (h : ∀ o rest, s.port.outOf r = o :: rest → o.answer = .awaited) : reportAnswered r n s = s := by
  cases n with
  | zero => rfl
  | succ n =>
    unfold reportAnswered
    split
    · rfl
    · rename_i o rest ho
      rw [h o rest ho]

/-- The completion of the oldest transfer of a requester. -/
theorem completeOldest_eq (id : Nat) (m : Moment) (s : State) (t : Transfer) (rest : List Outstanding)
    (h : OldestAwaits id s t rest) (which : Purpose → Bool) (hw : which t.purpose = true) (data : List Byte) :
    completeOldest t.requester id which data (observe m s) =
      advancePages (requesterDrained t.requester (completed t.purpose t.len data (reported m t rest s))) := by
  obtain ⟨⟨till, ho⟩, hl, hr⟩ := h
  have ho' : (observe m s).port.outOf t.requester = ⟨id, t, till, .awaited⟩ :: rest := ho
  unfold completeOldest Port.awaitsAt
  rw [ho']
  simp only [List.getElem?_cons_zero, if_true, hw, and_self]
  unfold settle
  have port : ∀ x : State, (landed t x).port = x.port := by intro x; unfold landed; split <;> rfl
  have swap : ∀ (x : State) (p : Port), (landed t x).setPort p = landed t (x.setPort p) := by
    intro x p; unfold landed; split <;> rfl
  have held : (landed t ((observe m s).setPort ((observe m s).port.answerAt t.requester 0 (.held data)))).port.outOf
      t.requester = ⟨id, t, none, .held data⟩ :: rest := by
    rw [port]
    show ((observe m s).port.answerAt t.requester 0 (.held data)).outOf t.requester = _
    unfold Port.answerAt; rw [outOf_setOut, if_pos rfl, ho']; rfl
  rw [held, List.length_cons]
  congr 1
  unfold reportAnswered
  rw [held]
  dsimp only
  have gone : (landed t ((observe m s).setPort ((observe m s).port.answerAt t.requester 0 (.held data)))).setPort
      ((landed t ((observe m s).setPort ((observe m s).port.answerAt t.requester 0 (.held data)))).port.setOut
        t.requester rest) = reported m t rest s := by
    rw [port, swap]
    unfold Port.answerAt reported
    show landed t ((observe m s).setPort (((observe m s).port.setOut _ _).setOut _ _)) = _
    rw [setOut_setOut]; rfl
  rw [gone]
  have told : reportOutcome t (.held data) (reported m t rest s) =
      requesterDrained t.requester (completed t.purpose t.len data (reported m t rest s)) := by
    unfold reportOutcome; dsimp only; rw [if_pos hl]
  rw [told]
  apply reportAnswered_stops
  intro o more e
  have answers := reportOutcome_answers t (.held data) (reported m t rest s) t.requester
  rw [told, e] at answers
  have out : (reported m t rest s).port.outOf t.requester = rest := by
    unfold reported
    rw [port]
    show (s.port.setOut t.requester rest).outOf t.requester = rest
    rw [outOf_setOut, if_pos rfl]
  rw [out] at answers
  cases rest with
  | nil => cases answers
  | cons x xs =>
    have same : o.mark = x.mark := (List.cons.inj answers).1
    have : o.answer = x.answer := congrArg Prod.snd same
    rw [this]; exact hr x (List.mem_cons_self ..)

theorem completeOldest_chain (id : Nat) (m : Moment) (s : State) (t : Transfer) (rest : List Outstanding)
    (h : OldestAwaits id s t rest)
    (hq : t.requester = .chain) (which : Purpose → Bool) (hw : which t.purpose = true) (data : List Byte) :
    completeOldest .chain id which data (observe m s) =
      advancePages (completed t.purpose t.len data (reported m t rest s)) := by
  have := completeOldest_eq id m s t rest h which hw data
  rw [hq] at this; exact this

theorem completeOldest_descriptor (id : Nat) (m : Moment) (s : State) (t : Transfer) (rest : List Outstanding)
    (h : OldestAwaits id s t rest) (hq : t.requester = .descriptor) (which : Purpose → Bool) (hw : which t.purpose = true)
    (data : List Byte) :
    completeOldest .descriptor id which data (observe m s) =
      advancePages (completed t.purpose t.len data (reported m t rest s)) := by
  have := completeOldest_eq id m s t rest h which hw data
  rw [hq] at this; exact this

theorem completeOldest_record (id : Nat) (m : Moment) (s : State) (t : Transfer) (rest : List Outstanding)
    (h : OldestAwaits id s t rest)
    (hq : t.requester = .record) (which : Purpose → Bool) (hw : which t.purpose = true) (data : List Byte) :
    completeOldest .record id which data (observe m s) =
      advancePages (endAbandon (completed t.purpose t.len data (reported m t rest s))) := by
  have := completeOldest_eq id m s t rest h which hw data
  rw [hq] at this; exact this

theorem completeOldest_photo (id : Nat) (m : Moment) (s : State) (t : Transfer) (rest : List Outstanding)
    (h : OldestAwaits id s t rest)
    (hq : t.requester = .photo) (which : Purpose → Bool) (hw : which t.purpose = true) (data : List Byte) :
    completeOldest .photo id which data (observe m s) =
      advancePages (photoDrained (completed t.purpose t.len data (reported m t rest s))) := by
  have := completeOldest_eq id m s t rest h which hw data
  rw [hq] at this; exact this

/-- A job's dispatch event: the job of the block is taken in the dispatched state. -/
theorem dispatchEvent_eq (id : Nat) (m : Moment) (s : State) (k : JobKind) (t : Transfer) (rest : List Outstanding)
    (h : AwaitsDispatch id s k t rest) :
    dispatchEvent k id (observe m s) = advancePages (takeJob (dispatched m t rest s) k) := by
  obtain ⟨noJob, _, kind, chain, taken, awaits⟩ := h
  unfold dispatchEvent
  rw [completeOldest_chain id m s t rest awaits chain _ (by
    have : (observe m s).blockJob = some k := kind
    rw [this, taken]; simp)]
  rw [taken]
  unfold completed dispatchJob
  have e1 : (reported m t rest s).job = none := by unfold reported landed; split <;> exact noJob
  have e2 : (reported m t rest s).blockJob = some k := by unfold reported landed; split <;> exact kind
  have e3 : (reported m t rest s).jobSerial = s.jobSerial := by unfold reported landed; split <;> rfl
  have e4 : (reported m t rest s).reader = s.reader := by unfold reported landed; split <;> rfl
  simp only [e1, e2, e3, e4]
  rfl

theorem reported_onlyIn (m : Moment) (t : Transfer) (rest : List Outstanding) (s : State) :
    OnlyIn (fields [.port, .out]) (observe m s) (reported m t rest s) := by
  unfold reported landed
  split <;> (intro f hf; cases f <;> first | rfl | cases hf)

end Sys2Proof.Machine
end

