-- ==== Sys2Proof/Tests/Slice0.lean ====
section
/-! SUPPORT. The model's own tests: ill-formed commands are refused by the well-formedness check; single steps on small
states, many of them from the spec's worked examples; and for every statement with hypotheses, states and operands that
meet them, clause by clause (`test_hyps_<statement>`). -/

namespace Sys2Proof.Tests

set_option Elab.async false

open Sys2Proof.Machine

/-! ## Helpers -/

/-- A moment: time, encoder steps since the command before, azimuth; RSTIN deasserted, transfer 0 answered. -/
def moment (time steps azimuth : Nat) : Moment := ⟨BitVec.ofNat 64 time, steps, BitVec.ofNat 22 azimuth, false, 0⟩

/-- The moment of a time, the encoders at 0. -/
def time (t : Nat) : Moment := moment t 0 0

/-- The state after a command. -/
def after (c : Instr) (s : State) : State :=
  match exec c s with
  | .next t => t
  | .fault _ => s
  | .refused _ => s

/-- A block's bytes with some fields. -/
def bytesOf (n : Nat) (fs : Fields) : List Byte := (List.range n).map (fun i => (Fields.byteAt fs i).getD 0)

/-- A transfer of a requester, with nothing in it but what it is for. -/
def transferOf (r : Requester) (p : Purpose) (write : Bool) (addr len : Nat) : Transfer :=
  ⟨r, p, write, BitVec.ofNat 48 addr, len, [], [], true⟩

/-- A state in which a transfer, number 0, is its requester's one outstanding transfer. -/
def waitingFor (t : Transfer) (s : State) : State :=
  { s with port := s.port.setOut t.requester [⟨0, t, some 3200000, .awaited⟩] }

theorem waitingFor_awaits (t : Transfer) (s : State) (h : t.live = true) : OldestAwaits 0 (waitingFor t s) t [] := by
  refine ⟨⟨some 3200000, ?_⟩, h, fun o ho => by cases ho⟩
  unfold waitingFor
  cases t.requester <;> rfl

/-- The TAKEN write of the block at 40000h. -/
def takenWrite : Transfer :=
  ⟨.chain, .takenWrite, true, 0x40000, 8, [2, 0, 0, 0, 0, 0, 0, 0], [true, false, false, false, false, false, false, false],
    true⟩

/-- A state in which a block of a kind, with its fields, has been taken and its TAKEN write is outstanding. -/
def dispatching (kind : Nat) (fs : Fields) (s : State) : State :=
  waitingFor takenWrite { s with
    reader := { s.reader with
      state := .running, cursor := some 0x40000, taken := some 0x40000, activity := .taking,
      block := bytesOf 512 ((0x10, leBytes 1 kind) :: fs) } }

theorem dispatching_awaits (k : JobKind) (kind : Nat) (fs : Fields) (s : State) (hj : s.job = none)
    (hb : s.reader.writeBackLost = false) (hk : (dispatching kind fs s).blockJob = some k) :
    AwaitsDispatch 0 (dispatching kind fs s) k takenWrite [] :=
  ⟨hj, hb, hk, rfl, rfl, waitingFor_awaits _ _ rfl⟩

/-- The profile of the example in section 2.8. -/
def profile28 : Profile :=
  ⟨32000, 768000, 6400, 256, 172, 0, 93685, 1000, 2, 4000000, 200000, 200, 0,
   [0, 5120, 10240, 2560, 12800, 7680, 15360, 1280, 8960, 3840, 14080, 6400, 11520, 640, 13440, 4480],
   List.replicate 32 0⟩

/-- The SCAN parameters of the example in section 6.9. -/
def params69 : ScanParams := ⟨1, 2, 1, false, [], 0, 1000000, 2500, 3, 700000, 1400000⟩

/-- The job of that example in SCANNING. -/
def scan69 : ScanJob := { newScan params69 with phase := .scanning }

/-- Power-on with slot 1 loaded, the mirror LOCKED at 120 rev/s and the Emission Permit indication asserted. -/
def ready : State :=
  { State.reset with
    slots := { State.reset.slots with slot1 := some profile28.load }
    mirror := ⟨.locked, 12000, 12000, some 0, 16, none, some 0, 64000000000⟩
    emission := ⟨true, true, none⟩ }

/-- That state with a job running, the first. -/
def running (j : Job) : State := { ready with job := some j, jobSerial := 1 }

/-- The example's scan in SCANNING, between lines. -/
def scanning : State :=
  { running (.scan scan69) with
    sector := ⟨some (700000, 1400000), false⟩
    turntable := ⟨.tracking, none, 200, 30000000, none, none, 0, some 1, false⟩
    reader := { State.reset.reader with state := .running, cursor := some 0x40000, taken := some 0x40000, activity := .job } }

/-- Its line 0 open and WAITING. -/
def waiting : State :=
  { scanning with
    line := { LineState.fresh with phase := .assembling, started := 1, number := some 0 }
    sched := { State.reset.sched with firing := .waiting } }

/-- Its line 0 FIRING, shot 0 scheduled. -/
def firing : State :=
  { waiting with
    sector := ⟨some (700000, 1400000), true⟩
    sched := { State.reset.sched with firing := .firing, permit := true, scheduled := some 640000000 } }

/-- A shot in flight. -/
def shotOf (number : Nat) (kind : ShotKind) (fire expiry line : Nat) : OpenShot :=
  ⟨number, kind, fire, expiry, 0, 0, line, [], false, false, none⟩

/-- An echo. -/
def echoAt (stamp : Nat) : Echo := ⟨stamp, 4100, 100, false, false⟩

/-- FIRING with shot 3 in flight, fired at 1,000,000. -/
def inFlight : State := { firing with shots := [shotOf 3 .target 1000000 1896000 0] }

/-- A page record. -/
def page0 : Page := ⟨0, false, false, 0, 0x200000, 65536, 1, 0, 0, none, none, false, false, none, .ready⟩

/-- A state with a page table and a current page. -/
def paged (p : Page) (s : State) : State :=
  { s with pages := { s.pages with table := some (0x100000, 4), sequence := 1, current := some p } }

/-- A state with records queued, oldest first, none issued. -/
def queued (rs : List Rec) (s : State) : State :=
  { s with staging := rs.foldl (fun q r => q.append s.jobSerial r) s.staging }

/-- A station of an image of 2,048 rows. -/
def station0 : Station := ⟨0x1000000, 18874432, 1010000, 1000, 0⟩

/-- The example of section 3.10: its profile, offset, shots 500 to 506 and tracker before echo 1. -/
def profile310 : Profile :=
  ⟨40000, 112000, 6400, 256, 172, 0, 93685, 1000, 2, 0, 0, 200, 0, List.replicate 16 0, List.replicate 32 0⟩

/-- That example with the shots fired by a time (times counted from 1,000,000 before shot 500) and a tracker. -/
def zones (fires : List (Nat × Nat)) (tracker : Tracker) : State :=
  { waiting with
    job := some (.scan { scan69 with params := { params69 with slot := 2 } })
    slots := { State.reset.slots with slot2 := some ⟨profile310, 6, 1000⟩ }
    shots := fires.map (fun f => shotOf f.1 .target (1000000 + f.2) (1240000 + f.2) 0)
    tracker := tracker }

/-- A target event of that example: band 2, not saturated. -/
def zoneEcho (stamp : Nat) : Instr :=
  .echoEvent (time (1000000 + stamp)) .target (BitVec.ofNat 64 (1000000 + stamp)) 4100 100 false

/-! ## Well-formedness -/

theorem test_notice_past_its_register : (Instr.notice (time 0) 7 2).wellFormed = false := by decide
theorem test_notice_of_no_byte : (Instr.notice (time 0) 0 0).wellFormed = false := by decide
theorem test_write_past_the_window : (Instr.registerWrite (time 0) 64 8 0).wellFormed = false := by decide
theorem test_write_across_registers : (Instr.registerWrite (time 0) 4 8 0).wellFormed = false := by decide
theorem test_profile_read_short : (Instr.profileReadComplete (time 0) [0]).wellFormed = false := by decide
theorem test_descriptor_read_short : (Instr.descriptorReadComplete (time 0) [0]).wellFormed = false := by decide
theorem test_examination_read_short : (Instr.examinationReadComplete (time 0) [0]).wellFormed = false := by decide
theorem test_link_read_short : (Instr.linkReadComplete (time 0) [0]).wellFormed = false := by decide
theorem test_row_short : (Instr.row (time 0) [0]).wellFormed = false := by decide
theorem test_held_answer_too_long :
    (Instr.heldAnswer (time 0) .chain 1 (zeros 257)).wellFormed = false := by decide +kernel
theorem test_well_formed :
    (Instr.notice (time 0) 0 8).wellFormed = true ∧ (Instr.registerWrite (time 0) 0x18 8 1).wellFormed = true ∧
    (Instr.linkReadComplete (time 0) (zeros 8)).wellFormed = true ∧
    (Instr.heldAnswer (time 0) .chain 9 []).wellFormed = true ∧
    (Instr.echoEvent (time 99) .target 100 0 0 false).wellFormed = true := by decide +kernel

/-- R65: an event of before a reset, stamped later than the counter, is counted outside a scan and compared with nothing. -/
theorem test_echo_of_before_a_reset :
    (after (.echoEvent (time 99) .target 100 0 0 false) ready).counters.outside = ready.counters.outside + 1 ∧
    (after (.echoEvent (time 99) .target 100 0 0 false) ready).intake = ready.intake := by decide +kernel

/-- No word spells a command (log 11). -/
theorem test_no_word_spells_a_command : decodeTableWord 32 0 = none ∧ decodeTableWord 8 255 = none := by decide

/-! ## Single steps: the spec's worked examples -/

/-- Section 1.7: SPIN 15,000 with wait-for-lock, LOCKED at 12,000. -/
theorem test_spin_while_locked :
    (after (.spin (time 64)) (dispatching 2 [(0x20, leBytes 2 15000), (0x22, [1])] ready)).mirror =
      ⟨.unlocked, 15000, 12000, some 0, 0, some (64 + 1920000000000), none, 64000000000⟩ ∧
    (after (.spin (time 64)) (dispatching 2 [(0x20, leBytes 2 15000), (0x22, [1])] ready)).job = some .spinWait := by
  decide +kernel

/-- Section 1.7: the lock band at 15,000 takes in 14,930 and 15,060 and not 14,900; 6.4e12 over the rate is the period. -/
theorem test_lock_band :
    inLockBand 15000 428667113 = true ∧ inLockBand 15000 424966799 = true ∧ inLockBand 15000 429530201 = false := by
  decide

/-- Section 2.8: the permit rises at the sector start, and shot 0 is scheduled for that moment. -/
theorem test_sector_entry :
    (after (.sectorEntry (moment 640000000 700000 0)) waiting).sched.scheduled = some 640000000 ∧
    (after (.sectorEntry (moment 640000000 700000 0)) waiting).sched.permit = true := by decide +kernel

/-- Section 2.8: shot 0 is a REFERENCE shot with expiry 640,160,000, and shot 1 follows at 640,037,120. -/
theorem test_shot_zero :
    (after (.fireTime (moment 640000000 700000 5)) firing).shots =
      [⟨0, .reference, 640000000, 640160000, 700000, 5, 0, [], false, false, none⟩] ∧
    (after (.fireTime (moment 640000000 700000 5)) firing).sched.scheduled = some 640037120 ∧
    (after (.fireTime (moment 640000000 700000 5)) firing).out = [.laserTrig .reference] := by decide +kernel

/-- Section 2.8: shot 5, the 39,680 after it that its jitter entry selects being its own. -/
theorem test_shot_five :
    (after (.fireTime (moment 640198400 701300 0)) { firing with sched := { firing.sched with
      nextShot := 5, jitterIndex := 5, lastFire := some 640158720, scheduled := some 640198400 } }).shots =
      [⟨5, .target, 640198400, 641094400, 701300, 0, 0, [], false, false, none⟩] ∧
    profile28.spacing 5 = 39680 := by decide +kernel

/-- Section 2.9: the permit falls with the indication; the firing ends with cause PERMIT. -/
theorem test_line_cut_short :
    (after (.emitPermitDeasserted (time 1000000)) { inFlight with sched := { inFlight.sched with
      nextShot := 4, scheduled := some 1040000 } }).sched.firing = .ended ∧
    (after (.emitPermitDeasserted (time 1000000)) { inFlight with sched := { inFlight.sched with
      nextShot := 4, scheduled := some 1040000 } }).line.report.map (·.cause) = some .permit := by decide +kernel

/-- Section 3.10, echo 1: zone 1, shot 500, its first echo. -/
theorem test_echo_one :
    (after (zoneEcho 95000) (zones [(500, 0), (501, 40000)] ⟨1, none, 0, some 880452⟩)).tracker = ⟨1, none, 0, some 880639⟩ ∧
    (after (zoneEcho 95000) (zones [(500, 0), (501, 40000)] ⟨1, none, 0, some 880452⟩)).shots.map (·.attachZone) =
      [some 1, none] := by decide +kernel

/-- Section 3.10, echo 4: zone 2 favoured once, the echo uncertain on shot 503. -/
theorem test_echo_four :
    (after (zoneEcho 191040) (zones [(501, 40000), (502, 96000), (503, 136000), (504, 176000)] ⟨1, none, 0, some 880826⟩)).tracker =
      ⟨1, some 2, 1, some 880826⟩ ∧
    (after (zoneEcho 191040) (zones [(501, 40000), (502, 96000), (503, 136000), (504, 176000)] ⟨1, none, 0, some 880826⟩)).shots.map
      (fun o => o.echoes.map (·.uncertain)) = [[], [], [true], []] := by decide +kernel

/-- Section 3.10, echo 5: the switch to zone 2, shot 503 marked. -/
theorem test_echo_five :
    (after (zoneEcho 231060) (zones [(502, 96000), (503, 136000), (504, 176000), (505, 216000)] ⟨1, some 2, 1, some 880826⟩)).tracker.zone = 2 ∧
    (after (zoneEcho 231060) (zones [(502, 96000), (503, 136000), (504, 176000), (505, 216000)] ⟨1, some 2, 1, some 880826⟩)).shots.map
      (·.zoneSwitch) = [false, true, false, false] := by decide +kernel

/-- Section 3.10: the ranges of the example, rounded to nearest. -/
theorem test_ranges :
    (Slot.mk profile310 6 1000).range 95090 4100 = 881482 ∧ (Slot.mk profile310 6 1000).range 55040 4100 = 506274 ∧
    (Slot.mk profile310 6 1000).range 0 4100 = 0 := by decide +kernel

/-- Section 6.9: run-in point, index count, lead, delay and entry distance. -/
theorem test_run_in_values :
    runInPointOf params69 = 983616 ∧ indexCountOf 2500 = 7 ∧ leadOf 2500 = 1116 ∧ runInDelayOf 2500 12000 = 238080000 ∧
    entryDistanceOf 2500 = 15134 := by decide +kernel

/-- Section 6.9: the checks pass, and the head is sent to the run-in point. -/
theorem test_scan_taken :
    scanRefusal params69 ready = none ∧
    (after (.scan (moment 64 0 3900000)) (dispatching 7
      [(0x20, [1, 2, 1, 0, 0]), (0x28, leBytes 4 1000000), (0x2C, leBytes 4 2500), (0x30, leBytes 4 3),
       (0x38, leBytes 4 700000), (0x3C, leBytes 4 1400000)] ready)).turntable.target = some 983616 := by decide +kernel

/-- Section 7.9: station 0 is crossed at line 4 and station 1, with the unit busy, is MISSED. -/
theorem test_stations_crossed :
    let s := { scanning with photo := { State.reset.photo with
      state := .idle, inlineBase := some ⟨1000000, 2500, 0⟩,
      stations := [⟨station0, .notReached⟩, ⟨{ station0 with azimuth := 1012000 }, .notReached⟩] } }
    (crossings 3 15 s).photo.state = .idle ∧ (crossings 4 15 s).photo.state = .exposing ∧
    (crossings 5 8 (crossings 4 15 s)).photo.stations.map (·.status) = [.notReached, .missed] := by decide +kernel

/-- Section 8.7: check 18 at a window of 1,280,000, and the bound 32 at 1,152,000. -/
theorem test_in_flight_bound :
    firstFailure ({ profile28 with base := 40000, window := 1280000 }).checks = some 18 ∧
    firstFailure ({ profile28 with base := 40000, window := 1152000 }).checks = none ∧
    ({ profile28 with base := 40000, window := 1152000 }).inFlightBound = 32 := by decide +kernel

/-- Section 8.7: an echo of 1,180 against the path constant 172 moves an offset of 998 to 1,000. -/
theorem test_reference_echo_measured : newOffset 998 (1180 - 172) = 1000 := by decide

/-- Section 9.6, decisions 1, 2, 5 and 6. -/
theorem test_grants :
    let c := transferOf .chain .blockWrite true 0x40000 8
    let d := transferOf .record .record true 0x200000 48
    let f := transferOf .photo (.row false) true 0x1000000 256
    let p : Port := { State.reset.port with control := [c], recordWait := [d], photoWait := [f] }
    (p.grant 0 24640).2 = some c ∧ ({ p with control := [] }.grant 0 24640).2 = some d ∧
    ({ p with control := [], lastData := .record }.grant 0 24512).2 = some f ∧
    ({ p with control := [] }.grant 0 24512).2 = some d := by decide +kernel

/-- Section 9.7: p1 times out in front of two held answers; all three are reported, and FAULT names p1. -/
theorem test_timeout_behind_held_answers :
    let f := fun (a : Nat) => transferOf .photo (.row false) true a 256
    let s := { ready with port := { State.reset.port with
      photoOut := [⟨7, f 0x1000040, some 3200000, .awaited⟩, ⟨8, f 0x1000140, none, .held []⟩,
        ⟨9, f 0x1000240, none, .held []⟩] } }
    (after (.transferTimeout (time 3200000) .photo 7) s).port.photoOut = [] ∧
    (after (.transferTimeout (time 3200000) .photo 7) s).port.fault = ⟨some .photo, true, true, 0x1000040⟩ ∧
    (after (.transferTimeout (time 3200000) .photo 7) s).notices.pending = 32 := by decide +kernel

/-- Section 10.8: a link of 0 puts the reader in WAIT-LINK; a poll tick reads the link again. -/
theorem test_chain_waits :
    let s := waitingFor (transferOf .chain .link false 0x40008 8) { ready with reader := { State.reset.reader with
      state := .running, cursor := some 0x40000, lastFinished := some 0x40000, activity := .link, pollMs := 20 } }
    (after (.linkReadComplete (time 64) (zeros 8)) s).reader.state = .waitLink ∧
    (after (.linkReadComplete (time 64) (zeros 8)) s).notices.pending = 8 ∧
    (after (.linkReadComplete (time 64) (leBytes 8 0x40200)) s).reader.cursor = some 0x40200 := by decide +kernel

/-- Section 11.5: a first cause begins a pulse, a second one none, and clearing the set lets the pulse run on. -/
theorem test_pulse_mode :
    let n : Notices := ⟨0, 0x88, .pulse, false, none⟩
    let s := { ready with notices := n }
    (raise .pageWait s).notices = ⟨4, 0x88, .pulse, true, some 64000⟩ ∧
    (raise .chainWait { s with notices := { n with pending := 1 } }).notices = ⟨9, 0x88, .pulse, false, none⟩ ∧
    (after (.notice (time 0) 0 8) (raise .pageWait s)).notices = ⟨0, 0x88, .pulse, true, some 64000⟩ ∧
    (after (.noticeMask (time 0) 0) { s with notices := { n with pending := 9 } }).notices.attn = false ∧
    (after (.noticeMask (time 0) 0x80) { s with notices := { n with pending := 8 } }).notices.attn = true := by
  decide +kernel

/-- Section 4.8: a SHOT record is admitted up to the point limit and discarded past it; a trailer with its GAP still fits. -/
theorem test_full_queue :
    let fill := fun (n : Nat) => { scanning with
      staging := ⟨List.replicate n ⟨0, 1, .trailer ⟨0, 0, 0, 0, 0, 0, 0, 0, 0, 0, 0, 0, .ok, .clear⟩, false⟩, 0⟩ }
    let shot : Rec := .shot ⟨0, none, 0, 0, 0, false, false, [⟨0, 0, 0, false, false⟩, ⟨0, 0, 0, false, false⟩]⟩
    (fill 507).hasRoomFor shot = true ∧ (fill 508).hasRoomFor shot = false ∧
    { fill 508 with loss := ⟨none, 0, 2, 0⟩ }.hasRoomFor (.trailer ⟨0, 0, 0, 0, 0, 0, 0, 0, 0, 0, 0, 0, .loss, .clear⟩) = true :=
  by decide +kernel

/-- Section 5.10: a record that does not fit begins the seal FULL. -/
theorem test_page_full :
    (advancePages (paged { page0 with fill := 65480, issue := 65480 } (queued [.trailer
      ⟨2040, 0, 0, 0, 0, 0, 0, 0, 0, 0, 0, 0, .ok, .clear⟩] ready))).pages.current.bind (·.sealing) = some .full := by
  decide +kernel

/-! ## Statements' hypotheses: the machine and its invariants -/

theorem test_hyps_StepTakesFrontCommand :
    ({ ready with pending := [.look (time 0)] } : State).pending = [.look (time 0)] := rfl

theorem test_hyps_EmptyQueueIdles :
    ready.pending = [] ∧ ready.time ≠ BitVec.allOnes 64 ∧
    ({ ready with time := BitVec.allOnes 64 } : State).time = BitVec.allOnes 64 := by decide

theorem test_hyps_CommandsAnswerNext :
    (∀ m, Instr.mirrorIndexMark (time 0) ≠ .powerOnReset m ∧ Instr.mirrorIndexMark (time 0) ≠ .reset m) ∧
    (∀ m o n v, Instr.mirrorIndexMark (time 0) ≠ .registerWrite m o n v) ∧
    (∃ m, Instr.mirrorIndexMark (time 0) = .mirrorIndexMark m) ∧ (∀ m, Instr.look (time 0) ≠ .mirrorIndexMark m) :=
  ⟨fun _ => ⟨nofun, nofun⟩, fun _ _ _ _ => nofun, ⟨_, rfl⟩, fun _ => nofun⟩

theorem test_hyps_PageManagerActsLast :
    ready.waitsOnPages = false ∧ ready.staging.entries = [] ∧ ready.pages.current = none ∧ ready.pages.mark = none ∧
    ready.pages.drain = none ∧ (queued [.gap .zero] (paged page0 ready)).waitsOnPages = false := by decide +kernel

/-- A state that meets every invariant with the permit up, before its fire time. -/
def beforeFire : State := { firing with pending := [.fireTime (moment 640000000 700000 0)] }

theorem test_hyps_BoundsKept : Bounded beforeFire ∧ ∃ t, step beforeFire = .next t :=
  ⟨⟨by decide, by decide, by intro r; cases r <;> decide, by decide, by decide, ⟨by decide, by decide⟩,
    by intro r; cases r <;> decide⟩, _, rfl⟩

theorem test_hyps_AttentionFollowsModeKept : AttentionSound beforeFire ∧ ∃ t, step beforeFire = .next t :=
  ⟨⟨by decide, rfl⟩, _, rfl⟩

theorem firing_sound : PermitSound firing := ⟨by decide +kernel, by decide, by decide, by decide +kernel⟩

theorem test_hyps_BeamPermitExactKept : PermitSound beforeFire ∧ ∃ t, step beforeFire = .next t :=
  ⟨⟨firing_sound.noEnd, firing_sound.isOpen, firing_sound.firing, firing_sound.exact⟩, _, rfl⟩

theorem test_hyps_JitterIndexKept : JitterFollows beforeFire ∧ ∃ t, step beforeFire = .next t := ⟨rfl, _, rfl⟩

theorem test_hyps_OutcomesReportedInOrderKept : OldestUnanswered beforeFire ∧ ∃ t, step beforeFire = .next t :=
  ⟨fun r o rest h => (by cases r <;> cases h), _, rfl⟩

theorem test_hyps_LaserFiresOnlyUnderPermit :
    PermitSound beforeFire ∧ ∃ t, step beforeFire = .next t ∧ Signal.laserTrig .reference ∈ t.out :=
  ⟨test_hyps_BeamPermitExactKept.1, _, rfl, by decide +kernel⟩

/-! ## The register window -/

/-- The pending set, mask and mode under PULSE. -/
def pulsing (pending mask : BitVec 8) : State := { ready with notices := ⟨pending, mask, .pulse, true, some 64000⟩ }

theorem test_hyps_NoticeReadMaskAndPulse :
    (1 ≤ 8 ∧ 0 + 8 ≤ 8 ∧ 1 ≤ 1 ∧ 0 + 1 ≤ 8) ∧ (1 ≤ 1 ∧ 7 + 1 ≤ 8 ∧ 7 ≠ 0) ∧ ready.notices.mode = .level ∧
    (let s := pulsing 9 0x09
     s.notices.mode = .pulse ∧ s.notices.pending &&& ~~~s.notices.mask = 0 ∧
     s.notices.pending &&& ~~~((0x08 : Word).setWidth 8) ≠ 0 ∧ s.notices.pending &&& ~~~((0xFF : Word).setWidth 8) = 0) ∧
    (let s := pulsing 9 0x08
     s.notices.mode = .pulse ∧ s.notices.pending &&& ~~~s.notices.mask ≠ 0) ∧
    (pulsing 1 0).notices.pulseEnd = some 64000 ∧ 64000 ≤ (observe (time 64000) (pulsing 1 0)).now ∧
    (observe (time 63999) (pulsing 1 0)).now < 64000 ∧ ready.notices.pulseEnd = none := by decide

theorem test_hyps_RegisterWriteReachesItsRegister :
    (∀ o ∈ [0x00, 0x08, 0x10, 0x18, 0x20, 0x28, 0x30, 0x38], o < 64 ∧ 1 ≤ 8 ∧ o % 8 + 8 ≤ 8) ∧
    (63 < 64 ∧ 1 ≤ 1 ∧ 63 % 8 + 1 ≤ 8 ∧ 1 < 8) ∧ (0x18 < 64 ∧ 0x18 % 8 + 7 ≤ 8 ∧ 7 < 8) ∧
    ∀ k ∈ [0, 1, 2, 3, 4, 5, 6, 255], (BitVec.ofNat 64 (256 + k)).toNat % 256 = k := by decide

/-- The reader in a state, with a cursor, a last finished block, and the loss of a write-back. -/
def reading (r : ReaderState) (finished : Option Nat) (lost : Bool) : State :=
  { ready with reader := { State.reset.reader with
    state := r, cursor := some 0x40000, lastFinished := finished, writeBackLost := lost } }

theorem test_hyps_RefusedActionsChangeNothing :
    ready.job = none ∧ ready.reader.state = .unset ∧ (reading .halted none false).reader.state = .halted ∧
    ready.reader.state ≠ .halted ∧ ready.pages.current = none ∧
    (∃ p r, (paged { page0 with sealing := some .cut } ready).pages.current = some p ∧ p.sealing = some r) ∧
    ((reading .running none false).reader.state ≠ .unset ∧ (reading .running none false).reader.state ≠ .halted) ∧
    (0 : Word).toNat % 2 ^ 48 = 0 ∧ (32 : Word).toNat % 2 ^ 48 % 64 ≠ 0 ∧
    2 ^ 48 - 512 < (BitVec.ofNat 64 (2 ^ 48 - 448)).toNat % 2 ^ 48 :=
  ⟨by decide, by decide, by decide, by decide, by decide, ⟨_, _, rfl, rfl⟩, by decide, by decide, by decide, by decide⟩

theorem test_hyps_ReaderActionsTakeEffect :
    (reading .waitReady none false).reader.state = .waitReady ∧ (reading .waitLink none false).reader.state = .waitLink ∧
    ((reading .running none false).reader.state = .running ∧ (reading .running none false).reader.writeBackLost = false) ∧
    ((reading .running none true).reader.state = .running ∧ (reading .running none true).reader.writeBackLost = true) ∧
    ((reading .halted (some 0x40000) false).reader.state = .halted ∧
      (reading .halted (some 0x40000) false).reader.lastFinished = some 0x40000) ∧
    ((reading .halted none false).reader.state = .halted ∧ (reading .halted none false).reader.lastFinished = none ∧
      (reading .halted none false).reader.cursor = some 0x40000) ∧
    ∀ a ∈ [64, 2 ^ 48 - 512], (BitVec.ofNat 64 a).toNat % 2 ^ 48 = a ∧ a ≠ 0 ∧ a % 64 = 0 ∧ a ≤ 2 ^ 48 - 512 := by
  decide

theorem test_hyps_CutBeginsSeal :
    let s := paged page0 ready
    s.pages.current = some page0 ∧ page0.sealing = none ∧ page0.stage ≠ .abandoned ∧ page0.stage = .ready ∧
    s.staging.entries = [] ∧ s.pages.mark = none ∧ s.pages.drain = none ∧ s.port.recordWait = [] ∧
    s.port.recordOut = [] ∧ s.waitsOnPages = false := by decide

/-- The reader polling each millisecond. -/
def polling : State := { ready with reader := { State.reset.reader with state := .waitReady, cursor := some 0x40000, pollMs := 1 } }

theorem test_hyps_LookAndPollWake :
    (1 ≤ polling.reader.pollMs ∧
      polling.reader.pollFrom + polling.reader.pollMs * fineMs ≤ (observe (time 64000000) polling).now) ∧
    (observe (time 63999999) polling).now < polling.reader.pollFrom + polling.reader.pollMs * fineMs ∧
    ready.reader.pollMs = 0 ∧
    (polling.reader.state = .waitReady ∧ polling.reader.activity = .idle) ∧
    ((reading .waitLink (some 0x40000) false).reader.state = .waitLink ∧
      (reading .waitLink (some 0x40000) false).reader.activity = .idle) ∧
    ({ polling with reader := { polling.reader with activity := .examining none } } : State).reader.activity ≠ .idle ∧
    (ready.reader.state ≠ .waitReady ∧ ready.reader.state ≠ .waitLink) ∧
    ({ ready with pages := { ready.pages with pass := some 0 } } : State).pages.pass ≠ none ∧
    (let u := queued [.gap .zero] { ready with pages := { ready.pages with table := some (0x100000, 4) } }
     u.pages.pass = none ∧ u.pages.current = none ∧ u.recordWaits = true ∧ u.pages.fault = false ∧
     u.pages.table = some (0x100000, 4)) := by decide +kernel

theorem test_hyps_AbortEndsWaitingJob :
    ∀ x ∈ [(Job.spinWait, JobKind.spin), (.turnWait, .turn), (.profileRead 0 0, .profile), (.reportWrite, .report),
        (.markWait, .mark)],
      (running x.1).job = some x.1 ∧ x.1.waits = some x.2 ∧ (running x.1).reader.writeBackLost = false := by decide

theorem test_hyps_FailureStopsScanLine :
    inFlight.job = some (.scan scan69) ∧ scan69.phase = .scanning ∧ scan69.stop = none ∧
    inFlight.line.phase = .assembling ∧ inFlight.line.number = some 0 ∧ inFlight.lineHasShots 0 = true ∧
    inFlight.sched.firing = .firing ∧ inFlight.emission.asserted = true ∧
    (inFlight.mirror.state = .locked ∧ inFlight.mirror.watchdogFrom = some 0 ∧
      2 * (100 * fineSec) ≤ ((observe (time 1066666667) inFlight).now - 0) * inFlight.mirror.target) := by decide +kernel

/-! ## The mirror -/

/-- SPINNING-UP toward 150 rev/s with a lock count and a job. -/
def locking (count : Nat) (j : Option Job) : State :=
  { State.reset with mirror := ⟨.spinningUp, 15000, 0, some 0, count, some 1920000000000, none, 64000000000⟩, job := j }

theorem test_hyps_IndexMarkMeasuresRate :
    State.reset.mirror.lastIndex = none ∧ (ready.mirror.lastIndex = some 0 ∧ 0 < (observe (time 1) ready).now) ∧
    State.reset.mirror.state = .spinningDown ∧
    (ready.scanJob = none ∧
      (after (.mirrorIndexMark (time 533333333)) ready).mirror.state = ready.mirror.state) := by decide +kernel

theorem test_hyps_SixteenRevolutionsLock :
    (locking 0 none).mirror.state = .spinningUp ∧ (locking 0 none).mirror.lastIndex = some 0 ∧
    inLockBand 15000 ((observe (time 428810721) (locking 0 none)).now - 0) = false ∧
    (inLockBand 15000 ((observe (time 428810720) (locking 14 none)).now - 0) = true ∧ 14 + 1 < 16) ∧
    (inLockBand 15000 ((observe (time 424543947) (locking 15 none)).now - 0) = true ∧ 16 ≤ 15 + 1) ∧
    (PermitSound (locking 15 (some .spinWait)) ∧ (locking 15 (some .spinWait)).job = some .spinWait ∧
      (locking 15 (some .spinWait)).reader.writeBackLost = false) ∧
    (let s := locking 15 (some (.scan (newScan params69)))
     PermitSound s ∧ (newScan params69).phase = .hold ∧ (newScan params69).endWait = .none ∧
     s.turntable.state ≠ .held) :=
  ⟨by decide, by decide, by decide +kernel, by decide +kernel, by decide +kernel,
   ⟨⟨by decide, by decide, by decide, by decide⟩, by decide, by decide⟩,
   ⟨⟨by decide, by decide, by decide, by decide⟩, by decide, by decide, by decide⟩⟩

/-- A locked mirror with a scan in POSITION, its block with or without seal-at-end. -/
def positioning (flags : Nat) : State :=
  { running (.scan { newScan params69 with phase := .position, runInPoint := runInPointOf params69 }) with
    turntable := ⟨.slewing, some 983616, 200, 0, some 3840000000000, none, 0, some 1, false⟩
    reader := { State.reset.reader with
      state := .running, cursor := some 0x40000, activity := .job, block := bytesOf 512 [(0x11, leBytes 1 flags)] } }

theorem test_hyps_LossOfLock :
    PermitSound ready ∧ ready.mirror.state = .locked ∧ ready.mirror.lastIndex = some 0 ∧
    (outsideLossBand 12000 ((observe (time 544217688) ready).now - 0) = true ∧
      outsideLossBand 12000 ((observe (time 544217687) ready).now - 0) = false) ∧
    (ready.mirror.watchdogFrom = some 0 ∧
      2 * 6400000000000 ≤ ((observe (time 1066666667) ready).now - 0) * ready.mirror.target ∧
      ((observe (time 1066666666) ready).now - 0) * ready.mirror.target < 2 * 6400000000000) ∧
    (PermitSound (positioning 2) ∧ (positioning 2).mirror.watchdogFrom = some 0 ∧ (positioning 2).seals = true ∧
      (positioning 0).seals = false ∧ (positioning 0).reader.writeBackLost = false) :=
  ⟨⟨by decide, by decide, by decide, by decide⟩, by decide, by decide, by decide +kernel, by decide +kernel,
   ⟨by decide, by decide, by decide, by decide⟩, by decide, by decide +kernel, by decide +kernel, by decide⟩

theorem test_hyps_MirrorTimers :
    State.reset.mirror.rateWatchEnd ≤ (observe (time 64000000000) State.reset).now ∧
    (observe (time 63999999999) State.reset).now < State.reset.mirror.rateWatchEnd ∧
    (let s := locking 0 (some .spinWait)
     s.mirror.state = .spinningUp ∧ s.mirror.spinUpEnd = some 1920000000000 ∧
     1920000000000 ≤ (observe (time 1920000000000) s).now ∧ PermitSound s ∧ s.reader.writeBackLost = false ∧
     s.job = some .spinWait ∧ (observe (time 1919999999999) s).now < 1920000000000) ∧
    (ready.mirror.state ≠ .spinningUp ∧ ready.mirror.state ≠ .unlocked) ∧ ready.mirror.spinUpEnd = none :=
  ⟨by decide, by decide,
   ⟨by decide, by decide, by decide, ⟨by decide, by decide, by decide, by decide⟩, by decide, by decide, by decide⟩,
   by decide, by decide⟩

/-! ## Jobs -/

/-- Several blocks of one kind, each taken with its TAKEN write outstanding, and what else is asked of them. -/
theorem awaits_all {α : Type} (l : List α) (k : JobKind) (kind : Nat) (fs : α → Fields) (s : α → State) (P : α → Prop)
    (h : ∀ a ∈ l, (s a).job = none ∧ (s a).reader.writeBackLost = false ∧
      (dispatching kind (fs a) (s a)).blockJob = some k ∧ P a) :
    ∀ a ∈ l, AwaitsDispatch 0 (dispatching kind (fs a) (s a)) k takenWrite [] ∧ P a :=
  fun a ha => ⟨dispatching_awaits k kind _ _ (h a ha).1 (h a ha).2.1 (h a ha).2.2.1, (h a ha).2.2.2⟩

/-- The mirror in a state, at 120 rev/s. -/
def mirrorIn (x : MirrorState) : State := { ready with mirror := { ready.mirror with state := x } }

theorem test_hyps_SpinTaken :
    ∀ a ∈ [(499, 1, MirrorState.parked), (20001, 1, .parked), (500, 1, .spinningDown), (20000, 0, .fault),
        (500, 0, .spinningUp), (20000, 1, .unlocked), (12000, 1, .locked), (12001, 1, .locked), (500, 0, .parked)],
      AwaitsDispatch 0 (dispatching 2 [(0x20, leBytes 2 a.1), (0x22, leBytes 1 a.2.1)] (mirrorIn a.2.2)) .spin takenWrite [] ∧
      spinRate (bytesOf 512 [(0x10, [2]), (0x20, leBytes 2 a.1), (0x22, leBytes 1 a.2.1)]) = a.1 ∧
      spinWaits (bytesOf 512 [(0x10, [2]), (0x20, leBytes 2 a.1), (0x22, leBytes 1 a.2.1)]) = decide (a.2.1 = 1) :=
  awaits_all _ _ _ _ _ _ (by decide +kernel)

theorem test_hyps_ParkTaken :
    ∀ x ∈ [MirrorState.parked, .spinningDown, .spinningUp, .locked, .unlocked, .fault],
      AwaitsDispatch 0 (dispatching 3 [] (mirrorIn x)) .park takenWrite [] ∧ (mirrorIn x).mirror.state = x :=
  awaits_all _ _ _ _ _ _ (by decide +kernel)

/-- The turntable HELD at 5. -/
def heldAt5 : State := { ready with turntable := ⟨.held, some 5, 200, 0, none, none, 0, some 1, true⟩, jobSerial := 1 }

theorem test_hyps_TurnTaken :
    (∀ a ∈ [(4194304, 1), (4194303, 4), (4194303, 0), (4194303, 1), (5, 1)],
      AwaitsDispatch 0 (dispatching 4 [(0x20, leBytes 4 a.1), (0x24, leBytes 1 a.2)] heldAt5) .turn takenWrite [] ∧
      turnAzimuth (dispatching 4 [(0x20, leBytes 4 a.1), (0x24, leBytes 1 a.2)] heldAt5).reader.block = a.1 ∧
      turnSlot (dispatching 4 [(0x20, leBytes 4 a.1), (0x24, leBytes 1 a.2)] heldAt5).reader.block = a.2) ∧
    heldAt5.slots.get 0 = none ∧ heldAt5.slots.get 1 = some profile28.load ∧
    (heldAt5.turntable.state = .held ∧ heldAt5.turntable.target = some (BitVec.ofNat 22 5)) ∧
    circleDistance (moment 0 0 69).azimuth (BitVec.ofNat 22 5) ≤ 64 ∧
    64 < circleDistance (moment 0 0 70).azimuth (BitVec.ofNat 22 5) :=
  ⟨awaits_all _ _ _ _ _ _ (by decide +kernel), by decide +kernel, by decide +kernel, by decide, by decide, by decide⟩

/-- A queue of one SHOT record of `n` echoes, 32 + 16 `n` bytes, and more records, with losses pending. -/
def filled (n : Nat) (more : List Rec) (l : Loss) (s : State) : State :=
  { queued (.shot ⟨0, none, 0, 0, 0, false, false, List.replicate n ⟨0, 0, 0, false, false⟩⟩ :: more) s with loss := l }

/-- A shot lost. -/
def lossOfOne : Loss := ⟨none, 0, 1, 0⟩

theorem test_hyps_MarkTaken :
    (∀ a ∈ [(2043, [Rec.mark 0 0], Loss.zero), (2041, [.mark 0 0], lossOfOne), (2045, [], .zero), (2043, [], lossOfOne)],
      AwaitsDispatch 0 (dispatching 9 [(0x14, leBytes 4 7)] (filled a.1 a.2.1 a.2.2 ready)) .mark takenWrite [] ∧
      (filled a.1 a.2.1 a.2.2 ready).loss = a.2.2) ∧
    (filled 2043 [.mark 0 0] .zero ready).occupancy + 24 ≤ 32768 ∧
    (filled 2041 [.mark 0 0] lossOfOne ready).occupancy + 24 + 32 ≤ 32768 ∧ lossOfOne ≠ Loss.zero ∧
    32768 < (filled 2045 [] .zero ready).occupancy + 24 + 0 ∧
    32768 < (filled 2043 [] lossOfOne ready).occupancy + 24 + 32 :=
  ⟨awaits_all _ _ _ _ _ _ (by decide +kernel), by decide +kernel, by decide +kernel, by decide, by decide +kernel,
   by decide +kernel⟩

/-- A SETUP block's fields: address, count, poll interval, mode. -/
def setupFields (a : Nat × Nat × Nat × Nat) : Fields :=
  [(0x20, leBytes 8 a.1), (0x28, leBytes 2 a.2.1), (0x2C, leBytes 2 a.2.2.1), (0x2A, leBytes 1 a.2.2.2)]

theorem test_hyps_SetupTaken :
    (∀ a ∈ [(32, 4, 0, 0), (2 ^ 48 - 192, 4, 0, 0), (0, 3, 0, 0), (64, 257, 0, 0), (0, 4, 1001, 0), (0, 256, 1000, 2),
        (2 ^ 48 - 256, 4, 1000, 0), (0, 256, 0, 1), (2 ^ 48, 0, 0, 0)],
      AwaitsDispatch 0 (dispatching 1 (setupFields a) ready) .setup takenWrite [] ∧
      setupAddress (dispatching 1 (setupFields a) ready).reader.block = a.1 ∧
      setupCount (dispatching 1 (setupFields a) ready).reader.block = a.2.1 ∧
      setupPoll (dispatching 1 (setupFields a) ready).reader.block = a.2.2.1 ∧
      setupMode (dispatching 1 (setupFields a) ready).reader.block = a.2.2.2) ∧
    (ready.pages.current = none ∧ ready.notices.mode = .level) ∧
    (AwaitsDispatch 0 (dispatching 1 (setupFields (0, 4, 0, 0)) (paged page0 (pulsing 1 0))) .setup takenWrite [] ∧
      (paged page0 ready).pages.current ≠ none ∧ (pulsing 1 0).notices.mode = .pulse) :=
  ⟨awaits_all _ _ _ _ _ _ (by decide +kernel), by decide,
   dispatching_awaits _ _ _ _ rfl rfl (by decide +kernel), by decide, by decide⟩

/-- The image of the profile of section 2.8, its base interval given. -/
def image28 (base : Nat) : List Byte :=
  bytesOf 192 [(0x00, leBytes 4 base), (0x04, leBytes 4 768000), (0x08, leBytes 4 6400), (0x0C, leBytes 4 256),
    (0x10, leBytes 4 172), (0x18, leBytes 4 93685), (0x1C, leBytes 2 1000), (0x1E, [2]), (0x20, leBytes 4 4000000),
    (0x24, leBytes 4 200000), (0x28, leBytes 2 200)]

theorem test_hyps_ProfileLoaded :
    (∀ a ∈ [(4, 0), (3, 32), (0, 2 ^ 48 - 128), (3, 2 ^ 48 - 192), (0, 0)],
      AwaitsDispatch 0 (dispatching 5 [(0x20, leBytes 1 a.1), (0x28, leBytes 8 a.2)] ready) .profile takenWrite [] ∧
      profileSlot (dispatching 5 [(0x20, leBytes 1 a.1), (0x28, leBytes 8 a.2)] ready).reader.block = a.1 ∧
      profileSource (dispatching 5 [(0x20, leBytes 1 a.1), (0x28, leBytes 8 a.2)] ready).reader.block = a.2) ∧
    (let t := transferOf .chain .profileRead false 0x50000 192
     let s := waitingFor t (running (.profileRead 3 0x50000))
     s.job = some (.profileRead 3 0x50000) ∧ s.reader.writeBackLost = false ∧ t.requester = .chain ∧
     t.purpose = .profileRead ∧ OldestAwaits 0 s t []) ∧
    firstFailure (profileOf (image28 31999)).checks = some 3 ∧ firstFailure (profileOf (image28 32000)).checks = none :=
  ⟨awaits_all _ _ _ _ _ _ (by decide +kernel), ⟨rfl, rfl, rfl, rfl, waitingFor_awaits _ _ rfl⟩, by decide +kernel,
   by decide +kernel⟩

theorem test_hyps_ReportWritten :
    (∀ a ∈ [32, 2 ^ 48 - 192, 2 ^ 48 - 256, 0],
      AwaitsDispatch 0 (dispatching 6 [(0x20, leBytes 8 a)] ready) .report takenWrite [] ∧
      reportDest (dispatching 6 [(0x20, leBytes 8 a)] ready).reader.block = a) ∧
    (let t := transferOf .chain .reportWrite true 0x50000 256
     let s := waitingFor t (running .reportWrite)
     s.job = some .reportWrite ∧ s.reader.writeBackLost = false ∧ t.requester = .chain ∧ t.purpose = .reportWrite ∧
     t.write = true ∧ OldestAwaits 0 s t []) :=
  ⟨awaits_all _ _ _ _ _ _ (by decide +kernel), rfl, rfl, rfl, rfl, rfl, waitingFor_awaits _ _ rfl⟩

/-- The SCAN block of section 6.9, its slot and line count given. -/
def scanFields (slot lines : Nat) : Fields :=
  [(0x20, [BitVec.ofNat 8 slot, 2, 1, 0, 0]), (0x28, leBytes 4 1000000), (0x2C, leBytes 4 2500), (0x30, leBytes 4 lines),
   (0x38, leBytes 4 700000), (0x3C, leBytes 4 1400000)]

theorem test_hyps_ScanTaken :
    (∀ a ∈ [(1, 0, ready), (0, 3, ready), (1, 3, { ready with emission := ⟨true, false, none⟩ }), (1, 3, mirrorIn .parked),
        (1, 3, ready), (1, 1000000, mirrorIn .unlocked)],
      AwaitsDispatch 0 (dispatching 7 (scanFields a.1 a.2.1) a.2.2) .scan takenWrite [] ∧
      (scanParams (dispatching 7 (scanFields a.1 a.2.1) a.2.2).reader.block).slot = a.1) ∧
    firstBadItem (scanParams (dispatching 7 (scanFields 1 0) ready).reader.block) (ready.slots.get 1) 12000 = some 4 ∧
    firstBadItem (scanParams (dispatching 7 (scanFields 0 3) ready).reader.block) (ready.slots.get 0) 12000 = none ∧
    ready.slots.get 0 = none ∧
    firstBadItem (scanParams (dispatching 7 (scanFields 1 3) ready).reader.block) (ready.slots.get 1) 12000 = none ∧
    ready.slots.get 1 ≠ none ∧ ({ ready with emission := ⟨true, false, none⟩ } : State).emission.asserted = false ∧
    (mirrorIn .parked).mirror.state ≠ .spinningUp ∧ (mirrorIn .parked).mirror.state ≠ .locked ∧
    (mirrorIn .parked).mirror.state ≠ .unlocked ∧ ready.turntable.state ≠ .held :=
  ⟨awaits_all _ _ _ _ _ _ (by decide +kernel), by decide +kernel, by decide +kernel, by decide +kernel, by decide +kernel,
   by decide +kernel, by decide, by decide, by decide, by decide, by decide⟩

/-- A PHOTO block of one station, its exposure given. -/
def photoFields (slot count exposure : Nat) : Fields :=
  [(0x20, leBytes 1 slot), (0x21, leBytes 1 count), (0x80, leBytes 8 0x1000000), (0x88, leBytes 4 18874432),
   (0x8C, leBytes 4 1010000), (0x90, leBytes 4 exposure)]

/-- The camera PRESENT and the photo machine IDLE. -/
def withCamera (s : State) : State :=
  { s with camera := ⟨.present, none, none, true, false, true, false⟩, photo := { s.photo with state := .idle } }

theorem test_hyps_PhotoTaken :
    (∀ a ∈ [(4, 1, 1000, ready), (1, 0, 1000, ready), (1, 17, 1000, ready), (1, 1, 49, ready), (0, 1, 50, ready),
        (1, 1, 1000000, ready), (1, 1, 1000000, withCamera ready)],
      AwaitsDispatch 0 (dispatching 8 (photoFields a.1 a.2.1 a.2.2.1) a.2.2.2) .photo takenWrite [] ∧
      photoSlot (dispatching 8 (photoFields a.1 a.2.1 a.2.2.1) a.2.2.2).reader.block = a.1 ∧
      photoCount (dispatching 8 (photoFields a.1 a.2.1 a.2.2.1) a.2.2.2).reader.block = a.2.1) ∧
    firstBadStation 1000000 16 (stationsOf (dispatching 8 (photoFields 1 1 49) ready).reader.block 1) = some 16 ∧
    firstBadStation 1000000 16 (stationsOf (dispatching 8 (photoFields 0 1 50) ready).reader.block 1) = none ∧
    firstBadStation 1000000 16 (stationsOf (dispatching 8 (photoFields 1 1 1000000) ready).reader.block 1) = none ∧
    ready.slots.get 0 = none ∧ ready.slots.get 1 = some profile28.load ∧ ready.photo.state ≠ .idle ∧
    ((withCamera ready).photo.state = .idle ∧ (withCamera ready).camera.presence = .present ∧
      (withCamera ready).turntable.state ≠ .held) ∧
    (stationsOf (dispatching 8 (photoFields 1 1 1000000) ready).reader.block 1).head? =
      some { station0 with exposure := 1000000 } :=
  ⟨awaits_all _ _ _ _ _ _ (by decide +kernel), by decide +kernel, by decide +kernel, by decide +kernel, by decide +kernel,
   by decide +kernel, by decide, by decide, by decide +kernel⟩

theorem test_hyps_TakenWriteDispatchesByKind :
    (∀ x ∈ [(1, JobKind.setup), (2, .spin), (3, .park), (4, .turn), (5, .profile), (6, .report), (7, .scan), (8, .photo),
        (9, .mark)], (dispatching x.1 [] ready).blockJob = some x.2) ∧
    AwaitsDispatch 0 (dispatching 9 [] ready) .mark takenWrite [] :=
  ⟨by decide +kernel, dispatching_awaits _ _ _ _ rfl rfl (by decide +kernel)⟩

/-! ## Turntable, Emission Permit and sector -/

/-- A job whose move to 983,616 is in force, the turntable in a state, its settle time ending at 100 and its limit at 200. -/
def moving (x : TurntableState) (job : Job) (answered : Bool) : State :=
  { running job with turntable := ⟨x, some 983616, 200, 0, some 200, some 100, 0, some 1, answered⟩ }

/-- The scan of section 6.9 in POSITION. -/
def position69 : ScanJob := { newScan params69 with phase := .position, runInPoint := runInPointOf params69 }

/-- A PHOTO job with one station, ARMED. -/
def armed (x : TurntableState) : State :=
  { moving x (.photo ⟨1, 0, 0, none, false, false, false⟩) false with
    camera := ⟨.present, none, none, true, false, true, false⟩
    photo := { State.reset.photo with state := .armed, stations := [⟨station0, .notReached⟩] } }

theorem test_hyps_TurntableMoves :
    ((moving .slewing .turnWait false).turntable.target = some 983616 ∧
      circleDistance (moment 0 0 983680).azimuth 983616 ≤ 64 ∧ 64 < circleDistance (moment 0 0 983681).azimuth 983616 ∧
      64 < circleDistance (moment 0 0 983551).azimuth 983616) ∧
    (∀ x ∈ [TurntableState.slewing, .settling, .held, .decelerating, .tracking],
      (moving x .turnWait false).turntable.state = x) ∧
    (100 ≤ (observe (time 100) (moving .settling .turnWait false)).now ∧
      200 ≤ (observe (time 200) (moving .slewing .turnWait false)).now ∧
      (moving .settling .turnWait false).reader.writeBackLost = false ∧
      (moving .settling .turnWait false).turntable.settleEnd = some 100 ∧
      (moving .slewing .turnWait false).turntable.slewEnd = some 200) ∧
    ((moving .settling .turnWait true).turntable.answered = true ∧
      { moving .slewing .turnWait false with jobSerial := 2 }.turntable.requester ≠ some 2) ∧
    ((moving .settling .turnWait false).turntable.requester = some 1 ∧ (moving .settling .turnWait false).jobSerial = 1 ∧
      (moving .settling .turnWait false).job = some .turnWait) ∧
    ((moving .settling (.scan position69) false).job = some (.scan position69) ∧ position69.phase = .position ∧
      position69.endWait = .none ∧ (moving .slewing (.scan position69) false).seals = false ∧
      (positioning 2).seals = true ∧ (positioning 2).turntable.requester = some (positioning 2).jobSerial) ∧
    ((armed .settling).photo.state = .armed ∧ (armed .settling).photo.stations[0]? = some ⟨station0, .notReached⟩) ∧
    ready.turntable.state ≠ .settling ∧ ready.turntable.state ≠ .slewing ∧ ready.turntable.slewEnd = none := by
  decide +kernel

theorem test_hyps_EmitPermitIndication :
    State.reset.emission.asserted = false ∧ State.reset.emission.input = false ∧ ready.emission.input = true ∧
    (let s : State := { State.reset with emission := ⟨true, false, some 3200000000⟩ }
     s.emission.input = true ∧ s.emission.countEnd = some 3200000000 ∧ 3200000000 ≤ (observe (time 3200000000) s).now ∧
     s.scanJob = none ∧ s.sched.permit = false ∧ (observe (time 3199999999) s).now < 3200000000) ∧
    ready.emission.countEnd = none := by decide

theorem test_hyps_SectorEntryRaisesPermit :
    (waiting.sector.bounds = some ((observe (moment 0 700000 0) waiting).angle, 1400000) ∧ waiting.sched.firing = .waiting ∧
      waiting.scanSlot = some profile28.load ∧ waiting.mirror.state = .locked ∧ waiting.emission.asserted = true ∧
      waiting.scanning = true) ∧
    (scanning.sector.bounds = some ((observe (moment 0 700000 0) scanning).angle, 1400000) ∧ scanning.sched.permit = false ∧
      scanning.sched.firing = .noLine) ∧
    ({ waiting with emission := ⟨false, false, none⟩ }.emission.asserted = false ∧
      { waiting with mirror := { waiting.mirror with state := .unlocked } }.mirror.state ≠ .locked) ∧
    ready.sector.bounds = none ∧ (700000 : Angle) ≠ (observe (moment 0 700001 0) waiting).angle := by decide +kernel

/-- FIRING with every shot gone, and with a queue and losses. -/
def emptied (n : Nat) (more : List Rec) (l : Loss) : State := filled n more l firing

theorem test_hyps_SectorExitEndsFiring :
    (inFlight.sector.bounds = some (700000, (observe (moment 0 1400000 0) inFlight).angle) ∧ inFlight.line.phase = .assembling ∧
      inFlight.line.number = some 0 ∧ inFlight.sched.firing = .firing ∧ inFlight.lineHasShots 0 = true) ∧
    (waiting.sched.firing = .waiting ∧ waiting.lineHasShots 0 = false ∧ waiting.job = some (.scan scan69) ∧
      scan69.phase = .scanning ∧ scan69.cause = none ∧ scan69.linesCompleted + 1 < scan69.params.lines) ∧
    (waiting.line.lost = false ∧ waiting.loss = Loss.zero ∧ (emptied 2042 [] .zero).occupancy + 64 ≤ 32768 ∧
      32768 < (emptied 2043 [] .zero).occupancy + 64 ∧ (emptied 2043 [] .zero).lineHasShots 0 = false) ∧
    { firing with line := { firing.line with lost := true } }.line.lost = true ∧
    (1400000 : Angle) ≠ (observe (moment 0 1400001 0) waiting).angle := by decide +kernel

/-! ## Shots and echoes -/

/-- FIRING with `n` shots in flight. -/
def crowded (n : Nat) : State :=
  { firing with shots := (List.range n).map (fun i => shotOf (1000 + i) .target (1000 + i) (900000000 + i) 0) }

theorem test_hyps_FireTimeFires :
    (firing.scanSlot = some profile28.load ∧ firing.sched.scheduled = some 640000000 ∧
      640000000 ≤ (observe (time 640000000) firing).now ∧ firing.sched.permit = true ∧ firing.sched.firing = .firing ∧
      firing.sched.shotWaits = false ∧ firing.line.number = some 0) ∧
    (crowded 31).shots.length < 32 ∧ 32 ≤ (crowded 32).shots.length ∧ waiting.sched.permit = false ∧
    waiting.sched.firing ≠ .firing ∧ waiting.sched.scheduled = none ∧
    (observe (time 639999999) firing).now < 640000000 := by decide +kernel

theorem test_hyps_UnmatchedEchoesAreCounted :
    ready.scanning = false ∧
    (let s := { waiting with intake := { waiting.intake with lastStamp := 100 } }
     s.scanning = true ∧ s.scanSlot = some profile28.load ∧ (99 : Word).toNat < s.intake.lastStamp ∧
     s.line.phase ≠ .none) ∧
    (scanning.scanning = true ∧ scanning.scanSlot = some profile28.load ∧ scanning.line.phase = .none ∧
      { scanning with intake := { scanning.intake with lastStamp := 100 } }.intake.lastStamp > (99 : Word).toNat ∧
      ∀ o ∈ [shotOf 3 .target 1000 897000 0],
        ¬ (o.fire ≤ (7400 : Word).toNat ∧ (7400 : Word).toNat < o.fire + profile28.load.profile.blanking)) := by
  decide +kernel

theorem test_hyps_BlankedEchoIsCounted :
    let o := shotOf 3 .target 1000000 1896000 0
    inFlight.scanning = true ∧ inFlight.scanSlot = some profile28.load ∧ o ∈ inFlight.shots ∧
    (inFlight.intake.lastStamp ≤ (1000000 : Word).toNat ∧ o.fire ≤ (1000000 : Word).toNat) ∧
    (o.fire ≤ (1006399 : Word).toNat ∧ (1006399 : Word).toNat < o.fire + profile28.load.profile.blanking) := by
  decide +kernel

/-- FIRING with reference shot 0 in flight, fired at 1,000,000, holding echoes. -/
def referenced (echoes : List Echo) : State :=
  { firing with shots := [{ shotOf 0 .reference 1000000 1160000 0 with echoes := echoes }] }

theorem test_hyps_ReferenceEchoAttaches :
    (referenced []).scanning = true ∧ (referenced []).scanSlot = some profile28.load ∧
    (referenced []).intake.lastStamp ≤ (1000000 : Word).toNat ∧
    (referenced []).shots = [] ++ shotOf 0 .reference 1000000 1160000 0 :: [] ∧
    (shotOf 0 .reference 1000000 1160000 0).kind = .reference ∧
    (∀ t ∈ [1000000, 1032000], 1000000 ≤ t ∧ t ≤ 1000000 + 32000) ∧
    (∀ x ∈ ([] : List OpenShot) ++ [], x.number ≠ 0) ∧ (shotOf 0 .reference 1000000 1160000 0).echoes = [] ∧
    { shotOf 0 .reference 1000000 1160000 0 with echoes := [echoAt 1001180] }.echoes ≠ [] ∧
    (∀ x ∈ (referenced []).shots, x.kind = .reference → 1032001 < x.fire ∨ x.fire + 32000 < 1032001) := by
  decide +kernel

/-- Echo 4 of section 3.10, the shots of its candidates holding some echoes already. -/
def echoFour (held : List Echo) (tracker : Tracker) : State :=
  let s := zones [(502, 96000), (503, 136000), (504, 176000)] tracker
  { s with shots := s.shots.map (fun o => { o with echoes := held }) }

theorem test_hyps_TargetEchoGoesWhereTheTrackerSays :
    let stamp : Nat := 1191040
    let s := echoFour [] ⟨1, none, 0, some 880826⟩
    let sl := Slot.mk profile310 6 1000
    let cs := (s.shots.filter (fun o => decide (o.kind = .target) && decide (o.fire + sl.profile.blanking ≤ stamp) &&
      decide (stamp ≤ o.fire + sl.profile.window))).reverse
    let ranges := cs.map (fun o => sl.range ((stamp : Int) - o.fire) 4100)
    s.scanning = true ∧ s.scanSlot = some sl ∧ s.intake.lastStamp ≤ stamp ∧ s.line.phase ≠ .none ∧
    (∀ o ∈ s.shots, ¬ (o.fire ≤ stamp ∧ stamp < o.fire + sl.profile.blanking)) ∧ cs ≠ [] ∧
    ranges = [131534, 506274, 881014] ∧
    chooseZone 1000 2 ranges ⟨1, none, 0, some 880826⟩ = some ⟨1, true, false, ⟨1, some 2, 1, some 880826⟩⟩ ∧
    cs[1]? = some (shotOf 503 .target 1136000 1376000 0) ∧ ranges[1]? = some 506274 ∧
    (shotOf 503 .target 1136000 1376000 0).echoes.length < scan69.params.echoLimit ∧
    scan69.params.echoLimit ≤ [echoAt 1, echoAt 2].length ∧
    chooseZone 1000 2 ranges ⟨3, none, 0, some 300000⟩ = none ∧
    (waiting.shots.filter (fun o => o.candidate profile28 stamp)).reverse = [] := by decide +kernel

theorem test_hyps_ZoneTrackerChooses :
    [5] ≠ ([] : List Nat) ∧ (⟨1, none, 0, none⟩ : Tracker).lastRange = none ∧
    ([5000, 9000][1]? = some 9000 ∧ rangeGap 9000 8000 ≤ 1000) ∧
    ((∀ r ∈ [5000, 9001], 1000 < rangeGap r 8000) ∧ 1 < [5000, 9001].length ∧ [5000, 9001].length ≤ 2) ∧
    ((∀ r' : Nat, [9000, 5000][1]? = some r' → 1000 < rangeGap r' 8000) ∧ [9000, 5000][0]? = some 9000 ∧
      rangeGap 9000 8000 ≤ 1000 ∧
      (∀ (i r' : Nat), [9000, 5000][i]? = some r' → rangeGap 9000 8000 ≤ rangeGap r' 8000) ∧
      (∀ (i r' : Nat), i < 0 → [9000, 5000][i]? = some r' → rangeGap 9000 8000 < rangeGap r' 8000)) ∧
    (∀ r' : Nat, [9000, 5000][2]? = some r' → 1000 < rangeGap r' 8000) := by
  refine ⟨by decide, rfl, by decide, by decide, ⟨?_, rfl, by decide, ?_, fun i _ h => absurd h (Nat.not_lt_zero i)⟩, nofun⟩
  · intro r' h; cases h; decide
  · intro i r' h
    match i with
    | 0 => cases h; decide
    | 1 => cases h; decide
    | _ + 2 => cases h

/-- The zero offset's scan with one shot in flight, and a queue. -/
def expiring (o : OpenShot) (line : LineState) (n : Nat) (l : Loss) : State :=
  filled n [] l { firing with shots := [o], line := line }

theorem test_hyps_ShotExpiryClosesShot :
    let o := shotOf 3 .target 1000000 1896000 0
    let o1 := { o with echoes := [echoAt 1100000] }
    let s := expiring o firing.line 0 .zero
    (s.shots = [] ++ o :: [] ∧ o.expiry ≤ (observe (time 1896000) s).now ∧ s.job = some (.scan scan69) ∧
      s.scanSlot = some profile28.load ∧ o.kind = .target ∧ o.echoes = [] ∧ scan69.params.keepEmpties = false) ∧
    { firing.line with lost := true }.lost = true ∧ (o1.echoes ≠ [] ∧ firing.line.lost = false) ∧
    (firing.line.truncated = false ∧ (expiring o1 firing.line 2025 .zero).occupancy + (32 + 16 * o1.echoes.length) ≤ 32512 ∧
      (expiring o1 firing.line 2023 lossOfOne).occupancy + (32 + 16 * o1.echoes.length + 32) ≤ 32512 ∧
      lossOfOne ≠ Loss.zero ∧ 32512 < (expiring o1 firing.line 2028 .zero).occupancy + (32 + 16 * o1.echoes.length + 0) ∧
      32512 < (expiring o1 firing.line 2026 lossOfOne).occupancy + (32 + 16 * o1.echoes.length + 32)) ∧
    { firing.line with truncated := true }.truncated = true ∧
    ((shotOf 0 .reference 1000000 1160000 0).echoes = [] ∧ firing.line.missRun < 7 ∧
      { firing.line with missRun := 6 }.missRun < 7) ∧
    (∀ x ∈ s.shots, x.number = 3 → (observe (time 1895999) s).now < x.expiry) ∧
    (firing.line.phase ≠ .draining ∧ ready.line.number = none ∧ firing.line.report = none ∧
      inFlight.lineHasShots 0 = true) ∧
    (let v := { firing with line := { firing.line with
       phase := .draining, report := some ⟨0, 1, 1, some 0, some 0, .sectorExit⟩ } }
     v.line.phase = .draining ∧ v.line.number = some 0 ∧ v.lineHasShots 0 = false ∧ EndCause.sectorExit ≠ .permit) ∧
    { firing.line with stopTaken := true }.stopTaken = true ∧ firing.sched.shotWaits = false ∧
    waiting.sched.permit = false ∧ 32 ≤ (crowded 32).shots.length ∧
    (let v := { firing with sched := { firing.sched with shotWaits := true } }
     v.sched.shotWaits = true ∧ v.sched.permit = true ∧ v.sched.firing = .firing ∧ v.shots.length < 32) := by
  decide +kernel

theorem test_hyps_ReferenceShotMovesOffset :
    let s := referenced [echoAt 1001180]
    s.shots = [] ++ { shotOf 0 .reference 1000000 1160000 0 with echoes := [echoAt 1001180] } :: [] ∧
    1160000 ≤ (observe (time 1160000) s).now ∧ s.job = some (.scan scan69) ∧ s.scanSlot = some profile28.load ∧
    4 * (252 : Int) ≤ 3 * profile28.load.offset + ((1001180 : Int) - 1000000 - profile28.refConstant) ∧
    3 * profile28.load.offset + ((1001180 : Int) - 1000000 - profile28.refConstant) < 4 * 252 + 4 := by decide +kernel

/-! ## The scan's phases -/

/-- Between lines with a tracking turntable, its error count, a queue and losses. -/
def indexing (errors n : Nat) (l : Loss) : State :=
  filled n [] l { scanning with turntable := { scanning.turntable with errorCount := errors } }

theorem test_hyps_IndexOpensLine :
    let s := indexing 0 0 .zero
    (s.job = some (.scan scan69) ∧ scan69.phase = .scanning ∧ scan69.stop = none ∧ s.line.phase = .none ∧
      s.line.started < scan69.params.lines ∧
      (markMirror (observe (time 533333333) s).now s.mirror).state = s.mirror.state) ∧
    (s.turntable.state = .tracking ∧
      (circleError (moment 0 0 1000600).azimuth (BitVec.ofNat 22 (1000000 + 0 * 2500))).natAbs ≤ 600 ∧
      600 < (circleError (moment 0 0 999399).azimuth (BitVec.ofNat 22 (1000000 + 0 * 2500))).natAbs ∧
      s.turntable.errorCount + 1 < 3 ∧ 3 ≤ (indexing 2 0 .zero).turntable.errorCount + 1 ∧
      s.turntable.requester = some s.jobSerial) ∧
    { s with turntable := heldAt5.turntable }.turntable.state ≠ .tracking ∧
    ((indexing 0 2027 .zero).occupancy + 48 ≤ 32512 ∧ (indexing 0 2025 lossOfOne).occupancy + 80 ≤ 32512 ∧
      32512 < (indexing 0 2028 .zero).occupancy + 48 ∧ 32512 < (indexing 0 2026 lossOfOne).occupancy + 80) := by
  decide +kernel

/-- The scan in RUN-IN, its line step and stage given, seal-at-end set. -/
def runningIn (step : Nat) (stage : RunInStage) (x : TurntableState) : State :=
  let s := positioning 2
  { s with
    job := some (.scan { position69 with
      params := { params69 with step := step }, phase := .runIn, entryDistance := 15134, runInDelay := 238080000,
      runInStage := stage })
    turntable := { s.turntable with state := x } }

theorem test_hyps_RunInLeadsToScanning :
    let s := runningIn 2500 .index .held
    ((∃ j, s.job = some (.scan j) ∧ j.phase = .runIn ∧ j.endWait = .none ∧ j.runInStage = .index ∧
        leadOf j.params.step ≠ 0) ∧
      (markMirror (observe (time 533333333) s).now s.mirror).state = s.mirror.state) ∧
    ((∃ j, (runningIn 2048 .index .held).job = some (.scan j) ∧ leadOf j.params.step = 0) ∧ s.turntable.state ≠ .fault) ∧
    (100 ≤ (observe (time 100) (runningIn 2500 (.delay 100) .held)).now ∧
      (observe (time 99) (runningIn 2500 (.delay 100) .held)).now < 100 ∧
      (runningIn 2500 (.delay 100) .fault).turntable.state = .fault ∧ (runningIn 2500 (.delay 100) .fault).seals = true) ∧
    (let p := runInPointOf params69
     15134 ≤ ((moment 0 0 998750).azimuth - p).toNat ∧ ((moment 0 0 998750).azimuth - p).toNat < 2097152 ∧
     ((moment 0 0 998749).azimuth - p).toNat < 15134 ∧ 2097152 ≤ ((moment 0 0 3080768).azimuth - p).toNat) ∧
    (s.emission.asserted = true ∧ { s with emission := ⟨false, false, none⟩ }.emission.asserted = false) :=
  ⟨⟨⟨_, rfl, by decide, by decide, by decide, by decide⟩, by decide +kernel⟩, ⟨⟨_, rfl, by decide⟩, by decide⟩,
   by decide +kernel, by decide +kernel, by decide⟩

/-! ## Pages -/

/-- A descriptor. -/
def descriptor (state size : Nat) : List Byte :=
  bytesOf 64 [(0x00, leBytes 1 state), (0x10, leBytes 8 0x200000), (0x18, leBytes 4 size)]

/-- A pass with a number of descriptors read, one more read outstanding. -/
def passing (k : Nat) (wait : Bool) : State :=
  waitingFor (transferOf .descriptor .descriptorRead false 0x100000 64) { ready with
    pages := { State.reset.pages with table := some (0x100000, 4), pass := some k, wait := wait } }

theorem test_hyps_DescriptorReadTakesOrSkips :
    OldestAwaits 0 (passing 0 false) (transferOf .descriptor .descriptorRead false 0x100000 64) [] ∧
    (∀ k ∈ [0, 2, 3], (passing k false).pages.pass = some k ∧ (passing k false).pages.table = some (0x100000, 4) ∧
      (passing k false).pages.lookAgain = false ∧ (passing k false).waitsOnPages = false) ∧
    (descState (descriptor 1 65536) = 1 ∧ descValid (descriptor 1 65536) = true) ∧
    (descState (descriptor 0 65536) ≠ 1 ∧ 2 + 1 < 4 ∧ 4 ≤ 3 + 1) ∧ descValid (descriptor 1 65535) = false ∧
    (passing 3 false).pages.wait = false ∧ (passing 3 true).pages.wait = true :=
  ⟨waitingFor_awaits _ _ rfl, by decide +kernel, by decide +kernel, by decide +kernel, by decide +kernel, by decide,
   by decide⟩

/-- A page's descriptor write outstanding, with a job and a mark whose seal has begun. -/
def descriptorWrite (p : Purpose) (notify : Bool) (job : Option Job) (mark : Option EndMark) : State :=
  let s := paged { page0 with notify := notify, sealing := some .jobEnd, stage := .sealState } ready
  waitingFor (transferOf .descriptor p true 0x100000 8) { s with job := job, pages := { s.pages with mark := mark } }

/-- The mark of a job whose seal has begun. -/
def begunMark : EndMark := ⟨0, .jobEnd, true⟩

theorem test_hyps_DescriptorWritesInOrder :
    (∀ p ∈ [Purpose.takeField, .takeState, .sealField, .sealState],
      OldestAwaits 0 (descriptorWrite p false none none) (transferOf .descriptor p true 0x100000 8) []) ∧
    (descriptorWrite .sealState false none none).sealBegun = false ∧
    (∃ p, (descriptorWrite .sealState true none none).pages.current = some p ∧ p.notify = true) ∧
    (let s := descriptorWrite .sealState false (some (.sealWait .spin ⟨.none, 0, []⟩)) (some begunMark)
     s.sealBegun = true ∧ s.job = some (.sealWait .spin ⟨.none, 0, []⟩) ∧ s.reader.writeBackLost = false) ∧
    (let j := { scan69 with phase := .ending, endWait := .mark }
     let s := descriptorWrite .sealState false (some (.scan j)) (some begunMark)
     s.sealBegun = true ∧ s.job = some (.scan j) ∧ j.endWait ≠ .none ∧ s.reader.writeBackLost = false) :=
  ⟨fun _ _ => waitingFor_awaits _ _ rfl, by decide, ⟨_, rfl, rfl⟩, by decide, by decide⟩

/-- The write of a record at the head of the queue, or of a continuation header, outstanding. -/
def recordWrite (purpose : Purpose) (r : Rec) (serial : Nat) (s : State) : State :=
  waitingFor (transferOf .record purpose true 0x200000 48) (paged page0 { s with
    staging := ⟨[⟨5, serial, r, true⟩], 6⟩ })

/-- The LINE HEADER of line 0. -/
def header0 : Rec := .header ⟨0, 7, 0, 0, 0, 0, 0⟩

/-- An empty SHOT record of line 0. -/
def shotRec0 : ShotRec := ⟨0, none, 0, 0, 0, false, false, []⟩

/-- A PHOTO record. -/
def photoRec0 : PhotoRec := ⟨7, 0, .done, .full, 0x1000000, 2048, 0, 0, none, none⟩

/-- A LINE TRAILER of line 0. -/
def trailer0 : TrailerRec := ⟨0, 0, 0, 0, 0, 0, 0, 0, 0, 0, 0, 0, .ok, .clear⟩

theorem test_hyps_RecordWriteCompletes :
    (∀ r ∈ [header0, .shot shotRec0, .trailer trailer0, .mark 7 0, .gap .zero, .photo photoRec0],
      OldestAwaits 0 (recordWrite .record r 1 scanning) (transferOf .record .record true 0x200000 48) [] ∧
      (recordWrite .record r 1 scanning).pages.current = some page0 ∧
      (recordWrite .record r 1 scanning).staging.entries = [⟨5, 1, r, true⟩]) ∧
    page0.stage ≠ .abandoned ∧ scanning.reader.writeBackLost = false ∧
    (scanning.job = some (.scan scan69) ∧ scanning.jobSerial = 1 ∧ (2 : Nat) ≠ scanning.jobSerial ∧
      ready.scanJob = none) ∧
    ({ running .markWait with markWait := some 5 }.markWait = some 5 ∧ (running .markWait).job = some .markWait ∧
      ready.markWait ≠ some 5) ∧
    OldestAwaits 0 (recordWrite .continuation header0 1 scanning) (transferOf .record .continuation true 0x200000 48) [] :=
  ⟨fun _ _ => ⟨waitingFor_awaits _ _ rfl, rfl, rfl⟩, by decide, by decide, by decide, by decide,
   waitingFor_awaits _ _ rfl⟩

/-! ## The chain -/

/-- One of the reader's own transfers. -/
def chainTransfer (p : Purpose) (write : Bool) : Transfer := transferOf .chain p write 0x40000 8

/-- The reader with a transfer outstanding and something under way. -/
def chainAt (p : Purpose) (write : Bool) (r : Reader) : State := waitingFor (chainTransfer p write) { ready with reader := r }

/-- The reader on the block at 40000h in a state. -/
def readerAt (x : ReaderState) (a : Activity) : Reader :=
  { State.reset.reader with state := x, cursor := some 0x40000, activity := a }

theorem test_hyps_ExaminationAndLinkReads :
    (∀ p ∈ [Purpose.examination 0, .examination 1, .link],
      OldestAwaits 0 (chainAt p false (readerAt .running .idle)) (chainTransfer p false) [] ∧
      (chainAt p false (readerAt .running .idle)).reader.cursor = some 0x40000) ∧
    (chainAt (.examination 0) false (readerAt .running (.examining none))).reader.activity = .examining none ∧
    (chainAt (.examination 1) false (readerAt .running (.examining (some (zeros 256))))).reader.activity =
      .examining (some (zeros 256)) ∧
    (∀ k ∈ [1, 9], blockState (bytesOf 512 [(0, [1]), (0x10, leBytes 1 k)]) = 1 ∧
      1 ≤ blockKind (bytesOf 512 [(0, [1]), (0x10, leBytes 1 k)]) ∧
      blockKind (bytesOf 512 [(0, [1]), (0x10, leBytes 1 k)]) ≤ 9) ∧
    (blockKind (bytesOf 512 [(0, [1])]) = 0 ∧ 9 < blockKind (bytesOf 512 [(0, [1]), (0x10, [10])]) ∧
      (readerAt .running .idle).writeBusy = false ∧ (readerAt .running .idle).writeList = []) ∧
    (blockState (bytesOf 512 []) = 0 ∧ 2 ≤ blockState (bytesOf 512 [(0, [2])])) ∧
    ({ readerAt .running .idle with haltPending := true }.haltPending = true ∧
      (readerAt .running .idle).haltPending = false ∧ (readerAt .running .idle).state ≠ .waitReady) ∧
    ({ readerAt .waitReady .idle with lookAgain := true }.lookAgain = true ∧
      (readerAt .waitReady .idle).state = .waitReady ∧ (readerAt .waitReady .idle).lookAgain = false) ∧
    (field (zeros 8) 0 8 = 0 ∧ (readerAt .waitLink .link).state = .waitLink ∧
      (readerAt .running .link).state ≠ .waitLink) ∧
    (∀ l ∈ [64, 2 ^ 48 - 512], field (leBytes 8 l) 0 8 ≠ 0 ∧ field (leBytes 8 l) 0 8 % 64 = 0 ∧
      field (leBytes 8 l) 0 8 ≤ 2 ^ 48 - 512) ∧
    field (leBytes 8 32) 0 8 % 64 ≠ 0 ∧ 2 ^ 48 - 512 < field (leBytes 8 (2 ^ 48 - 448)) 0 8 :=
  ⟨fun _ _ => ⟨waitingFor_awaits _ _ rfl, rfl⟩, rfl, rfl, by decide +kernel, by decide +kernel, by decide +kernel,
   by decide, by decide, by decide +kernel, by decide +kernel, by decide +kernel, by decide +kernel⟩

/-- The reader handing back a result of a block, halt pending or not. -/
def handing (code : ResultCode) (notify : Nat) (halt : Bool) : Reader :=
  { readerAt .running .result with
    result := some ⟨code, 3, []⟩, haltPending := halt, writeBusy := true, block := bytesOf 512 [(0x11, leBytes 1 notify)] }

theorem test_hyps_ResultIsWrittenBack :
    (∀ p ∈ [Purpose.blockWrite, .resultCode, .resultState],
      OldestAwaits 0 (chainAt p true (handing .none 0 false)) (chainTransfer p true) [] ∧
      (chainAt p true (handing .none 0 false)).reader.cursor = some 0x40000) ∧
    ({ handing .none 0 false with writeList := [⟨0x20, [1], [true]⟩] }.writeList = ⟨0x20, [1], [true]⟩ :: [] ∧
      (handing .none 0 false).writeList = [] ∧ (handing .none 0 false).result = some ⟨.none, 3, []⟩) ∧
    { handing .none 0 false with result := none }.result = none ∧
    ((handing .none 0 false).haltPending = false ∧ (handing .none 0 true).haltPending = true) ∧
    (blockNotify (handing .none 1 false).block = true ∧ blockNotify (handing .none 0 false).block = false ∧
      ResultCode.aborted ≠ .none) :=
  ⟨fun _ _ => ⟨waitingFor_awaits _ _ rfl, rfl⟩, by decide, by decide, by decide, by decide +kernel⟩

/-! ## The Store Port -/

/-- A port with requests waiting and `n` transfers of the Chain Reader, the record path and the photo path outstanding. -/
def arbiting (control recordWait photoWait : List Transfer) (n : Nat) (last : DataPath) : Port :=
  let out := fun (r : Requester) (p : Purpose) => List.replicate n (Outstanding.mk 0 (transferOf r p true 0x1000 8) none .awaited)
  { State.reset.port with
    control := control, recordWait := recordWait, photoWait := photoWait, chainOut := out .chain .blockWrite,
    recordOut := out .record .record, photoOut := out .photo .photoHeader, lastData := last }

theorem test_hyps_ArbiterGrants :
    let c := transferOf .chain .blockWrite true 0x40000 8
    let d := transferOf .descriptor .takeField true 0x100018 8
    let r := transferOf .record .record true 0x200000 48
    let f := transferOf .photo .photoHeader true 0x1000000 64
    let p := arbiting [c, d] [r] [f] 4 .photo
    let at_ := fun p => ready.setPort p
    (p.control = [c] ++ d :: [] ∧ (∀ x ∈ [c], ¬ HasRoom (at_ p) x.requester) ∧ HasRoom (at_ p) d.requester) ∧
    (let p := { arbiting [d, c] [r] [f] 3 .photo with descOut := [⟨0, d, none, .awaited⟩] }
     p.control = [d] ++ c :: [] ∧ (∀ x ∈ [d], ¬ HasRoom (at_ p) x.requester) ∧ HasRoom (at_ p) c.requester) ∧
    (let p := arbiting [c] [r] [f] 3 .photo
     p.control = [] ++ c :: [] ∧ HasRoom (at_ p) c.requester) ∧
    (∀ x ∈ (arbiting [c] [r] [f] 4 .photo).control, ¬ HasRoom (at_ (arbiting [c] [r] [f] 4 .photo)) x.requester) ∧
    (let p := arbiting [] [r] [f] 3 .photo
     p.control = [] ∧ p.recordWait = r :: [] ∧ p.recordOut.length < 4 ∧ p.lastData = .photo) ∧
    (let p := arbiting [] [r] [f] 3 .record
     p.photoWait = f :: [] ∧ p.photoOut.length < 4 ∧ p.lastData = .record ∧ ready.occupancy < 24576 ∧
     24576 ≤ (filled 1534 [] .zero ready).occupancy) ∧
    ((arbiting [] [r] [f] 4 .photo).photoOut.length = 4 ∧ 4 ≤ (arbiting [] [r] [f] 4 .photo).recordOut.length ∧
      (arbiting [] [r] [] 3 .photo).photoWait = [] ∧ (arbiting [] [] [f] 3 .photo).recordWait = []) := by decide +kernel

/-- Two transfers of a requester outstanding, the second behind the first. -/
def twoOutstanding (r : Requester) (p : Purpose) (a : Answer) : State :=
  let out : List Outstanding :=
    [⟨3, transferOf r p true 0x1000 8, some 3200000, .awaited⟩, ⟨4, transferOf r p true 0x2000 8, some 3200001, a⟩]
  { ready with port := State.reset.port.setOut r out }

theorem test_hyps_FaultsAndHeldAnswers :
    ((twoOutstanding .record .record .awaited).port.outOf .record)[1]? =
      some ⟨4, transferOf .record .record true 0x2000 8, some 3200001, .awaited⟩ ∧
    (3200001 ≤ (observe (time 3200001) (twoOutstanding .record .record .awaited)).now ∧
      (observe (time 3200000) (twoOutstanding .record .record .awaited)).now < 3200001 ∧ 1 ≤ 1) ∧
    OldestUnanswered (twoOutstanding .record .record .awaited) ∧
    (∀ a ∈ [Answer.held [], .faulted], a ≠ .awaited) ∧
    (∀ p ∈ [Purpose.examination 0, .link, .takenWrite, .resultCode, .resultState],
      OldestAwaits 0 (chainAt p true (readerAt .running .idle)) (chainTransfer p true) [] ∧
      ((chainAt p true (readerAt .running .idle)).port.outOf .chain)[0]? = some ⟨0, chainTransfer p true, some 3200000, .awaited⟩ ∧
      (p.isReaderRead = true ∨ p = .takenWrite ∨ p = .resultCode ∨ p = .resultState)) ∧
    (∀ p ∈ [Purpose.descriptorRead, .takeField, .takeState, .sealField, .sealState],
      OldestAwaits 0 (descriptorWrite p false none none) (transferOf .descriptor p true 0x100000 8) [] ∧
      (descriptorWrite p false none none).job = none) := by
  refine ⟨rfl, by decide, ?_, by decide, ?_, fun p _ => ⟨waitingFor_awaits _ _ rfl, rfl⟩⟩
  · intro r o rest h
    cases r <;> cases h
    rfl
  · intro p hp
    refine ⟨waitingFor_awaits _ _ rfl, rfl, ?_⟩
    revert p
    decide

/-! ## Photographs and the camera -/

/-- A photograph of station 0, triggered at 0, with rows taken, room for rows, and its timers. -/
def photograph (taken fit : Nat) (accepting : Bool) (cause : Option PhotoEnd) : Photograph :=
  ⟨7, 0, true, 0x1000000, 18874432, .full, 1000, fit, taken, 0, accepting, 0, none, none, some 4, cause, some 32000000,
   some 64000000, some 6400000000, false⟩

/-- The camera at work on a photograph, with rows buffered. -/
def shooting (x : PhotoState) (p : Photograph) (rows : Nat) : State :=
  { scanning with
    camera := ⟨.present, none, none, true, false, true, false⟩
    photo := ⟨x, some p, List.replicate rows ⟨0, []⟩, [⟨station0, .notReached⟩], none⟩ }

theorem test_hyps_ExposureTimers :
    let p := photograph 0 2048 false none
    let s := shooting .exposing p 0
    s.photo.current = some p ∧ (p.midEnd = some 32000000 ∧ 32000000 ≤ (observe (time 32000000) s).now) ∧
    (observe (time 31999999) s).now < 32000000 ∧ { p with midEnd := none }.midEnd = none ∧
    (s.photo.state = .exposing ∧ p.exposureEnd = some 64000000 ∧ 64000000 ≤ (observe (time 64000000) s).now ∧
      (observe (time 63999999) s).now < 64000000) ∧
    (1 ≤ p.rowsFit ∧ 1 ≤ (photograph 0 1 false none).rowsFit ∧ p.endCause = none) ∧
    ((photograph 0 0 false none).rowsFit = 0 ∧ (photograph 0 5 false (some .abort)).endCause ≠ none ∧
      p.accepting = false ∧ p.headerIssued = false ∧ s.photo.rows = [] ∧ p.endCause ≠ some .memory) ∧
    (shooting .readout p 0).photo.state ≠ .exposing := by decide

theorem test_hyps_RowsAreTaken :
    let p := photograph 0 2048 true none
    let s := shooting .readout p 3
    s.photo.current = some p ∧ p.accepting = true ∧ (List.replicate 9216 (0 : Byte)).length = p.mode.rowSize ∧
    s.photo.rows.length < 4 ∧ 4 ≤ (shooting .readout p 4).photo.rows.length ∧
    ((photograph 2047 2048 true none).rowsTaken + 1 = p.mode.rowsExpected ∧
      (photograph 4 5 true none).rowsTaken + 1 ≠ p.mode.rowsExpected ∧ (photograph 4 5 true none).rowsTaken + 1 = 5 ∧
      p.rowsTaken + 1 ≠ p.rowsFit ∧ p.rowsTaken + 1 ≠ p.mode.rowsExpected) ∧
    (photograph 0 2048 false none).accepting = false ∧
    (p.rowEnd = some 6400000000 ∧ 6400000000 ≤ (observe (time 6400000000) s).now ∧
      (observe (time 6399999999) s).now < 6400000000) ∧
    { p with rowEnd := none }.rowEnd = none ∧ s.photo.rows ≠ [] ∧
    (let q := { photograph 5 5 false (some .overrun) with exposureEnd := none }
     (shooting .readout q 0).photo.rows = [] ∧ q.accepting = false ∧ q.exposureEnd = none ∧ q.headerIssued = false ∧
     q.endCause ≠ some .memory) := by decide +kernel

/-- A photograph's write outstanding, with a job and a queue. -/
def photoWrite (purpose : Purpose) (cause : Option PhotoEnd) (job : Job) (stations n : Nat) : State :=
  let s := shooting .readout { photograph 5 5 false cause with exposureEnd := none } 1
  waitingFor (transferOf .photo purpose true 0x1000000 64) (filled n [] .zero { s with
    job := some job, photo := { s.photo with stations := List.replicate stations ⟨station0, .notReached⟩ } })

theorem test_hyps_PhotoWritesComplete :
    (∀ x ∈ [Purpose.row false, .row true, .photoHeader],
      OldestAwaits 0 (photoWrite x none (.scan scan69) 1 0) (transferOf .photo x true 0x1000000 64) []) ∧
    (∀ k ∈ [none, some PhotoEnd.camera, some .overrun, some .shortBuffer, some .abort],
      (photoWrite .photoHeader k (.scan scan69) 1 0).photo.current =
        some { photograph 5 5 false k with exposureEnd := none } ∧ k ≠ some .memory) ∧
    (endStatus (some .camera) = .fault ∧ endStatus none ≠ .fault) ∧
    ((photoWrite .photoHeader none (.scan scan69) 1 2042).loss = Loss.zero ∧
      (photoWrite .photoHeader none (.scan scan69) 1 2042).occupancy + 64 ≤ 32768 ∧
      32768 < (photoWrite .photoHeader none (.scan scan69) 1 2043).occupancy + 64) ∧
    (scan69.phase = .scanning ∧ scan69.discardDue = false ∧ scan69.abortTaken = false) ∧
    (let a : PhotoJob := ⟨1, 0, 0, none, false, false, false⟩
     let s := photoWrite .photoHeader none (.photo a) 2 0
     s.job = some (.photo a) ∧ a.cause = none ∧ s.reader.writeBackLost = false ∧ s.camera.presence = .present ∧
     s.camera.checkDue = false ∧ s.turntable.state ≠ .held ∧ a.index + 1 < s.photo.stations.length) ∧
    (let a : PhotoJob := ⟨1, 0, 0, none, false, false, false⟩
     let s := photoWrite .photoHeader none (.photo a) 1 0
     s.photo.stations.length ≤ a.index + 1 ∧ s.seals = false) :=
  ⟨fun _ _ => waitingFor_awaits _ _ rfl, by decide +kernel, by decide, by decide +kernel, by decide, by decide +kernel,
   by decide +kernel⟩

/-- The camera in a presence state with its two levels. -/
def cameraIn (x : Presence) (present error : Bool) (s : State) : State :=
  { s with camera := ⟨x, some 100, some 100, true, false, present, error⟩ }

theorem test_hyps_CameraPresence :
    (∀ x ∈ [Presence.wait, .absent], (cameraIn x false false ready).camera.presentIn = false ∧
      (cameraIn x false false ready).camera.presence = x) ∧
    (∀ x ∈ [Presence.check, .present], (cameraIn x true false ready).camera.presentIn = true ∧
      (cameraIn x true false ready).camera.presence = x) ∧
    (ready.reader.writeBackLost = false ∧ (withCamera ready).photo.state = .idle ∧
      (withCamera ready).camera.presentIn = true) ∧
    (let p := photograph 0 2048 false none
     (shooting .exposing p 0).photo.state = .exposing ∧ (shooting .exposing p 0).photo.current = some p ∧
     p.endCause ≠ some .memory ∧ (shooting .exposing p 0).camera.presence = .present ∧
     (shooting .exposing p 0).camera.errorIn = false) ∧
    ((cameraIn .wait false false ready).camera.presenceEnd = some 100 ∧
      100 ≤ (observe (time 100) (cameraIn .wait false false ready)).now ∧
      (cameraIn .check true false ready).camera.presence ≠ .wait) ∧
    ((cameraIn .check true false ready).camera.errorIn = false ∧ (cameraIn .check true true ready).camera.errorIn = true) ∧
    ((cameraIn .check true false ready).camera.checkEnd = some 100 ∧
      100 ≤ (observe (time 100) (cameraIn .check true false ready)).now ∧
      (cameraIn .check true false ready).photo.current = none ∧
      (cameraIn .check true false ready).camera.checkAfterWait = true ∧ ready.camera.checkAfterWait = false ∧
      ready.camera.presence ≠ .check) := by decide


/-! ## Clauses of the widened statements -/

theorem test_hyps_CommandsAnswerNext_rest_watch :
    circleDistance (moment 0 0 16).azimuth ready.rest.azimuth ≤ 16 ∧
    16 < circleDistance (moment 0 0 17).azimuth ready.rest.azimuth := by decide

/-- A page at an issue position, with losses' GAP records and others queued for it, and writes in flight. -/
def issuing (p : Page) (rs : List Rec) (flying : Nat) : State :=
  let s := queued rs (paged p (running .spinWait))
  { s with port := { s.port with recordWait := List.replicate flying (transferOf .record .record true 0x200000 48) } }

/-- No mark and no drain point is no mark reached. -/
theorem markQuiet_of_none (u : State) (hm : u.pages.mark = none) (hd : u.pages.drain = none) : u.markQuiet := by
  constructor
  · intro k h; rw [hm] at h; cases h
  · intro d _ h; rw [hd] at h; cases h

theorem test_hyps_PageManagerActsLast_issue :
    let p := { page0 with issue := 65536 - 24 }
    let e : Entry := ⟨0, 1, .mark 7 0, false⟩
    let u := issuing p [.mark 7 0] 3
    (u.waitsOnPages = false ∧ u.markQuiet ∧ u.firstUnissued = some e ∧ u.pages.discarding = none ∧
      e.lineId ≠ some (1, 0)) ∧
    (u.pages.current = some p ∧ p.stage = .ready ∧ p.sealing = none ∧ needsContinuation u.pages.line p e = false ∧
      p.issue + e.record.size ≤ p.size ∧ u.recordsInFlight < 4) ∧
    (u.staging.entries.filter (fun y => !y.issued) = [e] ∧ ∀ y ∈ u.staging.entries, y.seq = e.seq → y = e) ∧
    (let t := { page0 with autoSeal := true, highWater := 64 }
     t.autoSeal = true ∧ t.highWater ≤ t.issue + 64 ∧
     (issuing t [.trailer trailer0] 0).firstUnissued = some ⟨0, 1, .trailer trailer0, false⟩) :=
  ⟨⟨by decide, markQuiet_of_none _ rfl rfl, by decide, by decide, by decide⟩, by decide, by decide, by decide⟩

/-- The header of line 0 in the line in progress, with a SHOT of that line queued. -/
def continuing (p : Page) : State :=
  let s := issuing p [.shot shotRec0] 3
  { s with pages := { s.pages with line := some (1, ⟨0, 7, 0, 0, 0, 0, 0⟩) } }

theorem test_hyps_PageManagerActsLast_continuation :
    let p := { page0 with issue := 65536 - 80 }
    let u := continuing p
    u.pages.line = some (1, ⟨0, 7, 0, 0, 0, 0, 0⟩) ∧ u.firstUnissued = some ⟨0, 1, .shot shotRec0, false⟩ ∧
    needsContinuation u.pages.line p ⟨0, 1, .shot shotRec0, false⟩ = true ∧
    p.issue + (Rec.shot shotRec0).size + 48 ≤ p.size ∧ u.recordsInFlight < 4 := by decide

theorem test_hyps_PageManagerActsLast_full :
    let p := { page0 with issue := 65536 - 23 }
    let e : Entry := ⟨0, 1, .mark 7 0, false⟩
    p.size < p.issue + e.record.size + 0 ∧ needsContinuation (issuing p [.mark 7 0] 0).pages.line p e = false ∧
    (issuing p [.mark 7 0] 1).drained = false ∧ (issuing p [.mark 7 0] 0).drained = true ∧
    (let q := { page0 with issue := 65536 - 79 }
     q.size < q.issue + (Rec.shot shotRec0).size + 48 ∧
     needsContinuation (continuing q).pages.line q ⟨0, 1, .shot shotRec0, false⟩ = true) := by decide

/-- A record queued with no page current, the table, PAGE-FAULT and PAGE-WAIT given. -/
def pageless (table : Option (Nat × Nat)) (fault wait : Bool) : State :=
  queued [.mark 7 0] { ready with pages := { ready.pages with table := table, fault := fault, wait := wait } }

theorem test_hyps_PageManagerActsLast_passes :
    (∀ u ∈ [pageless (some (0x100000, 4)) false false, pageless none false false, pageless none true false],
      u.waitsOnPages = false ∧ u.firstUnissued = some ⟨0, 0, .mark 7 0, false⟩ ∧ u.pages.discarding = none ∧
      u.pages.current = none ∧ u.pages.pass = none ∧ u.pages.wait = false) ∧
    (pageless (some (0x100000, 4)) false false).markQuiet ∧
    ((pageless (some (0x100000, 4)) false false).pages.fault = false ∧
      (pageless (some (0x100000, 4)) false false).pages.table = some (0x100000, 4)) ∧
    ((pageless none true false).pages.fault = true ∧ (pageless none false false).pages.table = none) :=
  ⟨by decide, markQuiet_of_none _ rfl rfl, by decide, by decide⟩

/-- A job that waits on a mark at the tail of an empty queue, its page given. -/
def marked (page : Option Page) (job : Job) : State :=
  { running job with pages := { ready.pages with current := page, mark := some ⟨0, .jobEnd, false⟩ } }

theorem test_hyps_PageManagerActsLast_mark_reached :
    (∀ p ∈ [page0, { page0 with sealing := some .full }],
      let u := marked (some p) (.sealWait .spin ⟨.none, 0, []⟩)
      u.pages.mark = some ⟨0, .jobEnd, false⟩ ∧ u.reached 0 = true ∧ u.pages.discarding = none ∧
      u.pages.current = some p ∧ p.stage = .ready ∧ u.waitsOnPages = true ∧ u.drained = true ∧ u.scanJob = none) ∧
    (∃ j, (marked (some page0) (.scan j)).job = some (.scan j) ∧ j.endWait = .mark ∧ j.abortTaken = true ∧
      (marked (some page0) (.scan j)).pages.wait = false ∧ (marked (some page0) (.scan j)).waitsOnPages = true) ∧
    { marked (some page0) .spinWait with port := (issuing page0 [] 1).port }.drained = false ∧
    (let u := marked none (.sealWait .spin ⟨.none, 0, []⟩)
     u.pages.current = none ∧ u.job = some (.sealWait .spin ⟨.none, 0, []⟩) ∧ u.reader.writeBackLost = false) :=
  ⟨by decide, ⟨{ scan69 with phase := .ending, endWait := .mark, abortTaken := true }, rfl, rfl, rfl, rfl, rfl⟩,
   by decide, by decide⟩

theorem test_hyps_PageManagerActsLast_drain_and_discard :
    (let j := { scan69 with phase := .ending, endWait := .drain }
     let u := { running (.scan j) with pages := { ready.pages with drain := some 0 } }
     u.pages.mark = none ∧ u.pages.drain = some 0 ∧ u.reached 0 = true ∧ u.pages.discarding = none ∧
     u.job = some (.scan j) ∧ j.endWait ≠ .none ∧ u.reader.writeBackLost = false) ∧
    (let s := queued [.shot shotRec0] (running .spinWait)
     let u := { s with pages := { s.pages with discarding := some (1, 0) } }
     u.waitsOnPages = false ∧ u.staging.entries = [⟨0, 1, .shot shotRec0, false⟩] ∧
     u.pages.discarding = some (1, shotRec0.line) ∧ u.pages.current = none ∧ u.pages.mark = none ∧
     u.pages.drain = none) := by decide

theorem test_hyps_NoticeReadMaskAndPulse_short_reads :
    (4 < 8 ∧ 5 < 8 ∧ 0 + 8 ≤ 8 ∧ 1 ≤ 1 ∧ 7 + 1 ≤ 8 ∧ (7 : Nat) ≠ 0) ∧
    ({ pulsing 1 0 with rstin := true }.rstin = true ∧ (pulsing 1 0).rstin = false) ∧
    registerRead (pulsing 1 0) 0x28 1 = 1 ∧ registerRead (pulsing 1 0) 0x29 7 = 0 := by decide

theorem test_hyps_LookAndPollWake_exhaustion :
    (∀ u ∈ [pageless none false false, pageless none false true, pageless (some (0x100000, 4)) true false],
      u.pages.pass = none ∧ u.pages.current = none ∧ u.recordWaits = true ∧
      (u.pages.fault = true ∨ u.pages.table = none) ∧ u.waitsOnPages = false) ∧
    (pageless none false true).pages.wait = true ∧ (pageless none false false).pages.wait = false ∧
    (paged page0 ready).pages.current ≠ none ∧ (paged page0 ready).pages.pass = none ∧ ready.recordWaits = false := by
  decide

/-- A seal that has begun for the running job's mark. -/
def sealing (job : Job) : State := { running job with pages := { ready.pages with mark := some ⟨0, .jobEnd, true⟩ } }

theorem test_hyps_AbortEndsWaitingJob_scan :
    (∀ x ∈ [ScanPhase.hold, .position, .runIn, .ending], ∀ w ∈ [EndWait.none, .mark],
      let j := { scan69 with phase := x, endWait := w }
      (running (.scan j)).job = some (.scan j) ∧ (running (.scan j)).reader.writeBackLost = false ∧ j.phase = x ∧
      j.endWait = w ∧ (sealing (.scan j)).sealBegun = true ∧ (running (.scan j)).sealBegun = false) ∧
    ((positioning 2).seals = true ∧ (positioning 0).seals = false) := by decide +kernel

theorem test_hyps_AbortEndsWaitingJob_photo_and_sealing :
    (let a : PhotoJob := ⟨1, 0, 0, none, false, false, false⟩
     (armed .slewing).job = some (.photo a) ∧ a.sealWait = false ∧ a.lateCause = false ∧
     (armed .slewing).photo.state.busy = false ∧ (armed .slewing).reader.writeBackLost = false) ∧
    (let p := photograph 0 2048 true none
     (shooting .exposing p 0).photo.current = some p ∧ (shooting .exposing p 0).photo.state = .exposing ∧
     (shooting .readout p 0).photo.state = .readout ∧ p.accepting = true ∧
     (photograph 0 2048 false none).accepting = false) ∧
    (∀ cause ∈ [none, some ResultCode.cameraFault],
      let a : PhotoJob := ⟨1, 0, 1, cause, false, true, false⟩
      (sealing (.photo a)).job = some (.photo a) ∧ a.sealWait = true ∧ a.cause = cause ∧
      (sealing (.photo a)).sealBegun = true ∧ (running (.photo a)).sealBegun = false) ∧
    (∀ kind ∈ [JobKind.profile, .report, .spin], ∀ c ∈ [ResultCode.none, .badParam],
      let r : JobResult := ⟨c, 0, []⟩
      (sealing (.sealWait kind r)).job = some (.sealWait kind r) ∧ (sealing (.sealWait kind r)).sealBegun = true ∧
      (running (.sealWait kind r)).sealBegun = false ∧ (running (.sealWait kind r)).reader.writeBackLost = false) := by
  decide

/-- A SCAN block with the parameters given, but for its stations. -/
def scanBlock (p : ScanParams) : Fields :=
  [(0x20, [BitVec.ofNat 8 p.slot, BitVec.ofNat 8 p.echoLimit, BitVec.ofNat 8 p.startZone, 0, BitVec.ofNat 8 p.count]),
   (0x28, leBytes 4 p.startAz), (0x2C, leBytes 4 p.step), (0x30, leBytes 4 p.lines), (0x38, leBytes 4 p.sectorStart),
   (0x3C, leBytes 4 p.sectorStop)]

/-- The nine items of check 1 pass for the example of section 6.9, the zone and slot given. -/
theorem items_pass (p : ScanParams) (slot : Option Slot) (hs : slot = none ∨ slot = some profile28.load)
    (hp : p = params69 ∨ p = { params69 with slot := 0 }) : ∀ k, scanItem p slot 12000 k := by
  intro k
  unfold scanItem
  split
  all_goals rcases hp with rfl | rfl <;> first | decide | (rcases hs with rfl | rfl)
  all_goals first
    | exact trivial
    | (refine ⟨by decide, fun x h => ?_⟩; cases h; done)
    | (refine ⟨by decide, fun x h => ?_⟩; cases h; decide)
    | (refine ⟨by decide, by decide, by decide, fun x h => ?_⟩; cases h; done)
    | (refine ⟨by decide, by decide, by decide, fun x h a h1 h2 => ?_⟩
       cases h
       have h2 : a < 1400000 := h2
       have h1 : 700000 ≤ a := h1
       exact ⟨fun c => absurd c (by decide), fun _ => ⟨by show a < 4000000; omega, by show 200000 ≤ a; omega⟩⟩)

theorem test_hyps_ScanTaken_items_that_fail :
    (∀ p ∈ [{ params69 with slot := 4 }, { params69 with startAz := 4194304 }, { params69 with step := 65537 },
        { params69 with lines := 1000001 }, { params69 with sectorStart := 0 }, { params69 with echoLimit := 9 },
        { params69 with startZone := 32 }, { params69 with step := 2913 }],
      AwaitsDispatch 0 (dispatching 7 (scanBlock p) ready) .scan takenWrite [] ∧
      scanParams (dispatching 7 (scanBlock p) ready).reader.block = p) ∧
    ¬ scanItem { params69 with slot := 4 } none 12000 1 ∧ ¬ scanItem { params69 with startAz := 4194304 } none 12000 2 ∧
    ¬ scanItem { params69 with step := 65537 } none 12000 3 ∧ ¬ scanItem { params69 with lines := 1000001 } none 12000 4 ∧
    ¬ scanItem { params69 with sectorStart := 0 } none 12000 5 ∧ ¬ scanItem { params69 with echoLimit := 9 } none 12000 6 ∧
    ¬ scanItem { params69 with startZone := 32 } (some profile28.load) 12000 7 ∧
    ¬ scanItem { params69 with count := 17 } none 12000 8 ∧ ¬ scanItem { params69 with step := 2913 } none 12000 9 :=
  ⟨awaits_all _ _ _ scanBlock (fun _ => ready) (fun p => scanParams (dispatching 7 (scanBlock p) ready).reader.block = p)
    (by decide +kernel),
   by simp [scanItem], by simp [scanItem], by simp [scanItem], by simp [scanItem],
   by simp [scanItem], by simp [scanItem],
   by simp [scanItem], by simp [scanItem], by simp [scanItem]⟩

theorem test_hyps_ScanTaken_later_checks :
    (∀ k, scanItem params69 (ready.slots.get 1) 12000 k) ∧ (∀ k, scanItem { params69 with slot := 0 } (ready.slots.get 0) 12000 k) ∧
    scanParams (dispatching 7 (scanBlock params69) ready).reader.block = params69 ∧
    (∀ x ∈ params69.stations, x.inRange 2000) ∧ station0.inRange 2000 ∧ ¬ { station0 with exposure := 2001 }.inRange 2000 ∧
    ¬ { station0 with exposure := 49 }.inRange 2000 ∧
    (scanParams (dispatching 7 (scanBlock { params69 with count := 1 }) ready).reader.block).stations[16 - 16]? =
      some ⟨0, 0, 0, 0, 0⟩ ∧ ¬ (⟨0, 0, 0, 0, 0⟩ : Station).inRange 2000 :=
  ⟨items_pass _ _ (.inr (by decide)) (.inl rfl), items_pass _ _ (.inl (by decide)) (.inr rfl), by decide +kernel,
   (by intro x h; cases h), by unfold Station.inRange; decide, by unfold Station.inRange; decide,
   by unfold Station.inRange; decide, by decide +kernel, by unfold Station.inRange; decide⟩

/-- DECELERATING with the head where it was at power-on. -/
def stopping : State := { ready with turntable := { ready.turntable with state := .decelerating, target := none } }

theorem test_hyps_TurntableMoves_at_rest :
    (circleDistance (moment 0 0 16).azimuth stopping.rest.azimuth ≤ 16 ∧
      16 < circleDistance (moment 0 0 17).azimuth stopping.rest.azimuth) ∧
    (stopping.turntable.state = .decelerating ∧ stopping.turntable.target = none ∧
      (observe (moment 640000000 0 16) stopping).rest.since + 10 * fineMs ≤ (observe (moment 640000000 0 16) stopping).now ∧
      (observe (moment 639999999 0 16) stopping).now < (observe (moment 639999999 0 16) stopping).rest.since + 10 * fineMs ∧
      (observe (moment 640000000 0 17) stopping).now < (observe (moment 640000000 0 17) stopping).rest.since + 10 * fineMs) ∧
    scanning.turntable.state ≠ .decelerating ∧ stopping.turntable.state ≠ .slewing ∧ stopping.turntable.state ≠ .settling ∧
    stopping.turntable.state ≠ .held := by decide

theorem test_hyps_TurntableMoves_photo_and_drives :
    (let a : PhotoJob := ⟨1, 0, 0, none, false, false, false⟩
     (armed .slewing).job = some (.photo a) ∧ a.sealWait = false ∧ a.lateCause = false ∧
     (armed .slewing).photo.state = .armed ∧ (armed .slewing).seals = false ∧
     { armed .slewing with reader := (positioning 2).reader }.seals = true ∧
     (armed .slewing).turntable.requester = some (armed .slewing).jobSerial ∧
     (armed .slewing).turntable.slewEnd = some 200) ∧
    (∀ x ∈ [TurntableState.slewing, .settling, .held], (moving x .turnWait false).turntable.state = x ∧
      (moving x .turnWait false).turntable.target = some 983616) ∧
    (moving .tracking .turnWait false).turntable.state = .tracking ∧ stopping.turntable.state = .decelerating ∧
    (moving .stopped .turnWait false).turntable.state = .stopped ∧ (moving .fault .turnWait false).turntable.state = .fault := by decide +kernel

theorem test_hyps_EmitPermitIndication_outside_a_scan :
    ready.emission.asserted = true ∧ ready.scanJob = none ∧ ready.sched.permit = false := by decide

theorem test_hyps_SectorExitEndsFiring_losses :
    (waiting.sched.firing = .waiting ∧ firing.sched.firing = .firing ∧ firing.line.lost = false ∧ lossOfOne ≠ Loss.zero) ∧
    ((emptied 2040 [] lossOfOne).loss = lossOfOne ∧ (emptied 2040 [] lossOfOne).occupancy + 96 ≤ 32768) ∧
    32768 < (emptied 2041 [] lossOfOne).occupancy + 96 := by decide +kernel

theorem test_hyps_ShotExpiryClosesShot_eighth_miss :
    let o := shotOf 4 .reference 1000000 1160000 0
    let s := { inFlight with shots := o :: inFlight.shots, line := { inFlight.line with missRun := 7 } }
    (s.shots = [] ++ o :: inFlight.shots ∧ (∀ x ∈ [] ++ inFlight.shots, x.number ≠ o.number) ∧
      o.expiry ≤ (observe (time 1160000) s).now ∧ s.job = some (.scan scan69) ∧ s.scanSlot = some profile28.load ∧
      o.kind = .reference ∧ o.echoes = []) ∧
    (8 ≤ { s.line with missRun := 8 }.missRun ∧ s.line.missRun = 7) ∧
    (scan69.phase = .scanning ∧ scan69.stop = none ∧ { scan69 with stop := some .abort }.stop ≠ none ∧
      s.line.phase = .assembling ∧ s.line.number = some 0 ∧ (∃ x ∈ [] ++ inFlight.shots, x.line = 0) ∧
      s.sched.firing = .firing) := by decide +kernel

theorem test_hyps_ArbiterGrants_issue_slot :
    ready.issueSlot = none ∧
    (let s := { ready with issueSlot := some (.chain, 100) }
     s.issueSlot = some (.chain, (observe (time 100) s).now) ∧ 100 ≠ (observe (time 101) s).now ∧
     (observe (time 101) s).issueSlot = none) := by decide

/-- A requester's oldest transfer outstanding, and perhaps one behind it, a job running. -/
def faulting (r : Requester) (p : Purpose) (more : Bool) (s : State) : State :=
  { s with
    port := s.port.setOut r (⟨0, transferOf r p true 0x1000 8, some 3200000, .awaited⟩ ::
      (if more then [⟨1, transferOf r p true 0x2000 8, some 3200000, .awaited⟩] else [])) }

theorem faulting_awaits (r : Requester) (p : Purpose) (more : Bool) (s : State) :
    (transferOf r p true 0x1000 8).requester = r ∧
    OldestAwaits 0 (faulting r p more s) (transferOf r p true 0x1000 8)
      (if more then [⟨1, transferOf r p true 0x2000 8, some 3200000, .awaited⟩] else []) := by
  refine ⟨rfl, ⟨some 3200000, by cases r <;> cases more <;> rfl⟩, rfl, ?_⟩
  cases more
  · intro o h; cases h
  · intro o h
    have : o = ⟨1, transferOf r p true 0x2000 8, some 3200000, .awaited⟩ := List.mem_singleton.1 h
    rw [this]

theorem test_hyps_FaultsAndHeldAnswers_write_back_and_access :
    (∃ j n, inFlight.job = some (.scan j) ∧ j.phase = .scanning ∧ j.stop = none ∧ inFlight.line.phase = .assembling ∧
      inFlight.line.number = some n ∧ inFlight.lineHasShots n = true ∧ inFlight.sched.firing = .firing) ∧
    (let a : PhotoJob := ⟨1, 0, 0, none, false, false, false⟩
     let p := photograph 0 2048 false none
     let s := { shooting .exposing p 0 with job := some (.photo a) }
     s.job = some (.photo a) ∧ a.sealWait = false ∧ s.photo.state = .exposing ∧ s.photo.current = some p ∧
     (armed .slewing).job = some (.photo a) ∧ (armed .slewing).photo.state = .armed ∧ (armed .slewing).seals = false) ∧
    ((running (.profileRead 1 0x5000)).job = some (.profileRead 1 0x5000) ∧
      (running (.profileRead 1 0x5000)).reader.writeBackLost = false ∧ (running .reportWrite).job = some .reportWrite) ∧
    (Purpose.blockWrite = .blockWrite ∧ ready.job = none) :=
  ⟨⟨scan69, 0, by decide +kernel⟩, by decide, by decide, by decide⟩

/-- A record write outstanding and one waiting, with a record behind them. -/
def recordFaulting : State :=
  let s := faulting .record .record false (paged page0 inFlight)
  { s with
    staging := ⟨[⟨1, 1, header0, true⟩, ⟨2, 1, .shot shotRec0, true⟩, ⟨3, 1, .shot shotRec0, false⟩], 4⟩
    port := { s.port with recordWait := [transferOf .record .record true 0x3000 32] } }

theorem test_hyps_FaultsAndHeldAnswers_record :
    let s := recordFaulting
    s.pages.current = some page0 ∧ s.reader.writeBackLost = false ∧ (∀ y ∈ s.port.recordWait, y.requester = .record) ∧
    s.staging.entries = [⟨1, 1, header0, true⟩] ++ [⟨2, 1, .shot shotRec0, true⟩] ++ [⟨3, 1, .shot shotRec0, false⟩] ∧
    [(⟨2, 1, .shot shotRec0, true⟩ : Entry)].length = (s.port.recordWait.filter (fun y => decide (y.purpose = .record))).length ∧
    (s.scanning = true ∧ s.line.phase ≠ .none ∧ ∃ n, s.line.number = some n ∧ s.lineHasShots n = true) :=
  ⟨by decide, by decide, by decide, by decide, by decide, by decide +kernel, by decide, 0, by decide, by decide⟩

theorem test_hyps_FaultsAndHeldAnswers_photo :
    (∃ p, (faulting .photo (.row true) true (shooting .readout (photograph 1 5 true none) 1)).photo.current = some p) ∧
    (shooting .readout (photograph 1 5 true none) 1).scanning = true ∧
    (let a : PhotoJob := ⟨1, 0, 0, none, false, false, false⟩
     let s := faulting .photo .photoHeader false { shooting .readout (photograph 1 5 true none) 1 with job := some (.photo a) }
     s.job = some (.photo a) ∧ a.cause = none ∧ a.lateCause = false ∧ s.reader.writeBackLost = false ∧
     s.seals = false) ∧
    { shooting .readout (photograph 1 5 true none) 1 with reader := (positioning 2).reader }.seals = true :=
  ⟨⟨_, rfl⟩, by decide, by decide +kernel, by decide +kernel⟩

theorem test_hyps_FaultsAndHeldAnswers_job_told :
    (∀ j ∈ [Job.spinWait, .turnWait, .profileRead 1 0x5000, .reportWrite, .markWait, .sealWait .spin ⟨.none, 0, []⟩],
      (running j).job = some j) ∧
    (∀ x ∈ [ScanPhase.hold, .position, .runIn, .scanning, .ending], ∀ w ∈ [EndWait.none, .mark],
      let j := { scan69 with phase := x, endWait := w }
      (running (.scan j)).job = some (.scan j) ∧ j.phase = x ∧ j.endWait = w) ∧
    { scan69 with stop := some .abort }.stop ≠ none ∧
    (∀ cause ∈ [none, some ResultCode.cameraFault], ∀ w ∈ [true, false],
      let a : PhotoJob := ⟨1, 0, 0, cause, false, w, false⟩
      (running (.photo a)).job = some (.photo a) ∧ a.sealWait = w ∧ a.lateCause = false) ∧
    ((shooting .exposing (photograph 0 5 false none) 0).photo.state.busy = true ∧ ready.photo.state.busy = false) := by
  decide

theorem test_hyps_FaultsAndHeldAnswers_numbers :
    (∀ x ∈ (twoOutstanding .record .record .awaited).port.outOf .record, x.id ≠ 5) ∧
    (∀ x, ((twoOutstanding .record .record .awaited).port.outOf .record).head? = some x → x.id ≠ (time 0).transfer) ∧
    (∀ k x, k < 1 → ((twoOutstanding .record .record .awaited).port.outOf .record)[k]? = some x → x.id ≠ 4) := by
  refine ⟨by decide, fun x h => ?_, fun k x hk h => ?_⟩
  · cases h; decide
  · have : k = 0 := Nat.lt_one_iff.1 hk
    subst this; cases h; decide

theorem test_hyps_CameraPresence_busy :
    (∀ x ∈ [Presence.check, .wait, .absent],
      let p := photograph 0 2048 true none
      let s := cameraIn x true false (shooting .readout p 0)
      s.camera.presentIn = true ∧ s.camera.presence = x ∧ s.photo.state.busy = true ∧ s.photo.current = some p ∧
      s.camera.errorIn = false ∧ s.camera.presence ≠ .present ∧ p.accepting = true) ∧
    ((cameraIn .check true false ready).photo.state.busy = false ∧ (cameraIn .absent true false ready).photo.state.busy = false) ∧
    ((photograph 0 2048 false none).accepting = false ∧
      (shooting .readout (photograph 0 2048 false none) 0).photo.state ≠ .exposing) ∧
    ((observe (time 99) (cameraIn .wait false false ready)).now < 100 ∧
      (observe (time 99) (cameraIn .check true false ready)).now < 100) := by decide


/-! ## Clauses of the third sitting -/

/-- The head HELD at a target, the azimuth encoder given. -/
def headAt (target azimuth : Angle) (s : State) : State :=
  { s with turntable := ⟨.held, some target, 200, 0, none, none, 0, some 1, true⟩, azimuth := azimuth }

theorem test_hyps_held_at :
    HeldAt 5 (headAt 5 69 ready) ∧ ¬ HeldAt 5 (headAt 5 70 ready) ∧ ¬ HeldAt 5 (headAt 6 5 ready) ∧ ¬ HeldAt 5 ready := by
  decide

theorem test_hyps_SixteenRevolutionsLock_held :
    (∀ step ∈ [2500, 64],
      let j := newScan { params69 with step := step }
      let s := headAt 983616 0 (locking 15 (some (.scan j)))
      inLockBand 15000 ((observe (moment 424543947 0 983616) s).now - 0) = true ∧ s.mirror.lastIndex = some 0 ∧
      s.job = some (.scan j) ∧ j.phase = .hold ∧ j.endWait = .none ∧
      HeldAt (runInPointOf j.params) (observe (moment 424543947 0 983616) s) ∧
      ¬ HeldAt (runInPointOf j.params) (observe (moment 424543947 0 983681) s)) ∧
    (leadOf 2500 ≠ 0 ∧ leadOf 64 = 0) ∧ PermitSound (headAt 983616 0 (locking 15 (some (.scan (newScan params69))))) :=
  ⟨by decide +kernel, by decide, ⟨by decide, by decide, by decide, by decide⟩⟩

theorem test_hyps_LossOfLock_scan_at_an_index :
    (∀ flags ∈ [0, 2],
      let s := positioning flags
      s.mirror.state = .locked ∧ s.mirror.lastIndex = some 0 ∧
      outsideLossBand s.mirror.target ((observe (time 544217688) s).now - 0) = true ∧
      ∃ j, s.job = some (.scan j) ∧ j.phase = .position ∧ j.endWait = .none) ∧
    PermitSound (positioning 0) ∧ PermitSound (positioning 2) := by
  refine ⟨fun flags h => ?_, ⟨by decide, by decide, by decide, by decide⟩, ⟨by decide, by decide, by decide, by decide⟩⟩
  simp only [List.mem_cons, List.not_mem_nil, or_false] at h
  rcases h with rfl | rfl
  · exact ⟨by decide, by decide, by decide +kernel, _, rfl, rfl, rfl⟩
  · exact ⟨by decide, by decide, by decide +kernel, _, rfl, rfl, rfl⟩

theorem test_hyps_MirrorTimers_scan_in_hold :
    (let s := locking 0 (some (.scan (newScan params69)))
     s.mirror.state = .spinningUp ∧ s.mirror.spinUpEnd = some 1920000000000 ∧
     1920000000000 ≤ (observe (time 1920000000000) s).now ∧ s.reader.writeBackLost = false ∧
     s.job = some (.scan (newScan params69)) ∧ (newScan params69).phase = .hold ∧ (newScan params69).endWait = .none) ∧
    PermitSound (locking 0 (some (.scan (newScan params69)))) :=
  ⟨by decide, ⟨by decide, by decide, by decide, by decide⟩⟩

theorem test_hyps_ScanTaken_held :
    (∀ s ∈ [headAt 983616 0 ready, headAt 5 0 ready, ready],
      AwaitsDispatch 0 (dispatching 7 (scanBlock params69) s) .scan takenWrite [] ∧
      scanParams (dispatching 7 (scanBlock params69) s).reader.block = params69 ∧ s.slots.get 1 = some profile28.load ∧
      s.emission.asserted = true ∧ s.mirror.state = .locked) ∧
    runInPointOf params69 = 983616 ∧
    (let s := dispatching 7 (scanBlock params69) (headAt 983616 0 ready)
     HeldAt 983616 (dispatched (moment 0 0 983680) takenWrite [] s) ∧
     ¬ HeldAt 983616 (dispatched (moment 0 0 983681) takenWrite [] s)) ∧
    ¬ HeldAt 983616 (dispatched (moment 0 0 983616) takenWrite [] (dispatching 7 (scanBlock params69) (headAt 5 0 ready))) :=
  ⟨awaits_all _ _ _ (fun _ => scanBlock params69) (fun s => s) _ (by decide +kernel), by decide, by decide +kernel,
   by decide +kernel⟩

theorem test_hyps_PhotoTaken_held :
    (∀ s ∈ [headAt 1010000 0 (withCamera ready), withCamera ready],
      AwaitsDispatch 0 (dispatching 8 (photoFields 1 1 1000) s) .photo takenWrite [] ∧
      s.photo.state = .idle ∧ s.camera.presence = .present ∧ s.slots.get 1 = some profile28.load ∧
      (stationsOf (dispatching 8 (photoFields 1 1 1000) s).reader.block 1).head? = some station0) ∧
    BitVec.ofNat 22 (station0.azimuth + profile28.load.profile.cameraOffset) = (1010000 : Angle) ∧
    (let s := dispatching 8 (photoFields 1 1 1000) (headAt 1010000 0 (withCamera ready))
     HeldAt 1010000 (dispatched (moment 0 0 1009936) takenWrite [] s) ∧
     ¬ HeldAt 1010000 (dispatched (moment 0 0 1009935) takenWrite [] s)) ∧
    ¬ HeldAt 1010000 (dispatched (moment 0 0 1010000) takenWrite []
      (dispatching 8 (photoFields 1 1 1000) (withCamera ready))) :=
  ⟨awaits_all _ _ _ (fun _ => photoFields 1 1 1000) (fun s => s) _ (by decide +kernel), by decide, by decide +kernel,
   by decide +kernel⟩

theorem test_hyps_PhotoWritesComplete_held_and_gap :
    (let a : PhotoJob := ⟨1, 0, 0, none, false, false, false⟩
     let s := headAt 1010000 0 (photoWrite .photoHeader none (.photo a) 2 0)
     let x := transferOf .photo .photoHeader true 0x1000000 64
     s.job = some (.photo a) ∧ s.camera.presence = .present ∧ s.camera.checkDue = false ∧
     a.index + 1 < s.photo.stations.length ∧ s.slots.get a.slot = some profile28.load ∧
     (setStatus 0 .done s.photo.stations)[a.index + 1]? = some ⟨station0, .notReached⟩ ∧
     HeldAt 1010000 (reported (moment 0 0 1010064) x [] s) ∧ ¬ HeldAt 1010000 (reported (moment 0 0 1010065) x [] s) ∧
     OldestAwaits 0 s x []) ∧
    (∀ n ∈ [(2040, true), (2041, false)],
      let s := { photoWrite .photoHeader none (.scan scan69) 1 n.1 with loss := lossOfOne }
      s.loss ≠ Loss.zero ∧ decide (s.occupancy + 96 ≤ 32768) = n.2) ∧
    (∀ a ∈ [(⟨1, 0, 0, some .aborted, false, false, false⟩ : PhotoJob), ⟨1, 1, 0, none, false, false, false⟩],
      a.cause ≠ none ∨ (photoWrite .photoHeader none (.photo a) 2 0).photo.stations.length ≤ a.index + 1) :=
  ⟨⟨by decide, by decide, by decide, by decide, by decide, by decide +kernel, by decide +kernel, by decide +kernel,
    ⟨⟨_, rfl⟩, rfl, fun o h => by cases h⟩⟩, by decide +kernel, by decide +kernel⟩

theorem test_hyps_CameraPresence_armed :
    (let a : PhotoJob := ⟨1, 0, 0, none, false, false, false⟩
     let s := armed .slewing
     s.camera.presentIn = true ∧ s.camera.errorIn = false ∧ s.camera.presence = .present ∧ s.photo.state = .armed ∧
     s.job = some (.photo a) ∧ s.seals = false ∧ s.reader.writeBackLost = false ∧ a.lateCause = false) ∧
    { armed .slewing with reader := (positioning 2).reader }.seals = true := by decide +kernel

/-! ## Clauses of the fourth sitting -/

/-- The example's line 0 draining, its firing over. -/
def draining (shots : List OpenShot) (cause : EndCause) : State :=
  { firing with
    shots := shots
    sched := { firing.sched with firing := .ended, scheduled := none, permit := false }
    line := { firing.line with phase := .draining, report := some ⟨0, 1, 1, some 0, some 0, cause⟩ } }

theorem test_hyps_scan_stops :
    (scan69.phase = .scanning ∧ scan69.stop = none ∧ { scan69 with stop := some .abort }.stop ≠ none) ∧
    (scanning.line.phase = .none ∧ scanning.sched.firing.live = false ∧ scanning.sched.permit = false) ∧
    (∀ s ∈ [waiting, firing, inFlight], s.job = some (.scan scan69) ∧ s.line.phase = .assembling ∧ s.line.number = some 0 ∧
      s.sched.firing.live = true ∧ s.line.stopTaken = false) ∧
    (∀ s ∈ [draining [] .permit, draining inFlight.shots .sectorExit], s.line.phase = .draining ∧ s.line.number = some 0 ∧
      s.line.report.isSome = true ∧ s.sched.firing.live = false ∧ s.sched.permit = false) ∧
    (inFlight.lineHasShots 0 = true ∧ waiting.lineHasShots 0 = false ∧ (draining [] .permit).lineHasShots 0 = false) ∧
    (PermitSound scanning ∧ PermitSound waiting ∧ PermitSound inFlight ∧ PermitSound (draining [] .permit)) :=
  ⟨by decide, by decide, by decide, by decide, by decide, ⟨by decide, by decide, by decide, by decide⟩,
   ⟨by decide, by decide, by decide, by decide⟩, ⟨by decide, by decide, by decide, by decide⟩,
   ⟨by decide, by decide, by decide, by decide⟩⟩

theorem test_hyps_inline_aborted :
    (∀ p, scanning.photo.current = some p → p.isInline = false) ∧
    (∀ p, (shooting .exposing { photograph 0 5 false none with isInline := false } 0).photo.current = some p →
      p.isInline = false) ∧
    (∀ x ∈ [(PhotoState.exposing, false), (.readout, true), (.readout, false)],
      let p := photograph 0 5 x.2 none
      (shooting x.1 p 0).photo.current = some p ∧ p.isInline = true ∧ (shooting x.1 p 0).photo.state = x.1 ∧
      p.accepting = x.2) ∧ PhotoState.readout ≠ .exposing :=
  ⟨fun p h => (by cases h), fun p h => (by cases h; rfl), by decide, by decide⟩

theorem test_hyps_leaving_scanning :
    (let k := afterClose 0 scan69 waiting
     k.linesCompleted < k.params.lines ∧ k.cause = none) ∧
    (let k := afterClose 2 { scan69 with linesCompleted := 2 } waiting
     k.params.lines ≤ k.linesCompleted ∧ k.cause = none) ∧
    (afterClose 0 { scan69 with cause := some .turntableFault } waiting).cause ≠ none ∧
    (∃ p, (shooting .exposing (photograph 0 5 false none) 0).photo.current = some p ∧ p.isInline = true) ∧
    (let j := { scan69 with phase := .ending }
     let waitsPage := { scanning with pages := { scanning.pages with wait := true } }
     let faulted := { scanning with pages := { scanning.pages with fault := true } }
     { j with discardDue := true }.discardDue = true ∧
     ({ j with abortTaken := true }.abortTaken = true ∧ waitsPage.pages.wait = true) ∧
     (j.discardDue = false ∧ j.abortTaken = false ∧ j.cause = none) ∧
     ({ j with abortTaken := true, cause := some .aborted }.cause ≠ none ∧ scanning.pages.wait = false) ∧
     faulted.pages.fault = true ∧ scanning.pages.fault = false ∧ scanning.seals = false ∧
     { scanning with reader := (positioning 2).reader }.seals = true) ∧
    (scanning.reader.writeBackLost = false ∧
      { scanning with reader := scanning.reader.lost }.reader.writeBackLost = true) :=
  ⟨by decide, by decide, by decide, ⟨_, rfl, rfl⟩, by decide +kernel, by decide⟩

theorem test_hyps_wrote_back :
    (∀ fs ∈ [[(0x48, leBytes 4 1), (0x4C, leBytes 4 0)], [(0x28, leBytes 4 1), (0x80 + 0x15, leBytes 1 1)]],
      (Fields.toWrites fs) ≠ [] ∧ scanning.reader.writeList ++ Fields.toWrites fs = Fields.toWrites fs) ∧
    (scanning.reader.writeBackLost = false ∧ scanning.reader.writeBusy = false ∧
      { scanning.reader with writeBusy := true }.writeBusy = true ∧ scanning.reader.lost.writeBackLost = true) := by
  decide +kernel

/-- Two NOT-REACHED stations 1,000 counts from the start of a scan, and the photo machine's state. -/
def inlineStations (x : PhotoState) : State :=
  { scanning with
    photo := ⟨x, none, [], List.replicate 2 ⟨{ station0 with azimuth := 1001000 }, .notReached⟩, some ⟨1000000, 2500, 0⟩⟩ }

theorem test_hyps_IndexOpensLine_crossings :
    scanning.photo.inlineBase = none ∧
    (∀ x ∈ [PhotoState.idle, .absent], (inlineStations x).photo.inlineBase = some ⟨1000000, 2500, 0⟩ ∧
      (inlineStations x).photo.state = x) ∧
    (Crossed (inlineStations .idle) ⟨1000000, 2500, 0⟩ 1000 0 ∧ Crossed (inlineStations .idle) ⟨1000000, 2500, 0⟩ 1000 1 ∧
      Crossed (inlineStations .absent) ⟨1000000, 2500, 0⟩ 1000 0) ∧
    (∀ i, ¬ Crossed (inlineStations .idle) ⟨1000000, 2500, 0⟩ 999 i) := by
  refine ⟨rfl, by decide, ⟨⟨_, rfl, rfl, fun p h => (by cases h), by decide⟩, ⟨_, rfl, rfl, fun p h => (by cases h), by decide⟩,
    ⟨_, rfl, rfl, fun p h => (by cases h), by decide⟩⟩, ?_⟩
  rintro i ⟨x, h, _, _, d⟩
  match i, h with
  | 0, h => cases h; revert d; decide
  | 1, h => cases h; revert d; decide
  | i + 2, h => cases h

theorem test_crossings :
    (let w := crossings 0 1000 (inlineStations .idle)
     w.photo.stations.map (·.status) = [.notReached, .missed] ∧ w.photo.state = .exposing ∧
     w.photo.current.map (fun p => (p.station, p.line)) = some (0, some 0)) ∧
    (crossings 0 1000 (inlineStations .absent)).photo.stations.map (·.status) = [.missed, .missed] ∧
    crossings 0 999 (inlineStations .idle) = inlineStations .idle := by decide +kernel

theorem test_hyps_ShotExpiryClosesShot_ranges :
    (let sl := { profile28.load with profile := { profile28 with factor := 95000, correction := -10 :: List.replicate 31 0 } }
     (1 - sl.offset) * (sl.profile.factor : Int) + 10000 * sl.profile.correction.getD (0 / 2048) 0 = -5000) ∧
    (let sl := { profile28.load with profile := { profile28 with factor := 94999, correction := -10 :: List.replicate 31 0 } }
     (1 - sl.offset) * (sl.profile.factor : Int) + 10000 * sl.profile.correction.getD (0 / 2048) 0 < -5000) := by decide

theorem test_hyps_ResultIsWrittenBack_carries :
    ∀ fs ∈ [(scanResult scan69 0 (List.replicate 16 ⟨station0, .notReached⟩)).fields,
        [(0x40, leBytes 4 1), (0x44, leBytes 4 0), (0x50, leBytes 8 0), (0x58, leBytes 4 0), (0x5C, leBytes 1 0),
          (0x5D, leBytes 1 2)]],
      fs ≠ [] ∧ (∀ f ∈ fs, f.2 ≠ [] ∧ f.1 / 256 = (f.1 + f.2.length - 1) / 256 ∧ f.1 + f.2.length ≤ 512) ∧
      fs.Pairwise (fun f g => f.1 + f.2.length ≤ g.1) := by decide +kernel

theorem test_hyps_PhotoWritesComplete_ends :
    (let j := { scan69 with phase := .ending }
     (photoWrite .photoHeader none (.scan j) 1 0).job = some (.scan j) ∧ j.phase = .ending ∧ j.endWait = .none) ∧
    ({ scan69 with phase := .ending, endWait := .mark }.endWait ≠ .none ∧ scan69.phase ≠ .ending) ∧
    (∀ c ∈ [(⟨.present, none, none, true, true, true, false⟩ : Camera), ⟨.absent, none, none, false, false, true, false⟩],
      decide (c.presence = .present ∧ c.checkDue = false) = false) ∧
    (withCamera ready).camera.checkDue = false := by decide +kernel

theorem test_hyps_ProfileLoaded_bound :
    0 ∈ profile28.jitter ∧ (∀ x ∈ profile28.jitter, 0 ≤ x) ∧ 1 ≤ profile28.base + 0 ∧
    (768000 + 128000 ≤ profile28.inFlightBound * 32000 ∧ profile28.inFlightBound = 28) := by decide

theorem test_hyps_RowsAreTaken_header :
    (let q := { photograph 5 5 false none with exposureEnd := none, midAzimuth := some 5, midShot := some 3, line := none }
     q.midAzimuth = some 5 ∧ q.midShot = some 3 ∧ q.line = none) ∧
    (photograph 5 5 false none).midShot = none ∧ (photograph 5 5 false none).line = some 4 := by decide

theorem test_setup_address_two_to_the_48 :
    firstFailure (setupItems (2 ^ 48) 0 0 0) = some 1 ∧ firstFailure (setupItems (2 ^ 48 - 256) 4 0 0) = none ∧
    firstFailure (setupItems 0 0 0 0) = some 2 := by decide

/-! ## Clauses of the fifth sitting -/

theorem test_hyps_CameraPresence_present_busy :
    ∀ p ∈ [photograph 0 2048 true none, photograph 0 2048 false none, photograph 0 2048 false (some .memory)],
    ∀ x ∈ [PhotoState.exposing, .readout],
      (shooting x p 0).camera.presentIn = true ∧ (shooting x p 0).camera.presence = .present ∧
      (shooting x p 0).camera.errorIn = false ∧ (shooting x p 0).photo.state.busy = true ∧
      (shooting x p 0).photo.current = some p := by decide

/-- What a page's field write carries, its descriptor at 100040h. -/
theorem test_field_write :
    let p := { page0 with index := 1, fill := 0x1234, sequence := 7, sealing := some .cut, firstLine := some 5 }
    let w := Fields.toWrite (pageFields p)
    FieldWrite .sealField p 3 0x100040 (maskedTransfer .descriptor .sealField (0x100040 + w.offset) w.data w.mask) :=
  ⟨⟨rfl, rfl, rfl, rfl⟩, ⟨by decide, by decide, by decide⟩, by decide, by decide, by decide, by decide +kernel,
   by decide +kernel, by decide⟩

/-- A SETUP while a read of the ended pass is outstanding: the new pass's first read is asked for, and is not granted before
the old one's outcome is reported. -/
theorem test_setup_pass_waits :
    let s := passing 0 false
    let t := advancePages (acceptTable 0x300000 4 0 0 { s with staging := (queued [.mark 7 0] s).staging })
    let old := t.port.outOf .descriptor
    old.length = 1 ∧ t.port.control.map (fun x => (x.purpose, x.addr)) = [(.descriptorRead, 0x300000)] ∧
    (t.port.grant 0 0).2 = none ∧
    ((t.port.setOut .descriptor []).grant 0 0).2.map (fun x => x.addr) = some 0x300000 := by decide +kernel

/-! ## Clauses of the sixth sitting -/

theorem test_hyps_FailureStopsScanLine_index :
    (∀ s ∈ [scanning, waiting, firing, inFlight, draining [] .permit],
      s.job = some (.scan scan69) ∧ scan69.phase = .scanning ∧ s.mirror.state = .locked ∧ s.mirror.lastIndex = some 0 ∧
      outsideLossBand s.mirror.target ((observe (time 544217688) s).now - 0) = true ∧
      outsideLossBand s.mirror.target ((observe (time 544217687) s).now - 0) = false) ∧
    ((inFlight.sched.permit = true ∧ inFlight.sched.firing = .firing) ∧ waiting.sched.permit = false) ∧
    ((after (.mirrorIndexMark (time 544217688)) inFlight).scanJob.isSome = true ∧
      (after (.mirrorIndexMark (time 544217688)) { scanning with reader := scanning.reader.lost }).scanJob = none) := by
  decide +kernel

theorem test_hyps_RefusedActionsChangeNothing_abandoned :
    ∃ p, (paged { page0 with stage := .abandoned } ready).pages.current = some p ∧ p.stage = .abandoned ∧ p.sealing = none :=
  ⟨_, rfl, rfl, rfl⟩

/-- The last descriptor of a pass, a job running, a wake seen during the pass. -/
def passingLast (job : Job) (again : Bool) : State :=
  { passing 3 false with job := some job, pages := { (passing 3 false).pages with lookAgain := again } }

theorem test_hyps_DescriptorReadTakesOrSkips_pass_ends :
    (let j := { scan69 with phase := .ending, endWait := .drain, abortTaken := true }
     (passingLast (.scan j) true).job = some (.scan j) ∧ j.phase = .ending ∧ j.endWait ≠ .none ∧ j.abortTaken = true ∧
     { j with abortTaken := false }.abortTaken = false) ∧
    (passingLast (.sealWait .mark ⟨.none, 0, []⟩) false).waitsOnPages = true ∧
    ((passingLast .spinWait true).pages.lookAgain = true ∧ (passingLast .spinWait false).pages.lookAgain = false) ∧
    (∀ b ∈ [true, false], OldestAwaits 0 (passingLast .spinWait b) (transferOf .descriptor .descriptorRead false 0x100000 64) []) :=
  ⟨by decide, by decide, by decide, fun _ _ => ⟨⟨some 3200000, rfl⟩, rfl, fun o ho => by cases ho⟩⟩

/-- A PHOTO job that waits on its seal. -/
def photoSealing : PhotoJob := ⟨1, 0, 1, none, false, true, false⟩

theorem test_hyps_DescriptorWritesInOrder_photo :
    let s := descriptorWrite .sealState false (some (.photo photoSealing)) (some begunMark)
    s.sealBegun = true ∧ s.job = some (.photo photoSealing) ∧ photoSealing.sealWait = true ∧
    photoSealing.lateCause = false ∧ s.reader.writeBackLost = false := by decide

theorem test_hyps_PageManagerActsLast_nothing_to_seal :
    let j := { scan69 with phase := .ending, endWait := .mark }
    (∀ job ∈ [Job.scan j, .photo photoSealing],
      let u := marked none job
      u.pages.mark = some ⟨0, .jobEnd, false⟩ ∧ u.reached 0 = true ∧ u.pages.discarding = none ∧
      u.pages.current = none ∧ u.job = some job ∧ u.reader.writeBackLost = false) ∧
    j.endWait ≠ .none ∧ photoSealing.sealWait = true ∧ photoSealing.lateCause = false := by decide

/-- A job that runs when an ABORT comes, a write-back of it lost or not. -/
def aborting (lost : Bool) (job : Job) : State :=
  { running job with reader := if lost then ready.reader.lost else ready.reader }

theorem test_hyps_AbortEndsWaitingJob_lost :
    (∀ lost ∈ [true, false],
      ∀ job ∈ [Job.spinWait, .turnWait, .profileRead 1 0x5000, .reportWrite, .markWait, .sealWait .report ⟨.memoryFault, 0, []⟩,
        .photo photoSealing, .photo { photoSealing with sealWait := false },
        .scan { scan69 with phase := .hold }, .scan { scan69 with phase := .position, endWait := .mark },
        .scan { scan69 with phase := .runIn }, .scan { scan69 with phase := .ending, endWait := .drain }],
      (aborting lost job).job = some job ∧ (aborting lost job).reader.writeBackLost = lost) ∧
    (∀ job ∈ [Job.spinWait, .photo photoSealing], ∀ j, job = .scan j → j.phase ≠ .scanning) ∧
    (∀ x ∈ [ScanPhase.hold, .position, .runIn, .ending], x ≠ .scanning) := by
  refine ⟨by decide, fun job h j e => ?_, by decide⟩
  subst e; simp at h

theorem test_hyps_FaultsAndHeldAnswers_write_back_lost :
    let t := transferOf .chain .blockWrite true 0x1000 8
    ∀ job ∈ [Job.spinWait, .photo photoSealing, .photo { photoSealing with sealWait := false },
        .scan { scan69 with phase := .runIn }, .scan { scan69 with phase := .ending, endWait := .mark }],
      let s := faulting .chain .blockWrite false (running job)
      t.requester = .chain ∧ OldestAwaits 0 s t [] ∧ t.purpose = .blockWrite ∧ s.job = some job :=
  fun _ _ => ⟨rfl, (faulting_awaits _ _ false _).2, rfl, rfl⟩

/-- The discard of a draining scan takes the discarding line's trailer behind a GAP: no line is discarding any more, as with
no such trailer it stays. -/
theorem test_discard_clears_discarding_line :
    let j := { scan69 with phase := .ending, endWait := .drain }
    let s := queued [.gap .zero, .trailer trailer0] (running (.scan j))
    let q (line : Nat) := (discardQueued { s with pages := { s.pages with discarding := some (1, line) } }).1
    (q 0).pages.discarding = none ∧ (q 0).staging.entries.map (·.record) = [.gap .zero] ∧
    (q 4).pages.discarding = some (1, 4) := by decide

end Sys2Proof.Tests
end

/-! PROOFS. PARK (R11): the frame of a job's dispatch, the end of a short job with an open detail, and the mirror's table. -/

namespace Sys2Proof.Machine

variable {s : State}

/-- A frame of named fields holds of more of them. -/
theorem OnlyIn.widen {l l' : List Field} {t : State} (h : OnlyIn (fields l) s t) (sub : ∀ f ∈ l, f ∈ l') :
    OnlyIn (fields l') s t :=
  h.mono fun f hf => decide_eq_true (sub f (of_decide_eq_true hf))

/-! ## Dispatch (R174) -/

/-- What the dispatch of a job may have touched before the job's owner acts. -/
theorem dispatched_onlyIn (m : Moment) (t : Transfer) (rest : List Outstanding) (s : State) :
    OnlyIn (fields [.time, .angle, .azimuth, .rest, .port, .issueSlot, .rstin, .out, .jobSerial, .reader]) s
      (dispatched m t rest s) := by
  have moment := observe_onlyIn m s
  have answer := reported_onlyIn m t rest s
  have numbered : OnlyIn (fields [.jobSerial, .reader]) (reported m t rest s) (dispatched m t rest s) :=
    (setReader_acts _ (setJobSerial_acts _ (Acts.refl _ _) rfl) rfl).only
  exact ((moment.widen (by decide)).trans (answer.widen (by decide))).trans (numbered.widen (by decide))

theorem dispatched_reader (m : Moment) (t : Transfer) (rest : List Outstanding) (s : State) :
    (dispatched m t rest s).reader = { s.reader with activity := .job } := rfl

/-- The seal-at-end flag stands in the block, which the dispatch leaves alone (R179). -/
theorem dispatched_seals (m : Moment) (t : Transfer) (rest : List Outstanding) (s : State) :
    (dispatched m t rest s).seals = s.seals := rfl

/-! ## A short job's end with an open detail (log 15) -/

theorem finishOpen_finishes (kind : JobKind) (c : ResultCode) (h : s.reader.writeBackLost = false) :
    Finishes kind ⟨c, openDetail s, []⟩ s.seals s.staging.nextSeq (finishOpen kind c s) :=
  finishJob_finishes (s := s.spendFree) h

theorem finishOpen_onlyIn (kind : JobKind) (c : ResultCode) (h : s.reader.writeBackLost = false) :
    OnlyIn (fields [.job, .reader, .port, .pages, .freeCount]) s (finishOpen kind c s) := by
  have spent : OnlyIn (fields [.freeCount]) s s.spendFree := (spendFree_acts (Acts.refl _ s) rfl).only
  have ended : OnlyIn (fields [.job, .reader, .port, .pages]) s.spendFree (finishOpen kind c s) := finishJob_onlyIn h
  exact (spent.widen (by decide)).trans (ended.widen (by decide))

/-! ## The mirror under a PARK (R11) -/

theorem parkMirror_of_resting {x : Mirror} (h : x.state = .parked ∨ x.state = .spinningDown) : parkMirror x = x := by
  rcases h with h | h <;> simp [parkMirror, h]

theorem parkMirror_of_driven {x : Mirror} (h : x.state = .spinningUp ∨ x.state = .locked ∨ x.state = .unlocked) :
    parkMirror x = { x with state := .spinningDown, lockCount := 0, spinUpEnd := none, watchdogFrom := none } := by
  rcases h with h | h | h <;> simp [parkMirror, h]

theorem parkMirror_of_fault {x : Mirror} (h : x.state = .fault) :
    parkMirror x = { x with state := .parked, target := 0 } := by
  simp [parkMirror, h]

/-! ## The PARK job -/

theorem takePark_mirror (h : s.reader.writeBackLost = false) : (takePark s).mirror = parkMirror s.mirror :=
  finishOpen_onlyIn (s := s.setMirror (parkMirror s.mirror)) .park .none h .mirror rfl

theorem takePark_onlyIn (h : s.reader.writeBackLost = false) :
    OnlyIn (fields [.mirror, .job, .reader, .port, .pages, .freeCount]) s (takePark s) := by
  have moved : OnlyIn (fields [.mirror]) s (s.setMirror (parkMirror s.mirror)) :=
    (setMirror_acts _ (Acts.refl _ s) rfl).only
  have ended : OnlyIn (fields [.job, .reader, .port, .pages, .freeCount]) (s.setMirror (parkMirror s.mirror))
      (takePark s) := finishOpen_onlyIn .park .none h
  exact (moved.widen (by decide)).trans (ended.widen (by decide))

theorem takePark_finishes (h : s.reader.writeBackLost = false) :
    ∃ detail, Finishes .park ⟨.none, detail, []⟩ s.seals s.staging.nextSeq (takePark s) :=
  ⟨_, finishOpen_finishes (s := s.setMirror (parkMirror s.mirror)) .park .none h⟩

/-- The PARK row is the dispatch of the PARK block whose TAKEN write is outstanding (R11, R174). -/
theorem exec_park_eq (m : Moment) (t : Transfer) (rest : List Outstanding) (h : AwaitsDispatch m.transfer s .park t rest) :
    exec (.park m) s = .next (advancePages (takePark (dispatched m t rest s))) :=
  congrArg Host.Outcome.next (dispatchEvent_eq m.transfer m s .park t rest h)

/-- Settles O27: PARK moves the mirror by the table of R11, and finishes as a short job with an open detail. -/
theorem parkTaken : Obligations.ParkTaken := by
  unfold Obligations.ParkTaken
  rintro m s d t rest awaits rfl
  have lost : (dispatched m t rest s).reader.writeBackLost = false := by
    obtain ⟨_, noLoss, _⟩ := awaits
    rw [dispatched_reader]; exact noLoss
  have mirror : (takePark (dispatched m t rest s)).mirror = parkMirror s.mirror := by
    rw [takePark_mirror lost, dispatched_onlyIn m t rest s .mirror rfl]
  obtain ⟨detail, finishes⟩ := takePark_finishes lost
  rw [dispatched_seals, dispatched_onlyIn m t rest s .staging rfl] at finishes
  refine ⟨takePark (dispatched m t rest s), detail, exec_park_eq m t rest awaits, ?resting, ?driven, ?fault, finishes,
    takePark_onlyIn lost⟩
  case resting => exact fun h => mirror.trans (parkMirror_of_resting h)
  case driven =>
    intro h
    rw [mirror, parkMirror_of_driven h]
    exact ⟨rfl, rfl⟩
  case fault => exact fun h => mirror.trans (parkMirror_of_fault h)

end Sys2Proof.Machine

/-! PROOFS. ECHO_EVENT in SCANNING (R46, R48): where an event in order goes, and a TARGET event in a blanking interval. -/

namespace Sys2Proof.Machine

variable {s : State} {j : ScanJob} {sl : Slot} {e : Echo} {o : OpenShot}

/-- The scan that is SCANNING. -/
theorem scanJob_of_scanning (h : s.scanning = true) : ∃ j, s.scanJob = some j ∧ j.phase = .scanning := by
  unfold State.scanning at h
  split at h
  next => cases h
  next j job => exact ⟨j, job, of_decide_eq_true h⟩

/-- An event in SCANNING, at or after the last stamp taken, sets that stamp and goes to its channel (R46). -/
theorem echoArrives_inOrder (ch : Channel) (job : s.scanJob = some j) (slot : s.scanSlot = some sl)
    (phase : j.phase = .scanning) (order : s.intake.lastStamp ≤ e.stamp) :
    echoArrives ch e s = sortEcho ch j sl e (s.setIntake { s.intake with lastStamp := e.stamp }) := by
  simp only [echoArrives, job, slot]
  rw [if_pos phase, if_neg (Nat.not_lt.mpr order)]

/-- The ECHO_EVENT row in SCANNING and in order: the moment moves neither the scan nor the last stamp (R46). -/
theorem exec_echoEvent_inOrder (m : Moment) (ch : Channel) (stamp : Word) (amp width : BitVec 16) (sat : Bool)
    (job : s.scanJob = some j) (slot : s.scanSlot = some sl) (phase : j.phase = .scanning)
    (order : s.intake.lastStamp ≤ stamp.toNat) :
    exec (.echoEvent m ch stamp amp width sat) s =
      .next (sortEcho ch j sl (echoOf stamp amp width sat)
        ((observe m s).setIntake { s.intake with lastStamp := stamp.toNat })) :=
  congrArg Host.Outcome.next (echoArrives_inOrder (s := observe m s) ch job slot phase order)

theorem blanks_iff (o : OpenShot) (blanking t : Nat) :
    o.blanks blanking t = true ↔ o.fire ≤ t ∧ t < o.fire + blanking := by
  simp [OpenShot.blanks]

/-- Blanking comes before the line's state and the candidates, and a shot of either kind blanks (R48). -/
theorem targetEcho_of_blanked (j : ScanJob) (mem : o ∈ s.shots) (hit : o.blanks sl.profile.blanking e.stamp = true) :
    targetEcho j sl e s = countBlanked s :=
  if_pos (List.any_eq_true.mpr ⟨o, mem, hit⟩)

/-- Settles O42: an event in order reaches the TARGET channel, where one open shot that blanks its stamp makes it a blanked
event, whatever the line, the candidates and the tracker. -/
theorem blankedEchoIsCounted : Obligations.BlankedEchoIsCounted := by
  unfold Obligations.BlankedEchoIsCounted
  rintro m stamp amp width sat s b sl o rfl scanning slot order mem fired inside
  obtain ⟨j, job, phase⟩ := scanJob_of_scanning scanning
  have hit : o.blanks sl.profile.blanking stamp.toNat = true := (blanks_iff ..).mpr ⟨fired, inside⟩
  have blanked := targetEcho_of_blanked (e := echoOf stamp amp width sat) j
    (s := (observe m s).setIntake { s.intake with lastStamp := stamp.toNat }) mem hit
  calc exec (.echoEvent m .target stamp amp width sat) s
      = .next (targetEcho j sl (echoOf stamp amp width sat)
          ((observe m s).setIntake { s.intake with lastStamp := stamp.toNat })) :=
        exec_echoEvent_inOrder m .target stamp amp width sat job slot phase order
    _ = .next (countBlanked ((observe m s).setIntake { s.intake with lastStamp := stamp.toNat })) :=
        congrArg Host.Outcome.next blanked

end Sys2Proof.Machine

/-! PROOFS. SHOT_EXPIRY (R42, R75): the due shot's way to the Record Builder, and a REFERENCE shot that closes with an
echo. -/

namespace Sys2Proof.Machine

variable {s : State} {j : ScanJob} {sl : Slot} {o : OpenShot} {e : Echo} {before after : List OpenShot}

/-! ## The open shot list at an expiry (R42) -/

theorem find_due_shot {now : Nat} (unique : ∀ x ∈ before, x.number ≠ o.number) (due : o.expiry ≤ now) :
    (before ++ o :: after).find? (fun x => decide (x.number = o.number) && decide (x.expiry ≤ now)) = some o := by
  have passed : before.find? (fun x => decide (x.number = o.number) && decide (x.expiry ≤ now)) = none :=
    List.find?_eq_none.mpr fun x mem => by simp [unique x mem]
  rw [List.find?_append, passed, Option.none_or]
  exact List.find?_cons_of_pos (by simp [due])

/-- The entry of a number that stands once leaves the list, and the others keep their order. -/
theorem filter_out_shot (unique : ∀ x ∈ before ++ after, x.number ≠ o.number) :
    (before ++ o :: after).filter (fun x => decide (x.number ≠ o.number)) = before ++ after := by
  have kept : (before ++ after).filter (fun x => decide (x.number ≠ o.number)) = before ++ after :=
    List.filter_eq_self.mpr fun x mem => decide_eq_true (unique x mem)
  rw [List.filter_append] at kept ⊢
  rw [List.filter_cons_of_neg (by simp), kept]

/-- A due shot is handed over, then the line may close and a waiting shot may fire (R42, R70, R34). -/
theorem shotExpires_due (shots : s.shots = before ++ o :: after) (unique : ∀ x ∈ before ++ after, x.number ≠ o.number)
    (due : o.expiry ≤ s.now) : shotExpires o.number s = advancePages (placeFree (closeCheck (handShot o s))) := by
  have found := find_due_shot (after := after) (fun x mem => unique x (List.mem_append_left _ mem)) due
  simp only [shotExpires, shots, found]

/-- A close that makes no eighth miss in a row hands the shot to the Record Builder and does no more (R42, R76). -/
theorem handShot_of_not_lost {t : State} (shots : s.shots = before ++ o :: after)
    (unique : ∀ x ∈ before ++ after, x.number ≠ o.number) (closed : shotClosed o (s.setShots (before ++ after)) = t)
    (run : t.line.missRun ≠ missLimit) : handShot o s = t := by
  have kept : referenceLostAt (s.setShots (before ++ after)) t = false := by simp [referenceLostAt, run]
  simp only [handShot, shots, filter_out_shot unique, closed, kept, Bool.false_eq_true, if_false]

/-! ## The offset's slot (R75) -/

/-- The new offset is the whole number `q` whose quarter holds the sum: the rounding is downward also below 0. -/
theorem newOffset_eq_of_bounds {old seen q : Int} (lower : 4 * q ≤ 3 * old + seen) (upper : 3 * old + seen < 4 * q + 4) :
    newOffset old seen = q := by
  unfold newOffset
  omega

theorem Slots.get_set_same {x : Slots} {i : Nat} {old : Slot} (valid : x.get i = some old) (new : Slot) :
    (x.set i new).get i = some new := by
  match i with
  | 0 | 1 | 2 | 3 => rfl
  | _ + 4 => cases valid

theorem Slots.get_set_of_ne (x : Slots) (new : Slot) {i k : Nat} (h : i ≠ k) : (x.set k new).get i = x.get i := by
  unfold Slots.set
  split
  case h_5 => rfl
  all_goals
    unfold Slots.get
    split <;> simp at h ⊢

/-! ## A REFERENCE shot with an echo (R75) -/

theorem scanJob_of_job (h : s.job = some (.scan j)) : s.scanJob = some j := by
  simp only [State.scanJob, h]

/-- A scan has a slot only where the store holds one under the slot number of its parameters (R147). -/
theorem slots_get_of_scanSlot (job : s.scanJob = some j) (slot : s.scanSlot = some sl) :
    s.slots.get j.params.slot = some sl := by
  simpa only [State.scanSlot, job, Option.bind_some] using slot

/-- Only the slot's offset and the run of misses move: no record is offered (R75). -/
theorem shotClosed_of_reference_echo {more : List Echo} (job : s.scanJob = some j) (slot : s.scanSlot = some sl)
    (kind : o.kind = .reference) (echoes : o.echoes = e :: more) :
    shotClosed o s = { s with
      slots := s.slots.set j.params.slot
        { sl with offset := newOffset sl.offset ((e.stamp : Int) - o.fire - sl.profile.refConstant) },
      line := { s.line with missRun := 0 } } := by
  simp only [shotClosed, job, slot, kind, echoes]
  rfl

/-- Settles O47: the due shot leaves the list and closes with its echo; the run of misses being 0, the reference is not
lost, and the floor is the one whole number within the bounds. -/
theorem referenceShotMovesOffset : Obligations.ReferenceShotMovesOffset := by
  unfold Obligations.ReferenceShotMovesOffset
  refine ⟨?update, by decide, by decide⟩
  rintro m s b j sl o e more before after q rfl shots unique due job slot kind echoes lower upper
  have running : s.scanJob = some j := scanJob_of_job job
  have offset := newOffset_eq_of_bounds lower upper
  have closed := shotClosed_of_reference_echo (s := (observe m s).setShots (before ++ after)) running slot kind echoes
  rw [offset] at closed
  have noMisses : 0 ≠ missLimit := by decide
  have handed := handShot_of_not_lost (s := observe m s) shots unique closed noMisses
  refine ⟨?_, Slots.get_set_same (slots_get_of_scanSlot running slot) _, fun i => Slots.get_set_of_ne s.slots _⟩
  calc exec (.shotExpiry m o.number) s
      = .next (shotExpires o.number (observe m s)) := rfl
    _ = .next (advancePages (placeFree (closeCheck (handShot o (observe m s))))) :=
        congrArg Host.Outcome.next (shotExpires_due (s := observe m s) shots unique due)
    _ = _ := by rw [handed]; rfl

end Sys2Proof.Machine

/-! PROOFS. What a command can do, said once: an event of the block is one operation of Laws/Acts, a read of NOTICE, a grant,
a shot, or the answer to a transfer with what is reported then. What all of these keep, every command keeps. -/

namespace Sys2Proof

/-- The fields that a command may touch beside its moment: the counter, the azimuth, the rest watch, RSTIN and the queue are
the moment's or nobody's, and the angle is set by an index mark alone (R1). -/
def Instr.mayTouch (c : Instr) : Machine.Field → Bool
  | .time | .azimuth | .rest | .rstin | .pending => false
  | .angle => match c with
    | .mirrorIndexMark _ => true
    | _ => false
  | _ => true

/-- The commands that fire: a fire time, and the expiry of a shot, which may let a waiting shot fire (R31, R34). -/
def Instr.fires : Instr → Bool
  | .fireTime _ | .shotExpiry _ _ => true
  | _ => false

/-- The commands whose event is one operation of the block, which neither answers a transfer, nor reads, grants, fires or
resets. -/
def Instr.plain : Instr → Bool
  | .abort _ | .halt _ | .resume _ | .cut _ | .chainStart _ _ | .look _ | .noticeMask _ _ | .mirrorIndexMark _
  | .rateWatchExpiry _ | .indexWatchdogExpiry _ | .spinUpLimitExpiry _ | .holdBandEntry _ | .holdBandExit _
  | .settleTimerExpiry _ | .slewLimitExpiry _ | .turntableAtRest _ | .emitPermitDeasserted _ | .emitPermitAsserted _
  | .emitPermitCountExpiry _ | .sectorEntry _ | .sectorExit _ | .echoEvent _ _ _ _ _ _ | .pollTick _
  | .runInDelayExpiry _ | .runInComplete _ | .midExposureTimerExpiry _ | .exposureTimerExpiry _ | .row _ _
  | .rowTimeout _ | .presenceAsserted _ | .presenceDeasserted _ | .presenceTimerExpiry _ | .errorAsserted _
  | .errorDeasserted _ | .checkTimerExpiry _ | .pulseEnd _ => true
  | _ => false

/-- The resets, and REGISTER_WRITE, which may be one. -/
def Instr.mayReset : Instr → Bool
  | .powerOnReset _ | .reset _ | .registerWrite _ _ _ _ => true
  | _ => false

end Sys2Proof

namespace Sys2Proof.Machine

variable {p : Field → Bool} {I : State → Prop} {s t : State}

/-! ## Answers and reports in pieces (R165, R167) -/

/-- A predicate that an answer taken, the report of a transfer, and what its requester and the Page Manager do then, keep. -/
structure KeptByReports (I : State → Prop) : Prop where
  answers : ∀ r place a s, I s → I (s.setPort (s.port.answerAt r place a))
  leaves  : ∀ r o rest s, s.port.outOf r = o :: rest → I s → I (s.setPort (s.port.setOut r rest))
  latches : ∀ t timeout s, I s → I (latchFault t timeout s)
  lands   : ∀ t s, I s → I (landed t s)
  outcome : ∀ t a s, I s → I (reportOutcome t a s)
  pages   : ∀ s, I s → I (advancePages s)

/-- The fields that the report of an outcome may touch. -/
def reportSide : List Field :=
  [.mirror, .turntable, .sector, .sched, .tracker, .intake, .line, .staging, .loss, .markWait, .pages, .job, .jobSerial,
   .camera, .photo, .slots, .port, .reader, .notices, .out, .freeCount]

/-- A predicate that every operation of Laws/Acts keeps is kept by reports where it is kept by what moves the port. -/
theorem KeptByReports.of_acts (all : ∀ f ∈ reportSide, p f = true) (acts : ∀ {s t}, Acts p s t → I s → I t)
    (answers : ∀ r place a s, I s → I (s.setPort (s.port.answerAt r place a)))
    (leaves : ∀ r o rest s, s.port.outOf r = o :: rest → I s → I (s.setPort (s.port.setOut r rest)))
    (latches : ∀ t timeout s, I s → I (latchFault t timeout s)) : KeptByReports I where
  answers := answers
  leaves := leaves
  latches := latches
  lands t _ h := acts (landed_acts t (.refl _ _) (all _ (by decide))) h
  outcome t a s h := acts (s := s) (by apply reportOutcome_acts <;> first | exact Acts.refl _ _ | exact all _ (by decide)) h
  pages s h := acts (s := s) (by apply advancePages_acts <;> first | exact Acts.refl _ _ | exact all _ (by decide)) h

theorem KeptByReports.reportAnswered (k : KeptByReports I) (r : Requester) (n : Nat) :
    ∀ s, I s → I (reportAnswered r n s) := by
  induction n with
  | zero => exact fun _ h => h
  | succ n ih =>
    intro s h
    unfold Machine.reportAnswered
    split
    next => exact h
    next o rest out =>
      split
      next => exact h
      next data _ => exact ih _ (k.outcome _ _ _ (k.leaves r o rest s out h))
      next => exact ih _ (k.outcome _ _ _ (k.leaves r o rest s out h))

theorem KeptByReports.settle (k : KeptByReports I) (r : Requester) (h : I s) : I (settle r s) :=
  k.pages _ (k.reportAnswered r _ s h)

theorem KeptByReports.completes (k : KeptByReports I) (r : Requester) (id : Nat)
    (which : Purpose → Bool) (data : List Byte) (h : I s) : I (completeOldest r id which data s) := by
  unfold completeOldest
  split
  next o _ =>
    split
    next => exact k.settle r (k.lands _ _ (k.answers r 0 _ s h))
    next => exact h
  next => exact h

theorem KeptByReports.faultAt (k : KeptByReports I) (r : Requester) (place : Nat)
    (timeout : Bool) (o : Outstanding) (h : I s) : I (faultAt r place timeout o s) :=
  k.settle r (k.latches _ _ _ (k.answers r place _ s h))

theorem KeptByReports.holdAt (k : KeptByReports I) (r : Requester) (place : Nat)
    (data : List Byte) (h : I s) : I (holdAt r place data s) := by
  unfold Machine.holdAt
  split
  next o _ =>
    split
    next => exact h
    next => exact k.lands _ _ (k.answers r place _ s h)
  next => exact h

/-! ## Every event -/

/-- A predicate that a read of NOTICE, a grant, and every answer to a transfer keep. -/
structure KeptByEvents (I : State → Prop) : Prop where
  reads     : ∀ first count s, I s → I (readNotice first count s)
  grants    : ∀ s, I s → I (arbitrate s)
  completes : ∀ r id which data s, I s → I (completeOldest r id which data s)
  faults    : ∀ r place timeout o s, I s → s.port.awaitsAt r place = some o → I (faultAt r place timeout o s)
  holds     : ∀ r place data s, I s → I (holdAt r place data s)

theorem KeptByReports.events (k : KeptByReports I) (reads : ∀ first count s, I s → I (readNotice first count s))
    (grants : ∀ s, I s → I (arbitrate s)) : KeptByEvents I where
  reads := reads
  grants := grants
  completes r id which data _ h := k.completes r id which data h
  faults r place timeout o _ h _ := k.faultAt r place timeout o h
  holds r place data _ h := k.holdAt r place data h

theorem atTransfer_cases (r : Requester) (id : Nat) (act : Nat → State → State) (s : State) :
    atTransfer r id act s = s ∨ ∃ place, s.port.placeOf r id = some place ∧ atTransfer r id act s = act place s := by
  unfold atTransfer
  split
  next place e => exact .inr ⟨place, e, rfl⟩
  next => exact .inl rfl

theorem errsAt_cases (r : Requester) (place : Nat) (s : State) :
    errsAt r place s = s ∨ ∃ o, s.port.awaitsAt r place = some o ∧ errsAt r place s = faultAt r place false o s := by
  unfold errsAt
  split
  next o e => exact .inr ⟨o, e, rfl⟩
  next => exact .inl rfl

theorem timesOutAt_cases (r : Requester) (place : Nat) (s : State) :
    timesOutAt r place s = s ∨ ∃ o, s.port.awaitsAt r place = some o ∧ timesOutAt r place s = faultAt r place true o s := by
  unfold timesOutAt
  split
  next o e =>
    split
    next => exact .inr ⟨o, e, rfl⟩
    next => exact .inl rfl
  next => exact .inl rfl

theorem KeptByEvents.errs (k : KeptByEvents I) (r : Requester) (id : Nat) (h : I s) : I (transferErrs r id s) := by
  rcases atTransfer_cases r id (errsAt r) s with e | ⟨place, -, e⟩ <;> rw [transferErrs, e]
  · exact h
  · rcases errsAt_cases r place s with e | ⟨o, awaits, e⟩ <;> rw [e]
    · exact h
    · exact k.faults r place _ o s h awaits

theorem KeptByEvents.timesOut (k : KeptByEvents I) (r : Requester) (id : Nat) (h : I s) : I (transferTimesOut r id s) := by
  rcases atTransfer_cases r id (timesOutAt r) s with e | ⟨place, -, e⟩ <;> rw [transferTimesOut, e]
  · exact h
  · rcases timesOutAt_cases r place s with e | ⟨o, awaits, e⟩ <;> rw [e]
    · exact h
    · exact k.faults r place _ o s h awaits

theorem KeptByEvents.answersEarly (k : KeptByEvents I) (r : Requester) (id : Nat) (data : List Byte) (h : I s) :
    I (holdAnswer r id data s) := by
  rcases atTransfer_cases r id (fun place => holdAt r place data) s with e | ⟨place, -, e⟩ <;> rw [holdAnswer, e]
  · exact h
  · exact k.holds r place data s h

/-- A predicate that a shot fired into a list with a place free keeps. -/
def KeptByShots (I : State → Prop) : Prop := ∀ f s, s.shots.length < shotCapacity → I s → I (fireShot f s)

theorem fireTimeComes_keeps (fires : KeptByShots I) (waits : I s → I (s.setSched { s.sched with shotWaits := true })) (h : I s) :
    I (fireTimeComes s) := by
  unfold fireTimeComes
  split
  next f _ =>
    split
    next =>
      split
      next room => exact fires f s room h
      next => exact waits h
    next => exact h
  next => exact h

theorem placeFree_keeps (fires : KeptByShots I) (h : I s) : I (placeFree s) := by
  unfold placeFree
  split
  next due => exact fires s.now s due.2.2 h
  next => exact h

/-- A plain command is one operation of the block. -/
theorem exec_plain_acts {c : Instr} (plain : c.plain = true) (s : State) :
    ∃ t, exec c s = .next t ∧ Acts c.mayTouch (observe c.moment s) t := by
  cases c <;> first | (cases plain; done) | refine ⟨_, rfl, ?_⟩
  case abort => apply_rules [controlAbort_acts, Acts.refl]
  case halt => apply_rules [controlHalt_acts, Acts.refl]
  case resume => apply_rules [controlResume_acts, Acts.refl]
  case cut => apply_rules [controlCut_acts, Acts.refl]
  case chainStart => apply_rules [writeChainStart_acts, Acts.refl]
  case look => apply_rules [writeLook_acts, Acts.refl]
  case noticeMask => apply_rules [writeMask_acts, Acts.refl]
  case mirrorIndexMark => apply_rules [indexMark_acts, Acts.refl]
  case rateWatchExpiry => apply_rules [rateWatchOver_acts, Acts.refl]
  case indexWatchdogExpiry => apply_rules [watchdogOver_acts, Acts.refl]
  case spinUpLimitExpiry => apply_rules [spinUpLimitOver_acts, Acts.refl]
  case holdBandEntry => apply_rules [bandEntered_acts, Acts.refl]
  case holdBandExit => apply_rules [bandLeft_acts, Acts.refl]
  case settleTimerExpiry => apply_rules [settled_acts, Acts.refl]
  case slewLimitExpiry => apply_rules [slewLimitOver_acts, Acts.refl]
  case turntableAtRest => apply_rules [atRest_acts, Acts.refl]
  case emitPermitDeasserted => apply_rules [permitDeasserted_acts, Acts.refl]
  case emitPermitAsserted => apply_rules [permitAsserted_acts, Acts.refl]
  case emitPermitCountExpiry => apply_rules [permitCounted_acts, Acts.refl]
  case sectorEntry => apply_rules [sectorEntered_acts, Acts.refl]
  case sectorExit => apply_rules [sectorLeft_acts, Acts.refl]
  case echoEvent => apply_rules [echoArrives_acts, Acts.refl]
  case pollTick => apply_rules [pollTicks_acts, Acts.refl]
  case runInDelayExpiry => apply_rules [runInDelayOver_acts, Acts.refl]
  case runInComplete => apply_rules [runInCompletes_acts, Acts.refl]
  case midExposureTimerExpiry => apply_rules [midExposureOver_acts, Acts.refl]
  case exposureTimerExpiry => apply_rules [exposureTimeOver_acts, Acts.refl]
  case row => apply_rules [rowTaken_acts, Acts.refl]
  case rowTimeout => apply_rules [rowTimeOver_acts, Acts.refl]
  case presenceAsserted => apply_rules [presenceRises_acts, Acts.refl]
  case presenceDeasserted => apply_rules [presenceDrops_acts, Acts.refl]
  case presenceTimerExpiry => apply_rules [presenceTimeOver_acts, Acts.refl]
  case errorAsserted => apply_rules [errorRises_acts, Acts.refl]
  case errorDeasserted => apply_rules [errorDrops_acts, Acts.refl]
  case checkTimerExpiry => apply_rules [checkTimeOver_acts, Acts.refl]
  case pulseEnd => apply_rules [pulseOver_acts, Acts.refl]

/-- A command that fires is an operation of the block and at most one shot (R31, R34). -/
theorem exec_fires_keeps {c : Instr} (fires : c.fires = true) (acts : ∀ {s t}, Acts c.mayTouch s t → I s → I t)
    (shots : KeptByShots I) (h : I (observe c.moment s)) : ∃ t, exec c s = .next t ∧ I t := by
  cases c
  case fireTime =>
    exact ⟨_, rfl, fireTimeComes_keeps shots (acts (setSched_acts _ (.refl _ _) rfl (.inl ⟨rfl, rfl⟩))) h⟩
  case shotExpiry m n =>
    refine ⟨_, rfl, ?_⟩
    unfold shotExpires
    split
    next o _ =>
      have handed : Acts (Instr.shotExpiry m n).mayTouch (observe m s) (closeCheck (handShot o (observe m s))) := by
        apply_rules [closeCheck_acts, handShot_acts, Acts.refl]
      refine acts ?_ (placeFree_keeps shots (acts handed h))
      apply_rules [advancePages_acts, Acts.refl]
    next => exact h
  all_goals cases fires

/-- Every command but the resets and REGISTER_WRITE answers a next state, and keeps what every kind of event keeps. -/
theorem KeptByEvents.exec {c : Instr} (k : KeptByEvents I) (noReset : c.mayReset = false)
    (plain : c.plain = true → ∃ t, exec c s = .next t ∧ I t) (fires : c.fires = true → ∃ t, exec c s = .next t ∧ I t)
    (h : I (observe c.moment s)) : ∃ t, exec c s = .next t ∧ I t := by
  cases c
  case powerOnReset | reset | registerWrite => cases noReset
  case notice => exact ⟨_, rfl, k.reads _ _ _ h⟩
  case grant => exact ⟨_, rfl, k.grants _ h⟩
  case transferError => exact ⟨_, rfl, k.errs _ _ h⟩
  case transferTimeout => exact ⟨_, rfl, k.timesOut _ _ h⟩
  case heldAnswer => exact ⟨_, rfl, k.answersEarly _ _ _ h⟩
  case fireTime | shotExpiry => exact fires rfl
  case spin | park | turn | mark | setup | profile | report | scan | photo | takenWriteComplete | examinationReadComplete
    | blockWriteComplete | resultCodeWriteComplete | resultStateWriteComplete | linkReadComplete | profileReadComplete
    | reportWriteComplete | descriptorReadComplete | takeFieldWriteComplete | takeStateWriteComplete
    | sealFieldWriteComplete | sealStateWriteComplete | recordWriteComplete | rowWriteComplete | headerWriteComplete =>
    exact ⟨_, rfl, k.completes _ _ _ _ _ h⟩
  all_goals exact plain rfl

/-- A register write is a soft reset, or one operation of the block (R180, R181). -/
theorem windowWrite_cases (c : Instr) (offset count : Nat) (v : Word) (s : State) :
    windowWrite offset count v s = softReset s ∨ Acts c.mayTouch s (windowWrite offset count v s) := by
  unfold windowWrite
  split
  next =>
    split
    next => exact .inr (refuse_acts (.refl _ _) rfl)
    next =>
      unfold writeRegister
      split
      next => exact .inr (by apply_rules [writeChainStart_acts, Acts.refl])
      next => exact .inr (by apply_rules [writeLook_acts, Acts.refl])
      next =>
        unfold writeControl
        split
        next => exact .inr (by apply_rules [controlAbort_acts, Acts.refl])
        next => exact .inr (by apply_rules [controlHalt_acts, Acts.refl])
        next => exact .inr (by apply_rules [controlResume_acts, Acts.refl])
        next => exact .inr (by apply_rules [controlCut_acts, Acts.refl])
        next => exact .inl rfl
        next => exact .inr (refuse_acts (.refl _ _) rfl)
      next => exact .inr (writeMask_acts v (.refl _ _) rfl)
      next => exact .inr (refuse_acts (.refl _ _) rfl)
  next => exact .inr (.refl _ _)

theorem Acts.mono {q : Field → Bool} (h : Acts p s t) (hpq : ∀ f, p f = true → q f = true) : Acts q s t :=
  { h with only := h.only.mono hpq }

/-- What a step keeps: every kind of event, every register write, both resets, every moment, the queue, and the idle
counter. -/
structure KeptBySteps (I : State → Prop) : Prop where
  events  : KeptByEvents I
  plain   : ∀ c s, c.plain = true → I (observe c.moment s) → ∃ t, exec c s = .next t ∧ I t
  fires   : ∀ c s, c.fires = true → I (observe c.moment s) → ∃ t, exec c s = .next t ∧ I t
  write   : ∀ offset count v s, I s → I (windowWrite offset count v s)
  observe : ∀ m s, I s → I (observe m s)
  powerOn : ∀ rstin s, I s → I (powerOn rstin s)
  soft    : ∀ s, I s → I (softReset s)
  queue   : ∀ rest s, I s → I (s.setPending rest)
  idle    : ∀ s, I s → I (idle s)

/-- A predicate that every operation of Laws/Acts keeps is kept by steps where events, shots, resets, moments, the queue and
the idle counter keep it. -/
theorem KeptBySteps.of_acts (acts : ∀ {s t}, Acts (fun _ => true) s t → I s → I t) (events : KeptByEvents I)
    (shots : KeptByShots I) (observe : ∀ m s, I s → I (Machine.observe m s))
    (powerOn : ∀ rstin s, I s → I (Machine.powerOn rstin s))
    (soft : ∀ s, I s → I (softReset s)) (queue : ∀ rest s, I s → I (s.setPending rest))
    (idle : ∀ s, I s → I (Machine.idle s)) :
    KeptBySteps I where
  events := events
  plain _ s plain h := by
    obtain ⟨t, next, does⟩ := exec_plain_acts plain s
    exact ⟨t, next, acts (does.mono fun _ _ => rfl) h⟩
  fires _ _ fires h := exec_fires_keeps fires (fun a => acts (a.mono fun _ _ => rfl)) shots h
  write offset count v s h := by
    rcases windowWrite_cases (.registerWrite ⟨0, 0, 0, false, 0⟩ offset count v) offset count v s with e | a
    · rw [e]; exact soft _ h
    · exact acts (a.mono fun _ _ => rfl) h
  observe := observe
  powerOn := powerOn
  soft := soft
  queue := queue
  idle := idle

theorem KeptBySteps.exec (k : KeptBySteps I) (c : Instr) (h : I s) : ∃ t, exec c s = .next t ∧ I t := by
  have taken := k.observe c.moment s h
  cases reset : c.mayReset
  case false => exact k.events.exec reset (fun plain => k.plain c s plain taken) (fun fires => k.fires c s fires taken) taken
  case true =>
    cases c
    case powerOnReset => exact ⟨_, rfl, k.powerOn _ _ taken⟩
    case reset => exact ⟨_, rfl, k.soft _ taken⟩
    case registerWrite => exact ⟨_, rfl, k.write _ _ _ _ taken⟩
    all_goals cases reset

/-- A predicate kept by every way in which a command moves the block is kept by every step. -/
theorem KeptBySteps.step (k : KeptBySteps I) (h : I s) (e : step s = .next t) : I t := by
  unfold Machine.step at e
  split at e
  next => cases e; exact k.idle s h
  next c rest _ =>
    obtain ⟨u, next, held⟩ := k.exec c (k.queue rest s h)
    rw [next] at e
    cases e; exact held

end Sys2Proof.Machine

/-! PROOFS. The invariants of Notice Unit, Scheduler, buffers and Store Port, and what every command leaves of its moment. -/

namespace Sys2Proof.Machine

variable {s t : State}

/-! ## ATTN follows its mode (R189, R190) -/

theorem readNotice_attentionSound (first count : Nat) (h : AttentionSound s) : AttentionSound (readNotice first count s) := by
  unfold readNotice
  split
  next =>
    split
    next => exact driveAttn_sound s.now rfl rfl rfl h
    next => exact h
  next => exact h

/-- A grant moves the port, its issue slot, and the signals. -/
theorem arbitrate_onlyIn (s : State) : OnlyIn (fields [.port, .issueSlot, .out]) s (arbitrate s) := by
  unfold arbitrate
  split <;> (intro f hf; cases f <;> first | rfl | cases hf)

/-- A shot moves the Scheduler, the open shot list, the signals and the count of shots (R31). -/
theorem fireShot_onlyIn (f : Nat) (s : State) : OnlyIn (fields [.sched, .shots, .out, .counters]) s (fireShot f s) := by
  unfold fireShot
  split <;> (intro f hf; cases f <;> first | rfl | cases hf)

theorem reset_notices_sound : State.reset.notices.sound := ⟨by decide, rfl⟩

theorem attentionSound_kept : KeptBySteps AttentionSound :=
  .of_acts (fun a => a.attention)
    (events := (KeptByReports.of_acts (p := fun _ => true) (fun _ _ => rfl) (fun a => a.attention)
      (answers := fun _ _ _ _ h => h)
      (leaves := fun _ _ _ _ _ h => h)
      (latches := fun _ _ _ h => (raise_acts .fault (.refl (fun _ => true) _) rfl).attention h)).events
        (reads := fun first count _ h => readNotice_attentionSound first count h)
        (grants := fun u h => by unfold AttentionSound; rw [arbitrate_onlyIn u .notices rfl]; exact h))
    (shots := fun f u _ h => by unfold AttentionSound; rw [fireShot_onlyIn f u .notices rfl]; exact h)
    (observe := fun _ _ h => h)
    (powerOn := fun _ _ _ => reset_notices_sound)
    (soft := fun _ _ => reset_notices_sound)
    (queue := fun _ _ h => h)
    (idle := fun _ h => h)

/-- Settles O6: each way in which the block moves leaves ATTN as its mode says; a cause raised, the mask and a read of NOTICE
drive it anew. -/
theorem attentionFollowsModeKept : Obligations.AttentionFollowsModeKept := fun _ _ h e => attentionSound_kept.step h e

/-! ## The jitter index (R24) -/

theorem readNotice_onlyIn (first count : Nat) (s : State) : OnlyIn (fields [.notices, .out]) s (readNotice first count s) := by
  unfold readNotice
  split
  next => split <;> (intro f hf; cases f <;> first | rfl | cases hf)
  next => intro f _; cases f <;> rfl

theorem fireShot_jitterFollows (f : Nat) (h : JitterFollows s) : JitterFollows (fireShot f s) := by
  unfold fireShot
  split
  next => exact h
  next => exact rfl

theorem jitterFollows_kept : KeptBySteps JitterFollows :=
  .of_acts (fun a => a.jitter)
    (events := (KeptByReports.of_acts (p := fun _ => true) (fun _ _ => rfl) (fun a => a.jitter)
      (answers := fun _ _ _ _ h => h)
      (leaves := fun _ _ _ _ _ h => h)
      (latches := fun _ _ _ h => h)).events
        (reads := fun first count u h => by unfold JitterFollows; rw [readNotice_onlyIn first count u .sched rfl]; exact h)
        (grants := fun u h => by unfold JitterFollows; rw [arbitrate_onlyIn u .sched rfl]; exact h))
    (shots := fun f _ _ h => fireShot_jitterFollows f h)
    (observe := fun _ _ h => h)
    (powerOn := fun _ _ _ => rfl)
    (soft := fun _ _ => rfl)
    (queue := fun _ _ h => h)
    (idle := fun _ h => h)

/-- Settles O8: a shot sets the index from the number it leaves, a SCAN's take sets both to 0, and nothing else moves them. -/
theorem jitterIndexKept : Obligations.JitterIndexKept := fun _ _ h e => jitterFollows_kept.step h e

/-! ## The buffers' bounds (R40, R79, R133, R161) -/

theorem Port.ids_answerAt (x : Port) (r : Requester) (place : Nat) (a : Answer) (q : Requester) :
    (x.answerAt r place a).ids q = x.ids q := by
  unfold Port.ids Port.answerAt
  rw [outOf_setOut]
  split
  next same =>
    subst same
    apply List.ext_getElem
    · simp
    · intro i _ _
      simp only [List.getElem_map, List.getElem_modify]
      split <;> rfl
  next => rfl

theorem Port.sorted_setOut {x : Port} (r : Requester) (l : List Outstanding) (h : x.sorted) : (x.setOut r l).sorted := by
  cases r <;> exact h

theorem Port.nextId_setOut (x : Port) (r : Requester) (l : List Outstanding) : (x.setOut r l).nextId = x.nextId := by
  cases r <;> rfl

/-- Bounds under a new port whose outstanding transfers are the old ones, or fewer. -/
theorem Bounded.setPort_of_sublist (h : Bounded s) {x : Port} (fewer : ∀ r, (x.ids r).Sublist (s.port.ids r))
    (sorted : s.port.sorted → x.sorted) (next : x.nextId = s.port.nextId) : Bounded (s.setPort x) where
  queue := h.queue
  points := h.points
  port r := by
    have shorter := (fewer r).length_le
    simp only [Port.ids, List.length_map] at shorter
    exact Nat.le_trans shorter (h.port r)
  shots := h.shots
  rows := h.rows
  waiting := sorted h.waiting
  numbered r := by
    obtain ⟨ordered, below⟩ := h.numbered r
    exact ⟨ordered.sublist (fewer r), fun n mem => next ▸ below n ((fewer r).subset mem)⟩

theorem bounded_answerAt (r : Requester) (place : Nat) (a : Answer) (h : Bounded s) :
    Bounded (s.setPort (s.port.answerAt r place a)) :=
  h.setPort_of_sublist (fun q => (Port.ids_answerAt ..).symm ▸ List.Sublist.refl _) (Port.sorted_setOut _ _) (Port.nextId_setOut ..)

theorem bounded_leaves {r : Requester} {o : Outstanding} {rest : List Outstanding} (out : s.port.outOf r = o :: rest)
    (h : Bounded s) : Bounded (s.setPort (s.port.setOut r rest)) := by
  refine h.setPort_of_sublist (fun q => ?_) (Port.sorted_setOut _ _) (Port.nextId_setOut ..)
  unfold Port.ids
  rw [outOf_setOut]
  split
  next same =>
    subst same
    rw [out]
    exact List.sublist_cons_self ..
  next => exact List.Sublist.refl _

theorem bounded_latchFault (t : Transfer) (timeout : Bool) (h : Bounded s) : Bounded (latchFault t timeout s) :=
  (raise_acts .fault (.refl (fun _ => true) _) rfl).bounded
    (h.setPort_of_sublist (fun r => by cases r <;> exact List.Sublist.refl _) id rfl)

theorem firstReady_hasRoom (x : Port) : ∀ (l : List Transfer) {t : Transfer} {rest : List Transfer},
    firstReady x l = some (t, rest) → x.hasRoom t.requester = true
  | [], _, _, e => by cases e
  | u :: us, t, rest, e => by
    unfold firstReady at e
    split at e
    next room => cases e; exact room
    next =>
      obtain ⟨y, found, same⟩ := Option.map_eq_some_iff.mp e
      cases same
      exact firstReady_hasRoom x us found

theorem chooseData_waits {x : Port} {occupancy : Nat} {d : DataPath} (h : x.chooseData occupancy = some d) :
    (d = .record → x.recordWaits = true) ∧ (d = .photo → x.photoWaits = true) := by
  unfold Port.chooseData at h
  split at h
  next both => cases h; exact ⟨fun _ => (Bool.and_eq_true_iff.mp both).1, nofun⟩
  next =>
    split at h
    next both =>
      obtain ⟨record, photo⟩ := Bool.and_eq_true_iff.mp both
      exact ⟨fun _ => record, fun _ => photo⟩
    next =>
      split at h
      next record => cases h; exact ⟨fun _ => record, nofun⟩
      next =>
        split at h
        next photo => cases h; exact ⟨nofun, fun _ => photo⟩
        next => cases h

/-- What the arbiter can do: grant nobody, or issue one waiting transfer, of a requester with room, out of the port that has
lost it (R161, R164). -/
theorem Port.grant_cases (x : Port) (now occupancy : Nat) :
    x.grant now occupancy = (x, none) ∨
    ∃ (left : Port) (t : Transfer), x.grant now occupancy = (left.issue now t, some t) ∧ (∀ r, left.outOf r = x.outOf r) ∧
      left.nextId = x.nextId ∧ (x.sorted → left.sorted ∧ x.hasRoom t.requester = true) := by
  unfold Port.grant
  split
  next t rest ready =>
    refine .inr ⟨_, _, rfl, fun r => by cases r <;> rfl, rfl, fun sorted => ⟨sorted, firstReady_hasRoom x _ ready⟩⟩
  next =>
    split
    next chosen =>
      split
      next => exact .inl rfl
      next t rest waiting =>
        refine .inr ⟨_, _, rfl, fun r => by cases r <;> rfl, rfl, fun sorted => ⟨⟨fun y mem => ?_, sorted.2⟩, ?_⟩⟩
        · exact sorted.1 y (waiting ▸ List.mem_cons_of_mem _ mem)
        · rw [sorted.1 t (waiting ▸ List.mem_cons_self)]
          exact (Bool.and_eq_true_iff.mp ((chooseData_waits chosen).1 rfl)).2
    next chosen =>
      split
      next => exact .inl rfl
      next t rest waiting =>
        refine .inr ⟨_, _, rfl, fun r => by cases r <;> rfl, rfl, fun sorted => ⟨⟨sorted.1, fun y mem => ?_⟩, ?_⟩⟩
        · exact sorted.2 y (waiting ▸ List.mem_cons_of_mem _ mem)
        · rw [sorted.2 t (waiting ▸ List.mem_cons_self)]
          exact (Bool.and_eq_true_iff.mp ((chooseData_waits chosen).2 rfl)).2
    next => exact .inl rfl

theorem Port.outOf_issue (x : Port) (now : Nat) (t : Transfer) (r : Requester) :
    (x.issue now t).outOf r =
      if r = t.requester then x.outOf r ++ [⟨x.nextId, t, some (now + transferTimeout), .awaited⟩] else x.outOf r := by
  have same : (x.issue now t).outOf r =
      (x.setOut t.requester (x.outOf t.requester ++ [⟨x.nextId, t, some (now + transferTimeout), .awaited⟩])).outOf r := by
    cases r <;> rfl
  rw [same, outOf_setOut]
  split
  next e => rw [e]
  next => rfl

theorem Port.numbered_issue {x : Port} (now : Nat) (t : Transfer) (h : x.numbered) : (x.issue now t).numbered := by
  intro r
  obtain ⟨ordered, below⟩ := h r
  have next : (x.issue now t).nextId = x.nextId + 1 := rfl
  unfold Port.ids
  rw [Port.outOf_issue, next]
  split
  next =>
    rw [List.map_append]
    refine ⟨List.pairwise_append.mpr ⟨ordered, by simp, fun a mem b last => ?_⟩, fun n mem => ?_⟩
    · rw [List.map_singleton, List.mem_singleton] at last
      exact last ▸ below a mem
    · rcases List.mem_append.mp mem with old | last
      · exact Nat.lt_succ_of_lt (below n old)
      · rw [List.map_singleton, List.mem_singleton] at last
        exact last ▸ Nat.lt_succ_self _
  next => exact ⟨ordered, fun n mem => Nat.lt_succ_of_lt (below n mem)⟩

theorem Port.sorted_issue {x : Port} (now : Nat) (t : Transfer) (h : x.sorted) : (x.issue now t).sorted :=
  Port.sorted_setOut t.requester _ h

/-- What GRANT can do: nothing, or what the arbiter grants is issued (R163, R164). -/
theorem arbitrate_cases (s : State) : arbitrate s = s ∨ ∃ t, (s.port.grant s.now s.occupancy).2 = some t ∧
    arbitrate s = emit (.issued s.port.nextId t)
      ((s.setPort (s.port.grant s.now s.occupancy).1).setIssueSlot (some (t.requester, s.now))) := by
  unfold arbitrate
  split
  next t _ granted => exact .inr ⟨t, granted, rfl⟩
  next => exact .inl rfl
  next => exact .inl rfl

theorem bounded_arbitrate (h : Bounded s) : Bounded (arbitrate s) := by
  rcases arbitrate_cases s with e | ⟨t, granted, e⟩
  · rwa [e]
  · rcases s.port.grant_cases s.now s.occupancy with none | ⟨left, u, some, out, next, room⟩
    · rw [none] at granted; cases granted
    · rw [some] at granted e
      cases granted
      obtain ⟨sorted, free⟩ := room h.waiting
      have numbered : left.numbered := fun r => by
        unfold Port.ids; rw [out, next]; exact h.numbered r
      rw [e]
      refine ⟨h.queue, h.points, fun r => ?_, h.shots, h.rows, Port.sorted_issue _ _ sorted, Port.numbered_issue _ _ numbered⟩
      show ((left.issue s.now t).outOf r).length ≤ _
      rw [Port.outOf_issue]
      split
      next same =>
        have fewer : (s.port.outOf t.requester).length < maxOutstanding t.requester := of_decide_eq_true free
        rw [out, List.length_append, List.length_singleton, same]
        exact fewer
      next => rw [out]; exact h.port r

theorem bounded_fireShot (f : Nat) (room : s.shots.length < shotCapacity) (h : Bounded s) : Bounded (fireShot f s) := by
  unfold fireShot
  split
  next => exact h
  next =>
    refine ⟨h.queue, h.points, h.port, ?_, h.rows, h.waiting, h.numbered⟩
    show (s.shots ++ [_]).length ≤ shotCapacity
    rw [List.length_append]
    exact room

/-- Empty buffers keep the bounds. -/
theorem Bounded.of_empty (queue : s.staging.entries = []) (shots : s.shots = []) (rows : s.photo.rows = [])
    (out : ∀ r, s.port.outOf r = []) (waiting : s.port.recordWait = [] ∧ s.port.photoWait = []) : Bounded s where
  queue := by rw [queue]; decide
  points := by rw [queue]; decide
  port r := by rw [out]; exact Nat.zero_le _
  shots := by rw [shots]; decide
  rows := by rw [rows]; decide
  waiting := ⟨by simp [waiting.1], by simp [waiting.2]⟩
  numbered r := by simp [Port.ids, out]

theorem bounded_readNotice (first count : Nat) (h : Bounded s) : Bounded (readNotice first count s) :=
  have only := readNotice_onlyIn first count s
  h.congr (congrArg _ (only .staging rfl)) (only .port rfl) (only .shots rfl) (congrArg _ (only .photo rfl))

theorem bounded_kept : KeptBySteps Bounded :=
  .of_acts (fun a => a.bounded)
    (events := (KeptByReports.of_acts (p := fun _ => true) (fun _ _ => rfl) (fun a => a.bounded)
      (answers := fun r place a _ h => bounded_answerAt r place a h)
      (leaves := fun _ _ _ _ out h => bounded_leaves out h)
      (latches := fun t timeout _ h => bounded_latchFault t timeout h)).events
        (reads := fun first count _ h => bounded_readNotice first count h)
        (grants := fun _ h => bounded_arbitrate h))
    (shots := fun f _ room h => bounded_fireShot f room h)
    (observe := fun _ _ h => h.congr rfl rfl rfl rfl)
    (powerOn := fun _ _ _ => .of_empty rfl rfl rfl (fun r => by cases r <;> rfl) ⟨rfl, rfl⟩)
    (soft := fun _ _ => .of_empty rfl rfl rfl (fun r => by cases r <;> rfl) ⟨rfl, rfl⟩)
    (queue := fun _ _ h => h.congr rfl rfl rfl rfl)
    (idle := fun _ h => h.congr rfl rfl rfl rfl)

/-- Settles O5: the bounds are kept piece by piece; a transfer is issued only to a requester with room, and under a number
beyond those that stand, and a shot fires only into a list with a place free. -/
theorem boundsKept : Obligations.BoundsKept := fun _ _ h e => bounded_kept.step h e

/-! ## What has been answered has been reported (R165) -/

/-- The oldest outstanding transfer of a requester has no answer. -/
def OldestUnansweredOf (r : Requester) (s : State) : Prop :=
  ∀ o rest, s.port.outOf r = o :: rest → o.answer = .awaited

/-- Transfers with the marks of others have the answers of those. -/
theorem OldestUnansweredOf.of_marks {r : Requester}
    (marks : (t.port.outOf r).map Outstanding.mark = (s.port.outOf r).map Outstanding.mark) (h : OldestUnansweredOf r s) :
    OldestUnansweredOf r t := by
  intro o rest out
  rw [out] at marks
  cases before : s.port.outOf r with
  | nil => rw [before] at marks; cases marks
  | cons x xs =>
    rw [before] at marks
    have same : o.mark = x.mark := (List.cons.inj marks).1
    exact (congrArg Prod.snd same).trans (h x xs before)

/-- A report at one requester leaves the marks of another's transfers. -/
theorem reportAnswered_others {r q : Requester} (other : q ≠ r) (n : Nat) : ∀ s : State,
    ((reportAnswered r n s).port.outOf q).map Outstanding.mark = (s.port.outOf q).map Outstanding.mark := by
  induction n with
  | zero => exact fun _ => rfl
  | succ n ih =>
    intro s
    have told : ∀ (o : Outstanding) (rest : List Outstanding) (a : Answer),
        ((reportAnswered r n (reportOutcome o.transfer a (s.setPort (s.port.setOut r rest)))).port.outOf q).map
          Outstanding.mark = (s.port.outOf q).map Outstanding.mark := fun o rest a => by
      rw [ih, reportOutcome_answers, State.setPort_port, outOf_setOut, if_neg other]
    unfold reportAnswered
    split
    next => rfl
    next o rest _ =>
      split
      next => rfl
      next => exact told ..
      next => exact told ..

/-- With as many rounds as a requester has transfers, no answered one is left at the head. -/
theorem reportAnswered_settles (r : Requester) (n : Nat) : ∀ s : State, (s.port.outOf r).length ≤ n →
    OldestUnansweredOf r (reportAnswered r n s) := by
  induction n with
  | zero =>
    intro s short o rest out
    rw [show reportAnswered r 0 s = s from rfl] at out
    rw [out] at short
    cases short
  | succ n ih =>
    intro s short
    have told : ∀ (o : Outstanding) (rest : List Outstanding) (a : Answer), s.port.outOf r = o :: rest →
        OldestUnansweredOf r (reportAnswered r n (reportOutcome o.transfer a (s.setPort (s.port.setOut r rest)))) :=
      fun o rest a out => by
        have fewer := congrArg List.length (reportOutcome_answers o.transfer a (s.setPort (s.port.setOut r rest)) r)
        rw [List.length_map, List.length_map, State.setPort_port, outOf_setOut, if_pos rfl] at fewer
        rw [out] at short
        exact ih _ (fewer ▸ Nat.le_of_succ_le_succ short)
    unfold reportAnswered
    split
    next none =>
      intro o rest out
      rw [none] at out
      cases out
    next o rest out =>
      split
      next awaited =>
        intro x more same
        rw [out] at same
        cases same
        exact awaited
      next => exact told o rest _ out
      next => exact told o rest _ out

theorem settle_oldestUnanswered (r : Requester) (h : ∀ q, q ≠ r → OldestUnansweredOf q s) : OldestUnanswered (settle r s) := by
  intro q
  have settled : OldestUnansweredOf q (reportAnswered r (s.port.outOf r).length s) := by
    by_cases same : q = r
    · exact same ▸ reportAnswered_settles r _ s (Nat.le_refl _)
    · exact (h q same).of_marks (reportAnswered_others same _ s)
  exact settled.of_marks (Acts.answers (p := fun _ => true) (by apply_rules [advancePages_acts, Acts.refl]) q)

theorem landed_port (t : Transfer) (s : State) : (landed t s).port = s.port := by
  unfold landed
  split <;> rfl

/-- An answer at one requester leaves the transfers of another. -/
theorem OldestUnanswered.other_answered {r q : Requester} {place : Nat} {a : Answer} (h : OldestUnanswered s)
    (other : q ≠ r) (port : t.port.outOf q = (s.port.answerAt r place a).outOf q) : OldestUnansweredOf q t := by
  intro o rest out
  rw [port, Port.answerAt, outOf_setOut, if_neg other] at out
  exact h q o rest out

/-- An answer behind the oldest transfer leaves the oldest without one. -/
theorem OldestUnanswered.behind_answered {r : Requester} {place : Nat} {a : Answer} (h : OldestUnanswered s)
    (behind : place ≠ 0) (port : t.port = s.port.answerAt r place a) : OldestUnanswered t := by
  intro q
  by_cases same : q = r
  · subst same
    intro o rest out
    rw [port, Port.answerAt, outOf_setOut, if_pos rfl] at out
    cases before : s.port.outOf q with
    | nil => rw [before, List.modify_nil] at out; cases out
    | cons x xs =>
      obtain ⟨k, rfl⟩ := Nat.exists_eq_succ_of_ne_zero behind
      rw [before, List.modify_succ_cons] at out
      cases out
      exact h q o xs before
  · exact h.other_answered same (by rw [port])

theorem oldestUnanswered_completes (r : Requester) (id : Nat) (which : Purpose → Bool) (data : List Byte)
    (h : OldestUnanswered s) : OldestUnanswered (completeOldest r id which data s) := by
  unfold completeOldest
  split
  next o _ =>
    split
    next => exact settle_oldestUnanswered r fun q other => h.other_answered other (by rw [landed_port]; rfl)
    next => exact h
  next => exact h

theorem oldestUnanswered_holds (r : Requester) (place : Nat) (data : List Byte) (h : OldestUnanswered s) :
    OldestUnanswered (holdAt r place data s) := by
  unfold holdAt
  split
  next o _ =>
    split
    next => exact h
    next behind => exact h.behind_answered behind (landed_port ..)
  next => exact h

theorem oldestUnanswered_arbitrate (h : OldestUnanswered s) : OldestUnanswered (arbitrate s) := by
  rcases arbitrate_cases s with e | ⟨t, granted, e⟩
  · rwa [e]
  · rcases s.port.grant_cases s.now s.occupancy with none | ⟨left, u, some, out, -, -⟩
    · rw [none] at granted; cases granted
    · rw [some] at granted e
      cases granted
      intro r o rest first
      rw [e] at first
      change (left.issue s.now t).outOf r = o :: rest at first
      rw [Port.outOf_issue, out] at first
      split at first
      next =>
        cases before : s.port.outOf r with
        | nil => rw [before] at first; cases first; rfl
        | cons x xs => rw [before] at first; cases first; exact h r o xs before
      next => exact h r o rest first

theorem oldestUnanswered_kept : KeptBySteps OldestUnanswered :=
  .of_acts (fun a h r => OldestUnansweredOf.of_marks (a.answers r) (h r))
    (events :=
      { reads := fun first count u h => by unfold OldestUnanswered; rw [readNotice_onlyIn first count u .port rfl]; exact h
        grants := fun _ h => oldestUnanswered_arbitrate h
        completes := fun r id which data _ h => oldestUnanswered_completes r id which data h
        faults := fun r _ _ _ _ h _ => settle_oldestUnanswered r fun q other => h.other_answered other (by cases q <;> rfl)
        holds := fun r place data _ h => oldestUnanswered_holds r place data h })
    (shots := fun f u _ h => by unfold OldestUnanswered; rw [fireShot_onlyIn f u .port rfl]; exact h)
    (observe := fun _ _ h => h)
    (powerOn := fun _ _ _ r _ _ e => by cases r <;> cases e)
    (soft := fun _ _ r _ _ e => by cases r <;> cases e)
    (queue := fun _ _ h => h)
    (idle := fun _ h => h)

/-- Settles O9: an answer to a requester's oldest transfer is followed in the same event by the report of every answered one
at the head, and an answer behind the oldest leaves the oldest as it is. -/
theorem outcomesReportedInOrderKept : Obligations.OutcomesReportedInOrderKept := fun _ _ h e => oldestUnanswered_kept.step h e

end Sys2Proof.Machine

/-! PROOFS. What every command leaves of its moment, and of the queue (R1, R23, log 1, 46, 59). -/

namespace Sys2Proof.Machine

variable {s t u : State} {p : Field → Bool}

/-- A frame of named fields is one of any fields that take in those. -/
theorem OnlyIn.within {l : List Field} (h : OnlyIn (fields l) s t) (sub : ∀ f ∈ l, p f = true) : OnlyIn p s t :=
  h.mono fun f hf => sub f (of_decide_eq_true hf)

/-- The fields that are the moment's or nobody's (R1, R23, log 1). -/
def momentSide : List Field := [.time, .angle, .azimuth, .rest, .rstin, .pending]

theorem mayTouch_of_not_moment (c : Instr) (f : Field) (h : f ∉ momentSide) : c.mayTouch f = true := by
  cases f <;> first | rfl | exact absurd (by decide) h

theorem mayTouch_of_mem (c : Instr) {l : List Field} (h : ∀ f ∈ l, f ∉ momentSide) : ∀ f ∈ l, c.mayTouch f = true :=
  fun f mem => mayTouch_of_not_moment c f (h f mem)

theorem setPort_onlyIn (x : Port) (s : State) : OnlyIn (fields [.port]) s (s.setPort x) := by
  intro f hf; cases f <;> first | rfl | cases hf

theorem latchFault_onlyIn (x : Transfer) (timeout : Bool) (s : State) :
    OnlyIn (fields [.port, .notices]) s (latchFault x timeout s) := by
  intro f hf; cases f <;> first | rfl | cases hf

theorem OnlyIn.beside_moment {l : List Field} (h : OnlyIn (fields l) s t) (c : Instr) (off : ∀ f ∈ l, f ∉ momentSide) :
    OnlyIn c.mayTouch s t := h.within (mayTouch_of_mem c off)

/-- What a command may touch is what every event may touch. -/
theorem onlyIn_mayTouch_events (c : Instr) (b : State) : KeptByEvents (OnlyIn c.mayTouch b) :=
  (KeptByReports.of_acts (mayTouch_of_mem c (by decide)) (fun a h => h.trans a.only)
    (answers := fun _ _ _ _ h => h.trans ((setPort_onlyIn _ _).beside_moment c (by decide)))
    (leaves := fun _ _ _ _ _ h => h.trans ((setPort_onlyIn _ _).beside_moment c (by decide)))
    (latches := fun _ _ _ h => h.trans ((latchFault_onlyIn _ _ _).beside_moment c (by decide)))).events
      (reads := fun _ _ _ h => h.trans ((readNotice_onlyIn _ _ _).beside_moment c (by decide)))
      (grants := fun _ h => h.trans ((arbitrate_onlyIn _).beside_moment c (by decide)))

/-- Every command but the resets and REGISTER_WRITE touches, after its moment, only what its event may touch. -/
theorem exec_onlyIn {c : Instr} (noReset : c.mayReset = false) (s : State) :
    ∃ t, exec c s = .next t ∧ OnlyIn c.mayTouch (observe c.moment s) t := by
  have start : OnlyIn c.mayTouch (observe c.moment s) (observe c.moment s) := (Acts.refl _ _).only
  refine (onlyIn_mayTouch_events c _).exec noReset (fun plain => ?_) (fun fires => ?_) start
  · obtain ⟨t, next, does⟩ := exec_plain_acts plain s
    exact ⟨t, next, does.only⟩
  · exact exec_fires_keeps fires (fun a h => h.trans a.only)
      (fun f u _ h => h.trans ((fireShot_onlyIn f u).beside_moment c (by decide))) start

/-- An index mark sets the angle to 0 (R1). -/
theorem indexMark_angle (s : State) : (indexMark s).angle = 0 := by
  let marked := (s.setAngle 0).setMirror (markMirror s.now s.mirror)
  have told : Acts (fun f => decide (f ≠ .angle)) marked
      (if marked.mirror.state = s.mirror.state then marked else mirrorChanged marked) := by
    split
    · exact .refl _ _
    · apply_rules [mirrorChanged_acts, Acts.refl]
  have rest : Acts (fun f => decide (f ≠ .angle)) marked (indexMark s) := by
    apply_rules [advancePages_acts, indexAtPages_acts, indexAtScan_acts]
  exact rest.only .angle rfl

theorem exec_pending (c : Instr) (s : State) : ∃ t, exec c s = .next t ∧ t.pending = s.pending := by
  cases reset : c.mayReset
  case false =>
    obtain ⟨t, next, only⟩ := exec_onlyIn reset s
    exact ⟨t, next, only .pending rfl⟩
  case true =>
    cases c
    case powerOnReset | reset => exact ⟨_, rfl, rfl⟩
    case registerWrite m offset count v =>
      refine ⟨_, rfl, ?_⟩
      rcases windowWrite_cases (.registerWrite m offset count v) offset count v (observe m s) with e | a
      · rw [e]; rfl
      · exact a.only .pending rfl
    all_goals cases reset

/-- The rest watch after a moment (R18, log 59). -/
theorem observe_rest (m : Moment) (s : State) :
    (circleDistance m.azimuth s.rest.azimuth ≤ 16 → (observe m s).rest = s.rest) ∧
    (16 < circleDistance m.azimuth s.rest.azimuth → (observe m s).rest = ⟨(observe m s).now, m.azimuth⟩) :=
  ⟨fun near => if_pos near, fun far => if_neg (Nat.not_le.mpr far)⟩

/-- Settles O3: a command takes its moment, and its event touches none of the moment's fields, but that an index mark sets
the angle. -/
theorem commandsAnswerNext : Obligations.CommandsAnswerNext := by
  unfold Obligations.CommandsAnswerNext
  intro c s
  obtain ⟨t, next, pending⟩ := exec_pending c s
  refine ⟨t, next, pending, fun noReset noWrite => ?_⟩
  have plain : c.mayReset = false := by
    cases c <;> first
      | rfl | exact absurd rfl (noReset _).1 | exact absurd rfl (noReset _).2 | exact absurd rfl (noWrite _ _ _ _)
  obtain ⟨u, next', only⟩ := exec_onlyIn plain s
  cases next.symm.trans next'
  obtain ⟨near, far⟩ := observe_rest c.moment s
  have rest : t.rest = (observe c.moment s).rest := only .rest rfl
  have now : t.now = (observe c.moment s).now := congrArg BitVec.toNat (only .time rfl)
  refine ⟨only .time rfl, only .azimuth rfl, ?atMark, ?others, only .rstin rfl, fun d => rest.trans (near d), fun d => ?_⟩
  case atMark =>
    rintro ⟨m, rfl⟩
    cases next
    exact indexMark_angle _
  case others =>
    intro noMark
    have untouched : c.mayTouch .angle = false := by cases c <;> first | rfl | exact absurd rfl (noMark _)
    exact only .angle untouched
  · rw [now, rest, far d]

end Sys2Proof.Machine

/-! PROOFS. What the Page Manager may move: with no job waiting on it, neither the job nor what the job's end moves, and no
control transfer is withdrawn; a job that waits goes on waiting, or ends (R93, R101, R124). -/

namespace Sys2Proof.Machine

variable {s t u v : State} {p : Field → Bool}

theorem waitsOnPages_congr (h : t.job = s.job) : t.waitsOnPages = s.waitsOnPages := by
  unfold State.waitsOnPages; rw [h]

/-- An operation of the Page Manager. -/
structure PageManages (s t : State) : Prop where
  quiet   : s.waitsOnPages = false → OnlyIn (fields [.staging, .loss, .pages, .port, .notices]) s t
  control : s.waitsOnPages = false → ∀ x ∈ s.port.control, x ∈ t.port.control
  ends    : t.job = s.job ∨ t.job = none

theorem PageManages.refl (s : State) : PageManages s s := ⟨fun _ => (Acts.refl _ _).only, fun _ _ => id, .inl rfl⟩

theorem PageManages.waits (h : PageManages s t) (w : s.waitsOnPages = false) : t.waitsOnPages = false :=
  (waitsOnPages_congr (h.quiet w .job rfl)).trans w

theorem PageManages.trans (h : PageManages s t) (g : PageManages t u) : PageManages s u where
  quiet w := (h.quiet w).trans (g.quiet (h.waits w))
  control w x mem := g.control (h.waits w) x (h.control w x mem)
  ends := by
    rcases g.ends with same | none
    · rw [same]; exact h.ends
    · exact .inr none

/-- An operation that moves queue, losses, pages and notices alone. -/
theorem PageManages.of_onlyIn (h : OnlyIn (fields [.staging, .loss, .pages, .notices]) s t) : PageManages s t where
  quiet _ := h.widen (by decide)
  control _ x mem := by rw [h .port rfl]; exact mem
  ends := .inl (h .job rfl)

theorem Port.mem_control_request (x : Port) (y : Transfer) : ∀ z ∈ x.control, z ∈ (x.request y).control := by
  intro z mem
  unfold Port.request
  split <;> first | exact List.mem_append_left _ mem | exact mem

theorem request_manages (x : Transfer) (s : State) : PageManages s (request x s) where
  quiet _ := (request_acts x (.refl (fields _) s) rfl).only
  control _ := s.port.mem_control_request x
  ends := .inl rfl

theorem setPages_manages (x : Pages) (s : State) : PageManages s (s.setPages x) :=
  .of_onlyIn (setPages_acts x (.refl (fields _) s) rfl).only

theorem raise_manages (c : Cause) (s : State) : PageManages s (raise c s) :=
  .of_onlyIn (raise_acts c (.refl (fields _) s) rfl).only

theorem putPage_manages (x : Page) (s : State) : PageManages s (putPage x s) := setPages_manages _ s

/-! ## A job told, or discarded (R93, R101) -/

theorem handResult_job (r : JobResult) (s : State) : (handResult r s).job = none :=
  (handResult_jobEnds (s := s) (r := r) rfl rfl).job

theorem endScan_job (j : ScanJob) (s : State) : (endScan j s).job = none := handResult_job _ _

theorem handPhoto_job (a : PhotoJob) (s : State) : (handPhoto a s).job = none := handResult_job _ _

theorem discardScan_job (j : ScanJob) (s : State) : (discardScan j s).job = none := handResult_job _ _

theorem jobTold_of_not_waiting (w : s.waitsOnPages = false) : jobTold s = s := by
  unfold State.waitsOnPages at w
  unfold jobTold
  split
  next e => rw [e] at w; cases w
  next j e =>
    rw [e] at w
    exact if_pos (Decidable.of_not_not (of_decide_eq_false w))
  next a e =>
    rw [e] at w
    exact if_neg (by rw [show a.sealWait = false from w]; simp)
  next => rfl

theorem jobTold_manages (s : State) : PageManages s (jobTold s) where
  quiet w := by rw [jobTold_of_not_waiting w]; exact (Acts.refl _ _).only
  control w := by rw [jobTold_of_not_waiting w]; exact fun _ => id
  ends := by
    unfold jobTold
    split
    next => exact .inr (handResult_job _ _)
    next =>
      split
      next => exact .inl rfl
      next => exact .inr (endScan_job _ _)
    next =>
      split
      next => exact .inr (handPhoto_job _ _)
      next => exact .inl rfl
    next => exact .inl rfl

theorem discardOnPageWait_of_not_waiting (w : s.waitsOnPages = false) : discardOnPageWait s = s := by
  unfold State.waitsOnPages at w
  unfold discardOnPageWait
  split
  next j e =>
    rw [e] at w
    exact if_neg fun due => of_decide_eq_false w due.2.1
  next => rfl

theorem discardOnPageWait_manages (s : State) : PageManages s (discardOnPageWait s) where
  quiet w := by rw [discardOnPageWait_of_not_waiting w]; exact (Acts.refl _ _).only
  control w := by rw [discardOnPageWait_of_not_waiting w]; exact fun _ => id
  ends := by
    unfold discardOnPageWait
    split
    next =>
      split
      next => exact .inr (discardScan_job _ _)
      next => exact .inl rfl
    next => exact .inl rfl

/-! ## Passes (R90 to R94) -/

theorem setPageWait_manages (s : State) : PageManages s (setPageWait s) := by
  unfold setPageWait
  split
  · exact .refl s
  · exact (setPages_manages _ s).trans (raise_manages _ _)

theorem exhaust_manages (s : State) : PageManages s (exhaust s) :=
  (setPageWait_manages s).trans (discardOnPageWait_manages _)

theorem readDescriptor_manages (table : Nat × Nat) (k : Nat) (s : State) : PageManages s (readDescriptor table k s) :=
  (setPages_manages _ s).trans (request_manages _ _)

theorem openPass_manages (s : State) : PageManages s (openPass s) := by
  unfold openPass
  split
  next =>
    split
    next => exact exhaust_manages s
    next =>
      split
      next => exact exhaust_manages s
      next t _ => exact readDescriptor_manages t 0 s
  next => exact .refl s

theorem wakePages_manages (s : State) : PageManages s (wakePages s) := by
  unfold wakePages
  split
  · exact setPages_manages _ s
  · exact openPass_manages s

theorem passEnds_manages (s : State) : PageManages s (passEnds s) := by
  have ended := (setPages_manages { s.pages with pass := none, lookAgain := false } s).trans (exhaust_manages _)
  unfold passEnds
  dsimp only
  split
  · exact ended.trans (openPass_manages _)
  · exact ended

theorem descriptorWrite_manages (purpose : Purpose) (x : Page) (fs : Fields) (s : State) :
    PageManages s (descriptorWrite purpose x fs s) := request_manages _ s

theorem takePage_manages (i : Nat) (d : List Byte) (count : Nat) (s : State) : PageManages s (takePage i d count s) :=
  (setPages_manages _ s).trans (descriptorWrite_manages ..)

theorem descriptorRead_manages (d : List Byte) (s : State) : PageManages s (descriptorRead d s) := by
  unfold descriptorRead
  split
  next k t _ _ =>
    dsimp only
    split
    next => exact takePage_manages ..
    next =>
      have marked : PageManages s
          (if descState d = 1 ∨ 3 < descState d then s.setPages { s.pages with bad := true } else s) := by
        split
        · exact setPages_manages _ s
        · exact .refl s
      split
      next => exact marked.trans (readDescriptor_manages ..)
      next => exact marked.trans (passEnds_manages _)
  next => exact .refl s

/-! ## Seals and marks (R98, R101) -/

theorem sealStateWritten_manages (s : State) : PageManages s (sealStateWritten s) := by
  unfold sealStateWritten
  split
  next x _ =>
    have gone := setPages_manages { s.pages with current := none } s
    have raised : PageManages s (if x.notify then raise .pageSealed (s.setPages { s.pages with current := none })
        else s.setPages { s.pages with current := none }) := by
      split
      · exact gone.trans (raise_manages _ _)
      · exact gone
    dsimp only
    generalize (if x.notify then raise .pageSealed (s.setPages { s.pages with current := none })
        else s.setPages { s.pages with current := none }) = t at raised ⊢
    split
    · exact (raised.trans (setPages_manages _ _)).trans (jobTold_manages _)
    · exact raised
  next => exact .refl s

theorem markReached_manages (m : EndMark) (s : State) : PageManages s (markReached m s) := by
  unfold markReached
  split
  next => exact (setPages_manages _ s).trans (jobTold_manages _)
  next x _ =>
    split
    next => exact .refl s
    next =>
      have begun := setPages_manages { s.pages with mark := some { m with begun := true } } s
      dsimp only
      split
      next => exact begun.trans (putPage_manages _ _)
      next => exact begun

theorem checkMark_manages (s : State) : PageManages s (checkMark s) := by
  unfold checkMark
  split
  next =>
    split
    · exact markReached_manages _ s
    · exact .refl s
  next =>
    split
    · exact (setPages_manages _ s).trans (jobTold_manages _)
    · exact .refl s
  next => exact .refl s

theorem sealProgress_manages (s : State) : PageManages s (sealProgress s) := by
  unfold sealProgress
  split
  next x _ =>
    split
    · exact (putPage_manages { x with stage := .sealField } s).trans (descriptorWrite_manages ..)
    · exact .refl s
  next => exact .refl s

/-! ## Record writes (R95 to R99, R105) -/

theorem dropStep_manages (h : dropStep s = some t) : PageManages s t :=
  .of_onlyIn (dropStep_acts h (.refl (fields _) s) rfl rfl rfl).only

theorem issueRecord_manages (e : Entry) (x : Page) (s : State) : PageManages s (issueRecord e x s) := by
  have marked : PageManages s (s.setStaging { s.staging with entries := markIssued e.seq s.staging.entries }) :=
    .of_onlyIn (setStaging_acts _ (.refl (fields _) s) rfl (queueKept_markIssued _ _)).only
  exact (marked.trans (setPages_manages _ _)).trans (request_manages _ _)

theorem issueStep_manages (h : issueStep s = some t) : PageManages s t := by
  unfold issueStep at h
  split at h
  next x e _ _ =>
    split at h
    next =>
      split at h
      next =>
        split at h
        next => cases h; exact (putPage_manages _ s).trans (request_manages _ _)
        next => cases h; exact issueRecord_manages e x s
      next => cases h; exact issueRecord_manages e x s
    next => cases h
  next => cases h

theorem sealIfFull_manages (s : State) : PageManages s (sealIfFull s) := by
  unfold sealIfFull
  split
  next =>
    split
    · exact putPage_manages _ s
    · exact .refl s
  next => exact .refl s

theorem dropHeads_manages (n : Nat) : ∀ s, PageManages s (dropHeads n s) := by
  induction n with
  | zero => exact .refl
  | succ n ih =>
    intro s
    unfold dropHeads
    split
    next t dropped => exact (dropStep_manages dropped).trans (ih t)
    next => exact .refl s

theorem issueRecords_manages (n : Nat) : ∀ s, PageManages s (issueRecords n s) := by
  induction n with
  | zero => exact .refl
  | succ n ih =>
    intro s
    unfold issueRecords
    split
    next t dropped => exact (dropStep_manages dropped).trans (ih t)
    next =>
      split
      next t issued => exact (issueStep_manages issued).trans (ih t)
      next => exact sealIfFull_manages s

theorem advancePages_manages (s : State) : PageManages s (advancePages s) := by
  have marked := (dropHeads_manages s.staging.entries.length s).trans (checkMark_manages _)
  have issued := (marked.trans (issueRecords_manages (s.staging.entries.length + 8) _)).trans (sealProgress_manages _)
  unfold advancePages
  dsimp only
  split
  · exact issued.trans (discardOnPageWait_manages _)
  · exact (issued.trans (openPass_manages _)).trans (discardOnPageWait_manages _)

end Sys2Proof.Machine

/-! PROOFS. The beam permit (R22, R27, R30): what it is read from, what leaves that alone, and what ends a line's firing. -/

namespace Sys2Proof.Machine

variable {s t u : State} {p : Field → Bool} {j k : ScanJob}

/-! ## What the permit is read from -/

/-- What the permit reads of the running SCAN job: phase, what its end waits for, and its slot. -/
def State.scanValues (s : State) : Option (ScanPhase × EndWait × Nat) :=
  s.scanJob.map fun j => (j.phase, j.endWait, j.params.slot)

theorem scanValues_of_job (h : s.job = some (.scan j)) : s.scanValues = some (j.phase, j.endWait, j.params.slot) := by
  unfold State.scanValues; rw [scanJob_of_job h]; rfl

theorem scanJob_congr (h : t.job = s.job) : t.scanJob = s.scanJob := by
  unfold State.scanJob; rw [h]

theorem scanValues_congr (h : t.job = s.job) : t.scanValues = s.scanValues :=
  congrArg (Option.map _) (scanJob_congr h)

theorem scanning_eq (s : State) : s.scanning = decide (s.scanValues.map (·.1) = some .scanning) := by
  unfold State.scanning State.scanValues
  cases s.scanJob <;> simp

theorem endWaitOf_eq (s : State) : s.endWaitOf = (s.scanValues.map (·.2.1)).getD .none := by
  unfold State.endWaitOf State.scanValues
  cases s.scanJob <;> rfl

theorem scanSlot_eq (s : State) : s.scanSlot = (s.scanValues.map (·.2.2)).bind s.slots.get := by
  unfold State.scanSlot State.scanValues
  cases s.scanJob <;> rfl

theorem scanning_congr (h : t.scanValues = s.scanValues) : t.scanning = s.scanning := by
  rw [scanning_eq, scanning_eq, h]

theorem scanning_of_job (h : s.job = some (.scan j)) : s.scanning = decide (j.phase = .scanning) := by
  unfold State.scanning; rw [scanJob_of_job h]

theorem not_scanning (h : ∀ j, s.job = some (.scan j) → j.phase ≠ .scanning) : s.scanning = false := by
  cases scan : s.scanning
  · rfl
  · obtain ⟨j, run, phase⟩ := scanJob_of_scanning scan
    unfold State.scanJob at run
    split at run
    next x e => cases run; exact absurd phase (h _ e)
    next => cases run

theorem not_scanning_of_none (h : s.job = none) : s.scanning = false := not_scanning fun j e => by rw [h] at e; cases e

theorem job_of_scanning (h : s.scanning = true) : ∃ j, s.job = some (.scan j) ∧ j.phase = .scanning := by
  obtain ⟨j, run, phase⟩ := scanJob_of_scanning h
  unfold State.scanJob at run
  split at run
  next x e => cases run; exact ⟨_, e, phase⟩
  next => cases run

/-- Two states agree in all that the permit is read from. -/
structure SameParts (s t : State) : Prop where
  mirror   : t.mirror.state = .locked ↔ s.mirror.state = .locked
  asserted : t.emission.asserted = s.emission.asserted
  inside   : t.sector.inside = s.sector.inside
  permit   : t.sched.permit = s.sched.permit
  firing   : t.sched.firing = s.sched.firing
  phase    : t.line.phase = s.line.phase
  stop     : t.line.stopTaken = s.line.stopTaken
  scan     : t.scanValues = s.scanValues
  slots    : ∀ i, (t.slots.get i).isSome = (s.slots.get i).isSome

theorem SameParts.refl (s : State) : SameParts s s := ⟨.rfl, rfl, rfl, rfl, rfl, rfl, rfl, rfl, fun _ => rfl⟩

theorem SameParts.trans (h : SameParts s t) (g : SameParts t u) : SameParts s u :=
  ⟨g.mirror.trans h.mirror, g.asserted.trans h.asserted, g.inside.trans h.inside, g.permit.trans h.permit,
   g.firing.trans h.firing, g.phase.trans h.phase, g.stop.trans h.stop, g.scan.trans h.scan,
   fun i => (g.slots i).trans (h.slots i)⟩

/-- The fields that the permit is read from, but the job. -/
def permitFields : List Field := [.mirror, .emission, .sector, .sched, .line, .slots]

/-- Every other field. -/
abbrev besidePermit (f : Field) : Bool := decide (f ∉ permitFields)

/-- Every other field, the job apart. -/
abbrev besidePermitAndJob (f : Field) : Bool := decide (f ∉ .job :: permitFields)

theorem SameParts.of_onlyIn (h : OnlyIn besidePermit s t) (scan : t.scanValues = s.scanValues) : SameParts s t :=
  ⟨by rw [h .mirror rfl], congrArg Emission.asserted (h .emission rfl), congrArg Sector.inside (h .sector rfl),
   congrArg Scheduler.permit (h .sched rfl), congrArg Scheduler.firing (h .sched rfl), congrArg LineState.phase (h .line rfl),
   congrArg LineState.stopTaken (h .line rfl), scan, fun i => by rw [show t.slots = s.slots from h .slots rfl]⟩

theorem SameParts.of_acts (h : Acts besidePermitAndJob s t) : SameParts s t :=
  .of_onlyIn (h.only.mono fun f hf => by cases f <;> first | rfl | exact hf) (scanValues_congr (h.only .job rfl))

theorem SameParts.scanSlot (h : SameParts s t) : t.scanSlot.isSome = s.scanSlot.isSome := by
  rw [scanSlot_eq, scanSlot_eq, h.scan]
  cases s.scanValues
  · rfl
  · exact h.slots _

theorem SameParts.permitHolds (h : SameParts s t) : t.permitHolds = s.permitHolds := by
  unfold State.permitHolds
  rw [h.asserted, h.inside, h.firing, scanning_congr h.scan, decide_eq_decide.mpr h.mirror]

theorem PermitSound.parts (h : PermitSound s) (same : SameParts s t) : PermitSound t where
  noEnd scan := by
    rw [endWaitOf_eq, same.scan, ← endWaitOf_eq]
    exact h.noEnd (scanning_congr same.scan ▸ scan)
  isOpen live := by
    rw [same.phase, same.stop]
    exact h.isOpen (same.firing ▸ live)
  firing := by rw [same.permit, same.firing]; exact h.firing
  exact := by rw [same.permit, same.permitHolds, same.scanSlot]; exact h.exact

theorem PermitSound.acts (h : PermitSound s) (a : Acts besidePermitAndJob s t) : PermitSound t := h.parts (.of_acts a)

/-! ## With no scan in SCANNING -/

theorem PermitSound.off (h : PermitSound s) (dark : s.scanning = false) : s.sched.permit = false := by
  cases permit : s.sched.permit
  · rfl
  · have holds := (h.exact.mp permit).1
    unfold State.permitHolds at holds
    rw [dark] at holds
    simp at holds

theorem PermitSound.not_firing (h : PermitSound s) (off : s.sched.permit = false) : s.sched.firing ≠ .firing := fun e => by
  rw [h.firing.mpr e] at off; cases off

/-- With no scan in SCANNING the permit is sound where it is off, nothing is FIRING, and a live line is open. -/
theorem PermitSound.of_dark (dark : t.scanning = false) (off : t.sched.permit = false) (idle : t.sched.firing ≠ .firing)
    (isOpen : t.sched.firing.live = true → t.line.phase = .assembling ∧ t.line.stopTaken = false) : PermitSound t where
  noEnd scan := by rw [dark] at scan; cases scan
  isOpen := isOpen
  firing := ⟨fun e => (by rw [off] at e; cases e), fun e => absurd e idle⟩
  exact := by
    refine ⟨fun e => (by rw [off] at e; cases e), fun ⟨holds, _⟩ => ?_⟩
    unfold State.permitHolds at holds
    rw [dark] at holds
    simp at holds

theorem PermitSound.dark (h : PermitSound s) (before : s.scanning = false) (after : t.scanning = false)
    (sched : t.sched = s.sched) (line : t.line = s.line) : PermitSound t := by
  have off := h.off before
  exact .of_dark after (sched ▸ off) (sched ▸ h.not_firing off) (by rw [sched, line]; exact h.isOpen)

/-! ## Firing is over -/

/-- A line's firing is over, or none is open, and no SCANNING job waits for its end. -/
structure FiringOver (s : State) : Prop where
  noEnd : s.scanning = true → s.endWaitOf = .none
  off   : s.sched.permit = false
  finished : s.sched.firing.live = false

theorem not_firing_of_over (h : s.sched.firing.live = false) : s.sched.firing ≠ .firing := fun e => by
  rw [e] at h; cases h

theorem FiringOver.sound (h : FiringOver s) : PermitSound s where
  noEnd := h.noEnd
  isOpen live := by rw [h.finished] at live; cases live
  firing := ⟨fun e => (by rw [h.off] at e; cases e), fun e => absurd e (not_firing_of_over h.finished)⟩
  exact := by
    refine ⟨fun e => (by rw [h.off] at e; cases e), fun ⟨holds, _⟩ => ?_⟩
    unfold State.permitHolds at holds
    rw [h.finished] at holds
    simp at holds

theorem PermitSound.finished (h : PermitSound s) (done : s.sched.firing.live = false) : FiringOver s where
  noEnd := h.noEnd
  off := by
    cases permit : s.sched.permit
    · rfl
    · exact absurd (h.firing.mp permit) (not_firing_of_over done)
  finished := done

theorem FiringOver.congr (h : FiringOver s) (scan : t.scanValues = s.scanValues) (sched : t.sched = s.sched) : FiringOver t where
  noEnd run := by
    rw [endWaitOf_eq, scan, ← endWaitOf_eq]
    exact h.noEnd (scanning_congr scan ▸ run)
  off := sched ▸ h.off
  finished := sched ▸ h.finished

/-- A job that is not SCANNING, under a Scheduler whose permit is off and whose firing is over. -/
theorem FiringOver.of_dark (dark : t.scanning = false) (off : t.sched.permit = false) (done : t.sched.firing.live = false) :
    FiringOver t := ⟨fun e => (by rw [dark] at e; cases e), off, done⟩

/-! ## The ends of jobs leave no scan in SCANNING -/

theorem endScan_dark (j : ScanJob) (s : State) : (endScan j s).scanning = false := not_scanning_of_none (endScan_job j s)

theorem discardScan_dark (j : ScanJob) (s : State) : (discardScan j s).scanning = false :=
  not_scanning_of_none (discardScan_job j s)

theorem handResult_dark (r : JobResult) (s : State) : (handResult r s).scanning = false :=
  not_scanning_of_none (handResult_job r s)

theorem putScan_dark (h : j.phase ≠ .scanning) (s : State) : (putScan j s).scanning = false :=
  not_scanning fun _ e => by cases e; exact h

theorem finishJob_dark (kind : JobKind) (r : JobResult) (s : State) : (finishJob kind r s).scanning = false := by
  unfold finishJob
  split
  · rfl
  · exact handResult_dark r s

theorem finishOpen_dark (kind : JobKind) (c : ResultCode) (s : State) : (finishOpen kind c s).scanning = false :=
  finishJob_dark ..

theorem handPhoto_dark (a : PhotoJob) (s : State) : (handPhoto a s).scanning = false := handResult_dark ..

theorem endPhotoJob_dark (a : PhotoJob) (s : State) : (endPhotoJob a s).scanning = false := by
  unfold endPhotoJob
  split
  · rfl
  · exact handPhoto_dark a s

theorem failPre_dark (c : ResultCode) (h : j.phase ≠ .scanning) (s : State) : (failPre c j s).scanning = false := by
  unfold failPre
  dsimp only
  split
  · exact not_scanning fun _ e => by cases e; exact h
  · exact endScan_dark _ _

theorem beginDrain_dark (h : j.phase ≠ .scanning) (s : State) : (beginDrain j s).scanning = false := by
  unfold beginDrain
  split
  · exact discardScan_dark _ _
  · split
    · exact endScan_dark _ _
    · split <;> exact not_scanning fun _ e => by cases e; exact h

theorem enterRunIn_dark (j : ScanJob) (s : State) : (enterRunIn j s).scanning = false := putScan_dark (by simp) s

theorem enterPosition_dark (j : ScanJob) (s : State) : (enterPosition j s).scanning = false := by
  unfold enterPosition
  dsimp only
  split
  · exact putScan_dark (by simp) _
  · exact enterRunIn_dark _ _
  · exact failPre_dark _ (by simp) _

theorem issueTrack_dark (h : j.phase ≠ .scanning) (s : State) : (issueTrack j s).scanning = false := by
  unfold issueTrack
  dsimp only
  split
  · exact failPre_dark _ h _
  all_goals exact not_scanning fun _ e => by cases e; exact h

/-! ## A line's close, and the end of its firing (R36, R70, R122) -/

theorem beginDrain_sched (j : ScanJob) (s : State) : (beginDrain j s).sched = s.sched :=
  Acts.only (p := besidePermit) (by apply_rules [beginDrain_acts, Acts.refl]) .sched rfl

theorem enterEnding_over (j : ScanJob) (done : s.sched.firing.live = false) : FiringOver (enterEnding j s) := by
  unfold enterEnding
  dsimp only
  split
  · exact .of_dark (putScan_dark (by simp) _) rfl done
  · exact .of_dark (beginDrain_dark (by simp) _) (by rw [beginDrain_sched]; rfl) (by rw [beginDrain_sched]; exact done)

theorem scanLineClosed_over (r : LineReport) (h : FiringOver s) : FiringOver (scanLineClosed r s) := by
  unfold scanLineClosed
  split
  next j run =>
    have closed : FiringOver (pushProgress (closeFields (j.lineClosed r) s.sched.nextShot s.intake.jobStrays)
        (putScan (j.lineClosed r) s)) := by
      have only := pushProgress_onlyIn (closeFields (j.lineClosed r) s.sched.nextShot s.intake.jobStrays)
        (putScan (j.lineClosed r) s)
      refine h.congr ?_ (only .sched rfl)
      rw [scanValues_congr (only .job rfl), scanValues_of_job run]
      rfl
    dsimp only
    split
    · exact enterEnding_over _ closed.finished
    · exact closed
  next => exact h

theorem closeLine_over (n : Nat) (r : EndReport) (h : FiringOver s) : FiringOver (closeLine n r s) := by
  have offered : FiringOver (if s.line.lost then s else (offerReserve (.trailer (trailerOf n r s)) s).1) := by
    split
    · exact h
    · have only : OnlyIn (fields [.staging, .loss]) s (offerReserve (.trailer (trailerOf n r s)) s).1 := by
        apply Acts.only; apply_rules [offerReserve_acts, Acts.refl]
      exact h.congr (scanValues_congr (only .job rfl)) (only .sched rfl)
  have closed := scanLineClosed_over
    { line := n, flags := closingFlags s, shotsLost := s.line.shotsLost, zone := s.tracker.zone }
    (offered.congr (t := (if s.line.lost then s else (offerReserve (.trailer (trailerOf n r s)) s).1).setLine
      { (if s.line.lost then s else (offerReserve (.trailer (trailerOf n r s)) s).1).line with flags := closingFlags s })
      rfl rfl)
  exact ⟨closed.noEnd, closed.off, rfl⟩

theorem closeCheck_over (h : FiringOver s) : FiringOver (closeCheck s) := by
  unfold closeCheck
  split
  next n r _ _ =>
    split
    · exact closeLine_over n r h
    · exact h
  next => exact h

/-- A line closes only while it drains, and then its firing is over (R70). -/
theorem closeCheck_cases (s : State) : closeCheck s = s ∨ (s.line.phase = .draining ∧ ∃ n r, closeCheck s = closeLine n r s) := by
  unfold closeCheck
  split
  next n r _ _ =>
    split
    next due => exact .inr ⟨due.1, n, r, rfl⟩
    next => exact .inl rfl
  next => exact .inl rfl

theorem closeCheck_sound (h : PermitSound s) : PermitSound (closeCheck s) := by
  rcases closeCheck_cases s with e | ⟨drains, n, r, e⟩ <;> rw [e]
  · exact h
  · refine (closeLine_over n r (h.finished ?_)).sound
    cases live : s.sched.firing.live
    · rfl
    · rw [(h.isOpen live).1] at drains; cases drains

/-- The end of a line's firing, whatever of the permit's conditions has gone before it (R30, R36). -/
theorem endFiring_firingOver (cause : EndCause) (noEnd : s.scanning = true → s.endWaitOf = .none)
    (firing : s.sched.permit = true → s.sched.firing = .firing) : FiringOver (endFiring cause s) := by
  unfold endFiring
  split
  next => exact closeCheck_over ⟨noEnd, rfl, rfl⟩
  next dead =>
    have done : s.sched.firing.live = false := Bool.eq_false_iff.mpr dead
    refine ⟨noEnd, ?_, done⟩
    cases permit : s.sched.permit
    · rfl
    · exact absurd (firing permit) (not_firing_of_over done)

theorem markStop_onlyIn (r : StopReason) (s : State) : OnlyIn (fields [.line]) s (markStop r s) := by
  unfold markStop
  split <;> (intro f hf; cases f <;> first | rfl | cases hf)

theorem stopRequest_over (r : StopReason) (h : PermitSound s) : FiringOver (stopRequest r s) := by
  have only := markStop_onlyIn r s
  have scan := scanValues_congr (only .job rfl)
  have sched : (markStop r s).sched = s.sched := only .sched rfl
  refine closeCheck_over (endFiring_firingOver .stop (fun run => ?_) (fun permit => ?_))
  · rw [endWaitOf_eq, scan, ← endWaitOf_eq]
    exact h.noEnd (scanning_congr scan ▸ run)
  · rw [sched] at permit ⊢
    exact h.firing.mp permit

theorem endIfNoLine_over (h : FiringOver s) : FiringOver (endIfNoLine s) := by
  unfold endIfNoLine
  split
  next =>
    split
    · exact enterEnding_over _ h.finished
    · exact h
  next => exact h

/-- A scan whose values change, but not its phase, its end and its slot. -/
theorem PermitSound.putScan (h : PermitSound s) (run : s.job = some (.scan k))
    (same : (j.phase, j.endWait, j.params.slot) = (k.phase, k.endWait, k.params.slot)) : PermitSound (putScan j s) := by
  refine h.parts (.of_onlyIn (Acts.only (putScan_acts j (.refl _ s) rfl)) ?_)
  rw [scanValues_of_job run, ← same]
  rfl

theorem failScanning_sound (c : ResultCode) (r : StopReason) (h : PermitSound s) (run : s.job = some (.scan k))
    (same : (j.phase, j.endWait, j.params.slot) = (k.phase, k.endWait, k.params.slot)) :
    PermitSound (failScanning c r j s) := by
  unfold failScanning
  dsimp only
  split
  next => exact h.putScan run same
  next =>
    refine (endIfNoLine_over (stopRequest_over r ?_)).sound
    exact h.putScan run same

theorem scanFail_sound (c : ResultCode) (r : StopReason) (h : PermitSound s) : PermitSound (scanFail c r s) := by
  unfold scanFail
  split
  next => exact h
  next j run =>
    have run : s.job = some (.scan j) := by
      unfold State.scanJob at run
      split at run
      next e => cases run; exact e
      next => cases run
    split
    next => exact failScanning_sound c r h run rfl
    next =>
      split
      · exact h.putScan run rfl
      · exact h
    all_goals exact h

/-! ## The permit computed anew (R22, R27, R28, R30) -/

/-- What the permit rests on while it is computed anew: all but that it is exact. -/
structure PermitReady (s : State) : Prop where
  noEnd  : s.scanning = true → s.endWaitOf = .none
  isOpen : s.sched.firing.live = true → s.line.phase = .assembling ∧ s.line.stopTaken = false
  firing : s.sched.permit = true ↔ s.sched.firing = .firing
  slot   : s.sched.permit = true → s.scanSlot.isSome = true

theorem PermitSound.ready (h : PermitSound s) (job : t.job = s.job) (sched : t.sched = s.sched) (line : t.line = s.line)
    (slots : t.slots = s.slots) : PermitReady t := by
  have scan := scanValues_congr job
  refine ⟨fun run => ?_, by rw [sched, line]; exact h.isOpen, by rw [sched]; exact h.firing, fun permit => ?_⟩
  · rw [endWaitOf_eq, scan, ← endWaitOf_eq]
    exact h.noEnd (scanning_congr scan ▸ run)
  · rw [scanSlot_eq, scan, slots, ← scanSlot_eq]
    exact (h.exact.mp (sched ▸ permit)).2

theorem PermitReady.parts (h : PermitReady s) (same : SameParts s t) : PermitReady t where
  noEnd run := by
    rw [endWaitOf_eq, same.scan, ← endWaitOf_eq]
    exact h.noEnd (scanning_congr same.scan ▸ run)
  isOpen live := by
    rw [same.phase, same.stop]
    exact h.isOpen (same.firing ▸ live)
  firing := by rw [same.permit, same.firing]; exact h.firing
  slot permit := by rw [same.scanSlot]; exact h.slot (same.permit ▸ permit)

theorem live_of_permitHolds (h : s.permitHolds = true) : s.sched.firing.live = true := by
  unfold State.permitHolds at h
  simp only [Bool.and_eq_true] at h
  exact h.1.2

theorem permitRises_sound (h : PermitReady s) (holds : s.permitHolds = true) (waits : s.sched.firing = .waiting) :
    PermitSound (permitRises s) := by
  unfold permitRises
  split
  next absent =>
    have off : ¬ s.sched.permit = true := fun e => by rw [h.firing.mp e] at waits; cases waits
    exact ⟨h.noEnd, h.isOpen, h.firing, ⟨fun e => absurd e off, fun ⟨_, found⟩ => by rw [absent] at found; cases found⟩⟩
  next sl slot =>
    have opened := h.isOpen (live_of_permitHolds holds)
    refine ⟨h.noEnd, fun _ => opened, ⟨fun _ => rfl, fun _ => rfl⟩, ⟨fun _ => ⟨?_, ?_⟩, fun _ => rfl⟩⟩
    · unfold State.permitHolds at holds ⊢
      rw [waits] at holds
      exact holds
    · exact (congrArg Option.isSome slot : _)

/-- The permit computed anew is sound, whatever has become of mirror, Emission Permit and sector. -/
theorem recomputePermit_sound (h : PermitReady s) : PermitSound (recomputePermit s) := by
  unfold recomputePermit
  split
  next holds =>
    split
    next waits => exact permitRises_sound h holds waits
    next busy =>
      have firing : s.sched.firing = .firing := by
        have live := live_of_permitHolds holds
        cases e : s.sched.firing <;> rw [e] at live busy <;> first | rfl | exact absurd rfl busy | cases live
      have permit := h.firing.mpr firing
      exact ⟨h.noEnd, h.isOpen, h.firing, ⟨fun _ => ⟨holds, h.slot permit⟩, fun _ => permit⟩⟩
  next falls =>
    split
    next => exact (endFiring_firingOver .permit h.noEnd h.firing.mp).sound
    next idle =>
      have idle : s.sched.firing ≠ .firing := fun e => idle ⟨h.firing.mpr e, e⟩
      refine ⟨h.noEnd, h.isOpen, ⟨fun e => (by cases e), fun e => absurd e idle⟩, ⟨fun e => (by cases e), fun ⟨holds, _⟩ => ?_⟩⟩
      exact absurd holds falls

end Sys2Proof.Machine

/-! PROOFS. The beam permit is kept exact by every step (R22, R27), and the laser fires under it alone (R31). -/

namespace Sys2Proof.Machine

variable {s t u : State} {p : Field → Bool} {j k : ScanJob}

/-! ## Operations that leave what the permit is read from (O7) -/

/-- Every field but the Scheduler and the line. -/
abbrev besideSched (f : Field) : Bool := decide (f ∉ [.sched, .line])

theorem PermitSound.leaves (h : PermitSound s) (a : Acts besideSched s t) (before : s.scanning = false)
    (after : t.scanning = false) : PermitSound t :=
  h.dark before after (a.only .sched rfl) (a.only .line rfl)

/-- The Page Manager ends no SCANNING job, since such a job waits for nothing. -/
theorem PermitSound.manages (h : PermitSound s) (m : PageManages s t) (a : Acts besideSched s t) : PermitSound t := by
  cases waits : s.waitsOnPages
  case false =>
    exact h.parts (.of_onlyIn ((m.quiet waits).within (by decide)) (scanValues_congr (m.quiet waits .job rfl)))
  case true =>
    have dark : s.scanning = false := by
      cases scan : s.scanning
      · rfl
      · obtain ⟨j, run, -⟩ := job_of_scanning scan
        have none : j.endWait = .none := by
          have := h.noEnd scan
          unfold State.endWaitOf at this
          rwa [scanJob_of_job run] at this
        unfold State.waitsOnPages at waits
        rw [run] at waits
        exact absurd none (of_decide_eq_true waits)
    refine h.leaves a dark ?_
    rcases m.ends with same | ended
    · rw [scanning_congr (scanValues_congr same)]; exact dark
    · exact not_scanning_of_none ended

theorem advancePages_sound (h : PermitSound s) : PermitSound (advancePages s) :=
  h.manages (advancePages_manages s) (by apply_rules [advancePages_acts, Acts.refl])

theorem not_scanning_of_job {x : Job} (run : s.job = some x) (other : ∀ j, x = .scan j → j.phase ≠ .scanning) :
    s.scanning = false :=
  not_scanning fun j e => other j (Option.some.inj (run.symm.trans e))

/-! ## Jobs taken -/

theorem moveRequest_job (target : Angle) (settle : Nat) (s : State) : (moveRequest target settle s).1.job = s.job :=
  (moveRequest_acts (p := besidePermitAndJob) target settle (.refl _ s) rfl).only .job rfl

theorem takeSetup_dark (s : State) : (takeSetup s).scanning = false := by
  unfold takeSetup
  dsimp only
  split
  · exact handResult_dark ..
  · split
    · exact finishOpen_dark ..
    · exact finishJob_dark ..

theorem takeSpin_dark (s : State) : (takeSpin s).scanning = false := by
  unfold takeSpin
  dsimp only
  split
  · split
    · rfl
    · exact finishOpen_dark ..
  · exact handResult_dark ..

theorem takeTurn_dark (s : State) : (takeTurn s).scanning = false := by
  unfold takeTurn
  dsimp only
  split
  · exact handResult_dark ..
  · split
    · exact handResult_dark ..
    · split
      · exact handResult_dark ..
      · split
        · exact finishOpen_dark ..
        all_goals exact not_scanning_of_job (moveRequest_job _ _ _) (by rintro _ ⟨⟩)

theorem takeProfile_dark (s : State) : (takeProfile s).scanning = false := by
  unfold takeProfile
  dsimp only
  split
  · exact handResult_dark ..
  · split
    · exact handResult_dark ..
    · rfl

theorem takeReport_dark (s : State) : (takeReport s).scanning = false := by
  unfold takeReport
  dsimp only
  split
  · exact handResult_dark ..
  · rfl

theorem takeMark_dark (s : State) : (takeMark s).scanning = false := by
  unfold takeMark
  dsimp only
  split
  · rfl
  · exact finishJob_dark ..

theorem cameraLost_dark (a : PhotoJob) (s : State) : (cameraLost a s).scanning = false := endPhotoJob_dark ..

theorem exposeStation_job (a : PhotoJob) (s : State) : (exposeStation a s).job = s.job := by
  unfold exposeStation
  split <;> rfl

theorem beginStation_dark (a : PhotoJob) (s : State) : (beginStation a s).scanning = false := by
  unfold beginStation
  split
  · exact cameraLost_dark a s
  · split
    · exact endPhotoJob_dark a s
    · dsimp only
      split
      · exact not_scanning_of_job ((exposeStation_job a _).trans (moveRequest_job ..)) (by rintro _ ⟨⟩)
      all_goals exact not_scanning_of_job (moveRequest_job ..) (by rintro _ ⟨⟩)

theorem takePhoto_dark (s : State) : (takePhoto s).scanning = false := by
  unfold takePhoto
  split
  · exact handResult_dark ..
  · exact beginStation_dark ..

/-- A scan at its take has no permit and no line (R25, R66). -/
theorem takeScan_sound (h : PermitSound s) (before : s.scanning = false) : PermitSound (takeScan s) := by
  unfold takeScan
  dsimp only
  split
  next r _ =>
    exact h.leaves (by apply_rules [handResult_acts, Acts.refl]) before (handResult_dark ..)
  next =>
    have started : PermitSound (startScan (scanParams s.reader.block) s) :=
      (FiringOver.of_dark (t := startScan (scanParams s.reader.block) s) (putScan_dark (by simp [newScan]) _)
        (h.off before) rfl).sound
    split
    · refine started.leaves ?_ (putScan_dark (by simp [newScan]) _) (enterPosition_dark _ _)
      apply_rules [enterPosition_acts, Acts.refl]
    · exact started

theorem dispatchJob_sound (h : PermitSound s) : PermitSound (dispatchJob s) := by
  unfold dispatchJob
  split
  next k idle _ =>
    have taken : PermitSound ((s.setJobSerial (s.jobSerial + 1)).setReader { s.reader with activity := .job }) :=
      h.acts (setReader_acts _ (setJobSerial_acts _ (.refl _ _) rfl) rfl)
    have dark : ((s.setJobSerial (s.jobSerial + 1)).setReader { s.reader with activity := .job }).scanning = false :=
      not_scanning_of_none idle
    unfold takeJob
    split
    · exact taken.leaves (by apply_rules [takeSetup_acts, Acts.refl]) dark (takeSetup_dark _)
    · exact taken.leaves (by apply_rules [takeSpin_acts, Acts.refl]) dark (takeSpin_dark _)
    · exact taken.leaves (by apply_rules [takePark_acts, Acts.refl]) dark (finishOpen_dark ..)
    · exact taken.leaves (by apply_rules [takeTurn_acts, Acts.refl]) dark (takeTurn_dark _)
    · exact taken.leaves (by apply_rules [takeProfile_acts, Acts.refl]) dark (takeProfile_dark _)
    · exact taken.leaves (by apply_rules [takeReport_acts, Acts.refl]) dark (takeReport_dark _)
    · exact takeScan_sound taken dark
    · exact taken.leaves (by apply_rules [takePhoto_acts, Acts.refl]) dark (takePhoto_dark _)
    · exact taken.leaves (by apply_rules [takeMark_acts, Acts.refl]) dark (takeMark_dark _)
  next => exact h

end Sys2Proof.Machine

/-! PROOFS. What is reported of transfers keeps the beam permit exact (R22, R27). -/

namespace Sys2Proof.Machine

variable {s t u : State} {j k : ScanJob}

/-! ## A job that is told of its end, or of a failure -/

theorem profileReadDone_sound (data : List Byte) (h : PermitSound s) : PermitSound (profileReadDone data s) := by
  unfold profileReadDone
  split
  next slot source run =>
    have dark : s.scanning = false := not_scanning_of_job run (by rintro _ ⟨⟩)
    dsimp only
    split
    · exact h.leaves (finishJob_acts _ _ (setSlots_acts _ (.refl _ s) rfl) rfl rfl rfl rfl rfl) dark (finishJob_dark ..)
    · refine h.leaves (finishJob_acts _ _ ?_ rfl rfl rfl rfl rfl) dark (finishJob_dark ..)
      exact setSlots_acts _ (setSlots_acts _ (.refl _ s) rfl) rfl
  next => exact h

theorem reportWriteDone_sound (h : PermitSound s) : PermitSound (reportWriteDone s) := by
  unfold reportWriteDone
  split
  next run =>
    exact h.leaves (by apply_rules [finishJob_acts, Acts.refl]) (not_scanning_of_job run (by rintro _ ⟨⟩)) (finishJob_dark ..)
  next => exact h

theorem markWritten_sound (seq : Nat) (h : PermitSound s) : PermitSound (markWritten seq s) := by
  unfold markWritten
  split
  next run =>
    refine h.leaves ?_ (not_scanning_of_job run.2 (by rintro _ ⟨⟩)) (finishJob_dark ..)
    exact finishJob_acts _ _ (setMarkWait_acts _ (.refl _ _) rfl) rfl rfl rfl rfl rfl
  next => exact h

theorem scanTrailerStored_sound (line : Nat) (run : s.job = some (.scan j)) (h : PermitSound s) :
    PermitSound (scanTrailerStored line j s) := by
  have put := h.putScan (j := { j with linesStored := j.linesStored + 1, lastStored := some line }) run rfl
  exact put.acts (by apply_rules [pushProgress_acts, Acts.refl])

theorem recordReport_sound (e : Entry) (h : PermitSound s) : PermitSound (recordReport e s) := by
  unfold recordReport
  split
  next =>
    refine h.acts ?_
    dsimp only
    split
    · exact putPage_acts _ (setPages_acts _ (.refl _ s) rfl) rfl
    · exact setPages_acts _ (.refl _ s) rfl
  next r _ =>
    split
    next j run =>
      split
      · exact h.putScan run rfl
      · exact h
    next => exact h
  next x _ =>
    have told : PermitSound (if s.pages.line.map (fun x => (x.1, x.2.line)) = some (e.job, x.line)
        then s.setPages { s.pages with line := none } else s) := by
      split
      · exact h.acts (setPages_acts _ (.refl _ s) rfl)
      · exact h
    dsimp only
    generalize (if s.pages.line.map (fun x => (x.1, x.2.line)) = some (e.job, x.line)
        then s.setPages { s.pages with line := none } else s) = t at told ⊢
    split
    next j run =>
      split
      · exact scanTrailerStored_sound x.line run told
      · exact told
    next => exact told
  next => exact markWritten_sound _ h
  all_goals exact h

theorem recordWritten_sound (len : Nat) (h : PermitSound s) : PermitSound (recordWritten len s) := by
  unfold recordWritten
  split
  next e rest queue =>
    refine recordReport_sound e (h.acts ?_)
    refine setFirsts_acts _ (raiseFill_acts _ (setStaging_acts _ (.refl _ s) rfl ?_) rfl) rfl
    rw [queue]
    exact queueKept_tail e rest
  next => exact h

theorem stationEnded_dark (status : StationStatus) (cause : Option PhotoEnd) (a : PhotoJob) (s : State) :
    (stationEnded status cause a s).scanning = false := by
  unfold stationEnded
  dsimp only
  split
  · exact beginStation_dark ..
  · exact endPhotoJob_dark ..

theorem tellStationEnded_sound (status : StationStatus) (cause : Option PhotoEnd) (h : PermitSound s) :
    PermitSound (tellStationEnded status cause s) := by
  unfold tellStationEnded
  split
  next a run =>
    refine h.leaves ?_ (not_scanning_of_job run (by rintro _ ⟨⟩)) (stationEnded_dark ..)
    apply_rules [stationEnded_acts, Acts.refl]
  next j run =>
    split
    next ending =>
      have phase : j.phase ≠ .scanning := by rw [ending.1]; simp
      refine h.leaves ?_ (not_scanning_of_job run (by rintro _ ⟨⟩; exact phase)) (beginDrain_dark phase s)
      apply_rules [beginDrain_acts, Acts.refl]
    next => exact h
  next => exact h

theorem photoFinish_sound (h : PermitSound s) : PermitSound (photoFinish s) := by
  unfold photoFinish
  split
  next p _ =>
    refine tellStationEnded_sound _ _ (h.acts ?_)
    apply restPhoto_acts _ rfl
    have cleared := setPhoto_acts (p := besidePermitAndJob)
      { s.photo with current := none, rows := [], stations := setStatus p.station (endStatus p.endCause) s.photo.stations }
      (.refl _ s) rfl (.inl (Nat.zero_le _))
    split
    · exact enterCheck_acts _ cleared rfl
    · exact cleared
  next => exact h

theorem photoHeaderWritten_sound (h : PermitSound s) : PermitSound (photoHeaderWritten s) := by
  unfold photoHeaderWritten
  split
  next p _ =>
    refine photoFinish_sound (h.acts ?_)
    split <;> apply_rules [spendFree_acts, offerReserve_acts, Acts.refl]
  next => exact h

theorem photoDrained_sound (h : PermitSound s) : PermitSound (photoDrained s) := by
  unfold photoDrained
  split
  next =>
    split
    · exact photoFinish_sound h
    · exact h
  next => exact h

theorem completed_sound (x : Purpose) (len : Nat) (data : List Byte) (h : PermitSound s) :
    PermitSound (completed x len data s) := by
  unfold completed
  split
  · exact h.acts (by apply_rules [examinationRead_acts, Acts.refl])
  · exact dispatchJob_sound h
  · exact h.acts (by apply_rules [blockWritten_acts, Acts.refl])
  · exact h.acts (by apply_rules [resultCodeWritten_acts, Acts.refl])
  · exact h.acts (by apply_rules [resultStateWritten_acts, Acts.refl])
  · exact h.acts (by apply_rules [linkRead_acts, Acts.refl])
  · exact profileReadDone_sound data h
  · exact reportWriteDone_sound h
  · exact h.manages (descriptorRead_manages data s) (by apply_rules [descriptorRead_acts, Acts.refl])
  · exact h.acts (by apply_rules [takeFieldWritten_acts, Acts.refl])
  · exact h.acts (by apply_rules [takeStateWritten_acts, Acts.refl])
  · exact h.acts (by apply_rules [sealFieldWritten_acts, Acts.refl])
  · exact h.manages (sealStateWritten_manages s) (by apply_rules [sealStateWritten_acts, Acts.refl])
  · exact recordWritten_sound len h
  · exact h.acts (by apply_rules [continuationWritten_acts, Acts.refl])
  · split
    · exact h.acts (by apply_rules [rowStored_acts, Acts.refl])
    · exact h
  · exact photoHeaderWritten_sound h

/-! ## ABORT, and memory faults at the running job -/

theorem scanPhase_dark (run : s.job = some (.scan j)) (h : j.phase ≠ .scanning) : s.scanning = false :=
  not_scanning_of_job run (by rintro _ ⟨⟩; exact h)

theorem abortScan_sound (run : s.job = some (.scan j)) (h : PermitSound s) : PermitSound (abortScan j s) := by
  have early (phase : j.phase ≠ .scanning) : PermitSound (
      if j.endWait = .none then failPre .aborted j s else if s.sealBegun then s else endScan j (clearMark s)) := by
    have dark := scanPhase_dark run phase
    split
    · exact h.leaves (by apply_rules [failPre_acts, Acts.refl]) dark (failPre_dark _ phase s)
    · split
      · exact h
      · exact h.leaves (by apply_rules [endScan_acts, clearMark_acts, Acts.refl]) dark (endScan_dark ..)
  unfold abortScan
  split
  next e => exact early (by rw [e]; simp)
  next e => exact early (by rw [e]; simp)
  next e => exact early (by rw [e]; simp)
  next =>
    unfold abortScanning
    have aborted : Acts besidePermitAndJob s (if s.inlinePhoto then abortPhotograph s else s) := by
      split <;> apply_rules [abortPhotograph_acts, Acts.refl]
    exact failScanning_sound (k := j) _ _ (h.acts aborted) ((aborted.only .job rfl).trans run) rfl
  next e =>
    have phase : j.phase ≠ .scanning := by rw [e]; simp
    have dark := scanPhase_dark run phase
    unfold abortEnding
    dsimp only
    split
    · exact h.putScan run rfl
    · split
      · exact h.putScan run rfl
      · exact h.leaves (by apply_rules [discardScan_acts, Acts.refl]) dark (discardScan_dark ..)

theorem abortPhotograph_job (s : State) : (abortPhotograph s).job = s.job :=
  (Acts.only (p := besidePermitAndJob) (by apply_rules [abortPhotograph_acts, Acts.refl])) .job rfl

theorem abortPhoto_dark (a : PhotoJob) (s : State) : (abortPhoto a s).scanning = false := by
  unfold abortPhoto
  dsimp only
  split
  · split
    · rfl
    · exact handPhoto_dark ..
  · split
    · exact not_scanning_of_job (abortPhotograph_job _) (by rintro _ ⟨⟩)
    · exact endPhotoJob_dark ..

theorem abortSealWait_dark (kind : JobKind) (r : JobResult) (s : State) : (abortSealWait kind r s).scanning = false := by
  unfold abortSealWait
  split
  · rfl
  · exact handResult_dark ..

theorem abortJob_sound {x : Job} (run : s.job = some x) (h : PermitSound s) : PermitSound (abortJob x s) := by
  unfold abortJob
  split
  case h_7 j => exact abortScan_sound run h
  all_goals have dark : s.scanning = false := not_scanning_of_job run (by rintro _ ⟨⟩)
  · exact h.leaves (by apply_rules [finishOpen_acts, Acts.refl]) dark (finishOpen_dark ..)
  · exact h.leaves (by apply_rules [finishOpen_acts, decelerate_acts, Acts.refl]) dark (finishOpen_dark ..)
  · exact h.leaves (by apply_rules [finishOpen_acts, giveUp_acts, Acts.refl]) dark (finishOpen_dark ..)
  · exact h.leaves (by apply_rules [finishOpen_acts, giveUp_acts, Acts.refl]) dark (finishOpen_dark ..)
  · exact h.leaves (finishOpen_acts _ _ (setMarkWait_acts _ (.refl _ s) rfl) rfl rfl rfl rfl rfl rfl) dark (finishOpen_dark ..)
  · exact h.leaves (by apply_rules [abortSealWait_acts, Acts.refl]) dark (abortSealWait_dark ..)
  · exact h.leaves (by apply_rules [abortPhoto_acts, Acts.refl]) dark (abortPhoto_dark ..)

theorem scanMemoryFault_sound (run : s.job = some (.scan j)) (h : PermitSound s) : PermitSound (scanMemoryFault j s) := by
  have early (phase : j.phase ≠ .scanning) :
      PermitSound (if j.endWait = .none then failPre .memoryFault j s else endScan j s) := by
    have dark := scanPhase_dark run phase
    split
    · exact h.leaves (by apply_rules [failPre_acts, Acts.refl]) dark (failPre_dark _ phase s)
    · exact h.leaves (by apply_rules [endScan_acts, Acts.refl]) dark (endScan_dark ..)
  unfold scanMemoryFault
  split
  next e => exact early (by rw [e]; simp)
  next e => exact early (by rw [e]; simp)
  next e => exact early (by rw [e]; simp)
  next => exact failScanning_sound _ _ h run rfl
  next e =>
    dsimp only
    split
    · exact h.putScan run rfl
    · exact h.leaves (by apply_rules [endScan_acts, Acts.refl]) (scanPhase_dark run (by rw [e]; simp)) (endScan_dark ..)

theorem photoJobMemoryFault_dark (descriptor : Bool) (a : PhotoJob) (s : State) :
    (photoJobMemoryFault descriptor a s).scanning = false := by
  unfold photoJobMemoryFault
  dsimp only
  split
  · exact handPhoto_dark ..
  · split
    · rfl
    · split
      · exact handPhoto_dark ..
      · exact endPhotoJob_dark ..

theorem jobMemoryFault_sound (descriptor : Bool) (h : PermitSound s) : PermitSound (jobMemoryFault descriptor s) := by
  unfold jobMemoryFault
  split
  next j run => exact scanMemoryFault_sound run h
  next a run =>
    exact h.leaves (by apply_rules [photoJobMemoryFault_acts, Acts.refl]) (not_scanning_of_job run (by rintro _ ⟨⟩))
      (photoJobMemoryFault_dark ..)
  next run =>
    refine h.leaves ?_ (not_scanning_of_job run (by rintro _ ⟨⟩)) (handResult_dark ..)
    exact handResult_acts _ (spendFree_acts (setMarkWait_acts _ (.refl _ s) rfl) rfl) rfl rfl rfl rfl
  next r run =>
    exact h.leaves (by apply_rules [handResult_acts, Acts.refl]) (not_scanning_of_job run (by rintro _ ⟨⟩))
      (handResult_dark ..)
  all_goals exact h

/-! ## Faults (R169), and every outcome -/

theorem jobAccessFault_sound (h : PermitSound s) : PermitSound (jobAccessFault s) := by
  unfold jobAccessFault
  split
  next run =>
    exact h.leaves (by apply_rules [finishJob_acts, Acts.refl]) (not_scanning_of_job run (by rintro _ ⟨⟩)) (finishJob_dark ..)
  next run =>
    exact h.leaves (by apply_rules [finishJob_acts, Acts.refl]) (not_scanning_of_job run (by rintro _ ⟨⟩)) (finishJob_dark ..)
  next => exact h

theorem writeBackFault_sound (h : PermitSound s) : PermitSound (writeBackFault s) := by
  unfold writeBackFault
  split
  next x run => exact abortJob_sound (s := s.setReader s.reader.lost) run (h.acts (setReader_acts _ (.refl _ s) rfl))
  next => exact h.acts (by apply_rules [haltOnLoss_acts, Acts.refl])

theorem abandonPage_sound (h : PermitSound s) : PermitSound (abandonPage s) := by
  unfold abandonPage
  split
  next => exact h
  next p _ =>
    dsimp only
    have told := jobMemoryFault_sound false (h.acts (t := clearMark (ignore (fun t => decide (t.requester = .record))
      (withdrawRecords (putPage { p with stage := .abandoned, sealing := none } s))))
      (by apply_rules [clearMark_acts, ignore_acts, withdrawRecords_acts, putPage_acts, Acts.refl]))
    exact told.acts (by apply_rules [endAbandon_acts, discardLines_acts, Acts.refl])

theorem descriptorFault_sound (h : PermitSound s) : PermitSound (descriptorFault s) :=
  jobMemoryFault_sound true (h.acts (clearMark_acts (setPages_acts _ (.refl _ s) rfl) rfl))

theorem faulted_sound (x : Purpose) (h : PermitSound s) : PermitSound (faulted x s) := by
  have halted : PermitSound (haltOnLoss s) := h.acts (by apply_rules [haltOnLoss_acts, Acts.refl])
  unfold faulted
  split
  case h_6 => exact writeBackFault_sound h
  case h_7 | h_8 => exact jobAccessFault_sound h
  case h_9 | h_10 | h_11 | h_12 | h_13 => exact descriptorFault_sound h
  case h_14 | h_15 => exact abandonPage_sound h
  case h_16 => exact h.acts (by apply_rules [photoMemoryFault_acts, Acts.refl])
  case h_17 => exact h.acts (by apply_rules [photoHeaderFault_acts, Acts.refl])
  all_goals exact halted

theorem requesterDrained_sound (r : Requester) (h : PermitSound s) : PermitSound (requesterDrained r s) := by
  unfold requesterDrained
  split
  · exact h.acts (by apply_rules [endAbandon_acts, Acts.refl])
  · exact photoDrained_sound h
  all_goals exact h

theorem reportOutcome_sound (x : Transfer) (a : Answer) (h : PermitSound s) : PermitSound (reportOutcome x a s) := by
  unfold reportOutcome
  split
  · exact h
  · refine requesterDrained_sound _ ?_
    split
    · exact completed_sound _ _ _ h
    · exact h
  · refine requesterDrained_sound _ ?_
    split
    · exact faulted_sound _ h
    · exact h

theorem PermitSound.onlyIn {l : List Field} (h : PermitSound s) (o : OnlyIn (fields l) s t)
    (sub : ∀ f ∈ l, besidePermitAndJob f = true) : PermitSound t :=
  h.parts (.of_onlyIn (o.within fun f mem => by have := sub f mem; cases f <;> first | rfl | exact this)
    (scanValues_congr (o .job (decide_eq_false fun mem => absurd (sub _ mem) (by decide)))))

theorem permitSound_reports : KeptByReports PermitSound where
  answers _ _ _ _ h := h.onlyIn (setPort_onlyIn _ _) (by decide)
  leaves _ _ _ _ _ h := h.onlyIn (setPort_onlyIn _ _) (by decide)
  latches _ _ _ h := h.onlyIn (latchFault_onlyIn _ _ _) (by decide)
  lands x _ h := h.acts (landed_acts x (.refl _ _) rfl)
  outcome x a _ h := reportOutcome_sound x a h
  pages _ h := advancePages_sound h

theorem permitSound_events : KeptByEvents PermitSound :=
  permitSound_reports.events (fun _ _ _ h => h.onlyIn (readNotice_onlyIn _ _ _) (by decide))
    (fun _ h => h.onlyIn (arbitrate_onlyIn _) (by decide))

end Sys2Proof.Machine

/-! PROOFS. The events of Sweep Control, the scan, the shots and the camera keep the beam permit exact (R20 to R22, R30); the
laser fires under the permit alone (R31). -/

namespace Sys2Proof.Machine

variable {s t u : State} {j k : ScanJob}

/-! ## Sweep Control (R2 to R7, R20 to R22) -/

theorem job_of_scanJob (h : s.scanJob = some j) : s.job = some (.scan j) := by
  unfold State.scanJob at h
  split at h
  next e => cases h; exact e
  next => cases h

theorem jobMirror_sound (h : PermitSound s) : PermitSound (jobMirror s) := by
  unfold jobMirror
  split
  next run =>
    exact h.leaves (by apply_rules [finishOpen_acts, Acts.refl]) (not_scanning_of_job run (by rintro _ ⟨⟩)) (finishOpen_dark ..)
  next j _ run =>
    split
    next hold =>
      refine h.leaves ?_ (scanPhase_dark run (by rw [hold.1]; simp)) (enterPosition_dark ..)
      apply_rules [enterPosition_acts, Acts.refl]
    next => exact h
  next j _ run =>
    split
    next early =>
      have phase : j.phase ≠ .scanning := by rcases early.1 with e | e <;> rw [e] <;> simp
      exact h.leaves (by apply_rules [failPre_acts, Acts.refl]) (scanPhase_dark run phase) (failPre_dark _ phase s)
    next => exact scanFail_sound _ _ h
  next run =>
    exact h.leaves (by apply_rules [finishJob_acts, Acts.refl]) (not_scanning_of_job run (by rintro _ ⟨⟩)) (finishJob_dark ..)
  next j _ run =>
    split
    next hold =>
      have phase : j.phase ≠ .scanning := by rw [hold.1]; simp
      exact h.leaves (by apply_rules [failPre_acts, Acts.refl]) (scanPhase_dark run phase) (failPre_dark _ phase s)
    next => exact h
  next => exact h

theorem mirrorChanged_sound (h : PermitReady s) : PermitSound (mirrorChanged s) := jobMirror_sound (recomputePermit_sound h)

theorem PermitSound.ready_setMirror (h : PermitSound s) (x : Mirror) : PermitReady (s.setMirror x) := h.ready rfl rfl rfl rfl

/-- A mirror that does not enter or leave LOCKED leaves the permit as it is. -/
theorem PermitSound.setMirror (h : PermitSound s) (x : Mirror) (same : x.state = .locked ↔ s.mirror.state = .locked) :
    PermitSound (s.setMirror x) :=
  h.parts ⟨same, rfl, rfl, rfl, rfl, rfl, rfl, rfl, fun _ => rfl⟩

theorem rateWatchMirror_locked (now : Nat) (x : Mirror) : (rateWatchMirror now x).state = .locked ↔ x.state = .locked := by
  unfold rateWatchMirror
  split
  next e => rw [e]; simp
  next => rfl

theorem rateWatchOver_sound (h : PermitSound s) : PermitSound (rateWatchOver s) := by
  unfold rateWatchOver
  split
  · exact h.setMirror _ (rateWatchMirror_locked _ _)
  · exact h

theorem watchdogOver_sound (h : PermitSound s) : PermitSound (watchdogOver s) := by
  unfold watchdogOver
  split
  · exact advancePages_sound (mirrorChanged_sound (h.ready_setMirror _))
  · exact h

theorem spinUpLimitOver_sound (h : PermitSound s) : PermitSound (spinUpLimitOver s) := by
  unfold spinUpLimitOver
  split
  · have ready := h.ready_setMirror { s.mirror with state := .fault, lockCount := 0, spinUpEnd := none }
    exact advancePages_sound (mirrorChanged_sound (ready.parts (.of_acts (raise_acts .fault (.refl _ _) rfl))))
  · exact h

theorem permitFalls_sound (h : PermitReady s) : PermitSound (permitFalls s) := scanFail_sound _ _ (recomputePermit_sound h)

theorem permitDeasserted_sound (h : PermitSound s) : PermitSound (permitDeasserted s) := by
  unfold permitDeasserted
  dsimp only
  split
  · exact advancePages_sound (permitFalls_sound (h.ready rfl rfl rfl rfl))
  next asserted =>
    exact h.parts ⟨.rfl, (Bool.not_eq_true _ ▸ asserted : s.emission.asserted = false).symm, rfl, rfl, rfl, rfl, rfl, rfl,
      fun _ => rfl⟩

theorem permitAsserted_sound (h : PermitSound s) : PermitSound (permitAsserted s) := by
  unfold permitAsserted
  split
  · exact h
  · exact h.parts ⟨.rfl, rfl, rfl, rfl, rfl, rfl, rfl, rfl, fun _ => rfl⟩

theorem permitCounted_sound (h : PermitSound s) : PermitSound (permitCounted s) := by
  unfold permitCounted
  split
  · exact recomputePermit_sound (h.ready rfl rfl rfl rfl)
  · exact h

theorem sectorEntered_sound (h : PermitSound s) : PermitSound (sectorEntered s) := by
  unfold sectorEntered
  split
  next =>
    split
    · exact recomputePermit_sound (h.ready rfl rfl rfl rfl)
    · exact h
  next => exact h

theorem sectorLeft_sound (h : PermitSound s) : PermitSound (sectorLeft s) := by
  unfold sectorLeft
  split
  next =>
    split
    · have ended := endFiring_firingOver (s := s.setSector { s.sector with inside := false }) .sectorExit h.noEnd h.firing.mp
      exact advancePages_sound (recomputePermit_sound (ended.sound.ready rfl rfl rfl rfl))
    · exact h
  next => exact h

theorem jobArrived_sound (h : PermitSound s) : PermitSound (jobArrived s) := by
  unfold jobArrived
  split
  next run =>
    exact h.leaves (by apply_rules [finishOpen_acts, Acts.refl]) (not_scanning_of_job run (by rintro _ ⟨⟩)) (finishOpen_dark ..)
  next j run =>
    split
    next position =>
      refine h.leaves ?_ (scanPhase_dark run (by rw [position.1]; simp)) (enterRunIn_dark ..)
      apply_rules [enterRunIn_acts, Acts.refl]
    next => exact h
  next a run =>
    split
    · exact h.acts (by apply_rules [exposeStation_acts, Acts.refl])
    · exact h
  next => exact h

theorem answerArrived_sound (h : PermitSound s) : PermitSound (answerArrived s) := by
  unfold answerArrived
  split
  · exact jobArrived_sound (h.acts (setTurntable_acts _ (.refl _ s) rfl))
  · exact h

theorem settled_sound (h : PermitSound s) : PermitSound (settled s) := by
  unfold settled
  split
  · exact advancePages_sound (answerArrived_sound (h.acts (setTurntable_acts _ (.refl _ s) rfl)))
  · exact h

theorem photoTurntableFault_dark (a : PhotoJob) (run : s.job = some (.photo a)) :
    (photoTurntableFault a s).scanning = false := by
  unfold photoTurntableFault
  dsimp only
  split
  · exact endPhotoJob_dark ..
  · rfl
  · rfl
  all_goals exact not_scanning_of_job run (by rintro _ ⟨⟩)

theorem jobTurntableFault_sound (h : PermitSound s) : PermitSound (jobTurntableFault s) := by
  unfold jobTurntableFault
  split
  next =>
    split
    next run =>
      exact h.leaves (by apply_rules [finishJob_acts, Acts.refl]) (not_scanning_of_job run (by rintro _ ⟨⟩))
        (finishJob_dark ..)
    next j run =>
      split
      next position =>
        have phase : j.phase ≠ .scanning := by rw [position.1]; simp
        exact h.leaves (by apply_rules [failPre_acts, Acts.refl]) (scanPhase_dark run phase) (failPre_dark _ phase s)
      next => exact h
    next a run =>
      split
      · exact h
      · refine h.leaves ?_ (not_scanning_of_job run (by rintro _ ⟨⟩)) (photoTurntableFault_dark a run)
        apply_rules [photoTurntableFault_acts, Acts.refl]
    next => exact h
  next => exact h

theorem slewLimitOver_sound (h : PermitSound s) : PermitSound (slewLimitOver s) := by
  unfold slewLimitOver
  split
  · exact advancePages_sound (jobTurntableFault_sound (h.acts (by apply_rules [enterTurntableFault_acts, Acts.refl])))
  · exact h

/-! ## An index mark (R1, R16, R67, R114) -/

theorem SameParts.setLine (x : LineState) (phase : x.phase = s.line.phase) (stop : x.stopTaken = s.line.stopTaken) :
    SameParts s (s.setLine x) := ⟨.rfl, rfl, rfl, rfl, rfl, phase, stop, rfl, fun _ => rfl⟩

theorem scanTrackFault_parts (s : State) : SameParts s (scanTrackFault s) := by
  unfold scanTrackFault
  split
  next j run =>
    split
    · refine .of_onlyIn (Acts.only (putScan_acts _ (.refl _ s) rfl)) ?_
      rw [scanValues_of_job run]
      rfl
    · exact .refl s
  next => exact .refl s

theorem trackingCheck_parts (p : ScanParams) (n : Nat) (s : State) : SameParts s (trackingCheck p n s) := by
  unfold trackingCheck
  split
  · exact .refl s
  · split
    · exact .of_acts (setTurntable_acts _ (.refl _ s) rfl)
    · dsimp only
      have turned : SameParts s (s.setTurntable { s.turntable with errorCount := s.turntable.errorCount + 1 }) :=
        .of_acts (setTurntable_acts _ (.refl _ s) rfl)
      have flagged := turned.trans (.setLine { s.line with flags := { s.line.flags with azError := true } } rfl rfl)
      split
      · exact flagged
      · refine .trans ?_ (.trans (.of_acts (enterTurntableFault_acts (.refl _ _) rfl rfl)) (scanTrackFault_parts _))
        exact flagged.trans (.setLine _ rfl rfl)

theorem offerHeader_parts (n : Nat) (s : State) : SameParts s (offerHeader n s) := by
  have offered : SameParts s (offer (.header (headerOf n s)) s).1 := .of_acts (by apply_rules [offer_acts, Acts.refl])
  unfold offerHeader
  dsimp only
  split
  · exact offered
  · refine .trans ?_ (.of_acts (setLoss_acts _ (.refl _ _) rfl))
    exact offered.trans (.setLine _ rfl rfl)

/-- A line that opens has its firing WAITING and no permit (R27, R67). -/
theorem openLine_ready (p : ScanParams) (h : PermitSound s) (noLine : s.line.phase = .none) : PermitReady (openLine p s) := by
  have off : s.sched.permit = false := by
    cases permit : s.sched.permit
    · rfl
    · have opened := (h.isOpen (by rw [h.firing.mp permit]; rfl)).1
      rw [noLine] at opened
      cases opened
  refine PermitReady.parts ?_ ((trackingCheck_parts p s.line.started _).trans (offerHeader_parts _ _))
  refine ⟨h.noEnd, fun _ => ⟨rfl, rfl⟩, ?_, ?_⟩
  · exact ⟨fun e => (by rw [show s.sched.permit = true from e] at off; cases off), fun e => (by cases e)⟩
  · exact fun e => by rw [show s.sched.permit = true from e] at off; cases off

theorem runInIndex_dark (h : j.phase ≠ .scanning) (before : s.scanning = false) : (runInIndex j s).scanning = false := by
  unfold runInIndex
  split
  · split
    · exact issueTrack_dark h s
    · exact putScan_dark h s
  all_goals exact before

theorem lineMayOpen_iff (j : ScanJob) (s : State) : lineMayOpen j s = true ↔
    j.phase = .scanning ∧ j.stop = none ∧ s.line.phase = .none ∧ s.line.started < j.params.lines := by
  unfold lineMayOpen
  simp [and_assoc]

theorem indexAtScan_sound (h : PermitSound s) : PermitSound (indexAtScan s) := by
  unfold indexAtScan
  split
  next => exact h
  next j run =>
    split
    next opens =>
      have noLine := ((lineMayOpen_iff j s).mp opens).2.2.1
      exact (recomputePermit_sound (openLine_ready j.params h noLine)).acts (by apply_rules [crossings_acts, Acts.refl])
    next =>
      split
      next runIn =>
        have phase : j.phase ≠ .scanning := by rw [runIn.1]; simp
        have dark := scanPhase_dark (job_of_scanJob run) phase
        exact h.leaves (by apply_rules [runInIndex_acts, Acts.refl]) dark (runInIndex_dark phase dark)
      next => exact h

theorem wakePages_sound (h : PermitSound s) : PermitSound (wakePages s) :=
  h.manages (wakePages_manages s) (by apply_rules [wakePages_acts, Acts.refl])

theorem indexAtPages_sound (h : PermitSound s) : PermitSound (indexAtPages s) := by
  unfold indexAtPages
  split
  · exact wakePages_sound h
  · exact h

theorem indexMark_sound (h : PermitSound s) : PermitSound (indexMark s) := by
  unfold indexMark
  dsimp only
  have angle : PermitSound (s.setAngle 0) := h.acts (setAngle_acts _ (.refl _ s) rfl)
  have told : PermitSound (if (markMirror s.now s.mirror).state = s.mirror.state
      then (s.setAngle 0).setMirror (markMirror s.now s.mirror)
      else mirrorChanged ((s.setAngle 0).setMirror (markMirror s.now s.mirror))) := by
    split
    next same => exact angle.setMirror _ (by rw [same]; rfl)
    next => exact mirrorChanged_sound (angle.ready_setMirror _)
  exact advancePages_sound (indexAtPages_sound (indexAtScan_sound told))

/-! ## Run-in (R114, R115) -/

theorem runInDelayOver_sound (h : PermitSound s) : PermitSound (runInDelayOver s) := by
  unfold runInDelayOver
  split
  next j run =>
    split
    next phase _ _ =>
      have phase : j.phase ≠ .scanning := by rw [phase]; simp
      split
      · refine advancePages_sound (h.leaves ?_ (scanPhase_dark (job_of_scanJob run) phase) (issueTrack_dark phase s))
        apply_rules [issueTrack_acts, Acts.refl]
      · exact h
    next => exact h
  next => exact h

theorem enterScanning_sound (h : PermitSound s) (before : s.scanning = false) (noEnd : j.endWait = .none) :
    PermitSound (enterScanning j s) := by
  have off := h.off before
  have entered : PermitSound ((putScan { j with phase := .scanning } s).setSector (sectorOf j.params)) := by
    refine ⟨fun _ => noEnd, h.isOpen, h.firing, ⟨fun e => ?_, fun ⟨holds, _⟩ => ?_⟩⟩
    · rw [show s.sched.permit = true from e] at off; cases off
    · unfold State.permitHolds sectorOf at holds
      simp at holds
  unfold enterScanning
  dsimp only
  split
  · exact entered
  · exact scanFail_sound _ _ entered

theorem runInCompletes_sound (h : PermitSound s) : PermitSound (runInCompletes s) := by
  unfold runInCompletes
  split
  next j run =>
    split
    next due =>
      have dark := scanPhase_dark (job_of_scanJob run) (by rw [due.1]; simp)
      exact advancePages_sound (enterScanning_sound h dark due.2.1)
    next => exact h
  next => exact h

/-! ## The camera, and the Page Manager woken -/

theorem photoCameraGone_sound (h : PermitSound s) : PermitSound (photoCameraGone s) := by
  unfold photoCameraGone
  split
  next => exact h.acts (by apply_rules [cameraFault_acts, Acts.refl])
  next => exact h.acts (by apply_rules [cameraFault_acts, Acts.refl])
  next =>
    split
    next a run =>
      exact h.leaves (by apply_rules [cameraLost_acts, Acts.refl]) (not_scanning_of_job run (by rintro _ ⟨⟩))
        (cameraLost_dark a s)
    next => exact h.acts (by apply_rules [restPhoto_acts, Acts.refl])
  all_goals exact h.acts (by apply_rules [restPhoto_acts, Acts.refl])

theorem faultIfBusy_sound (h : PermitSound s) : PermitSound (faultIfBusy s) := by
  unfold faultIfBusy
  split
  · exact advancePages_sound (h.acts (by apply_rules [cameraFault_acts, Acts.refl]))
  · exact h

theorem presenceLevel_acts' (level : Bool) (s : State) : Acts besidePermitAndJob s (presenceLevel level s) := by
  unfold presenceLevel
  dsimp only
  split
  · exact setCamera_acts _ (.refl _ s) rfl
  · exact raise_acts _ (setCamera_acts _ (.refl _ s) rfl) rfl

theorem presenceDrops_sound (h : PermitSound s) : PermitSound (presenceDrops s) := by
  have level := h.acts (presenceLevel_acts' false s)
  have absent : PermitSound (enterAbsent (presenceLevel false s)) := level.acts (setCamera_acts _ (.refl _ _) rfl)
  unfold presenceDrops
  split
  · split
    · exact faultIfBusy_sound level
    · exact faultIfBusy_sound level
    · exact faultIfBusy_sound absent
    · exact advancePages_sound (photoCameraGone_sound absent)
  · exact h

theorem errorInPresent_sound (h : PermitSound s) : PermitSound (errorInPresent s) := by
  unfold errorInPresent
  split
  · exact h.acts (cameraFault_acts (setCamera_acts _ (.refl _ s) rfl) rfl rfl rfl rfl)
  · exact photoCameraGone_sound (h.acts (by apply_rules [enterCheck_acts, Acts.refl]))

theorem errorRises_sound (h : PermitSound s) : PermitSound (errorRises s) := by
  have level : PermitSound (s.setCamera { s.camera with errorIn := true }) := h.acts (setCamera_acts _ (.refl _ s) rfl)
  unfold errorRises
  split
  · exact h
  · dsimp only
    split
    · exact faultIfBusy_sound (level.acts (setCamera_acts _ (.refl _ _) rfl))
    · exact advancePages_sound (errorInPresent_sound level)
    · exact faultIfBusy_sound level
    · exact faultIfBusy_sound level

theorem writeLook_sound (h : PermitSound s) : PermitSound (writeLook s) :=
  advancePages_sound (wakePages_sound (h.acts (by apply_rules [lookAtChain_acts, Acts.refl])))

theorem pollTicks_sound (h : PermitSound s) : PermitSound (pollTicks s) := by
  unfold pollTicks
  split
  · refine advancePages_sound (wakePages_sound (h.acts ?_))
    exact lookAtChain_acts (setReader_acts _ (.refl _ s) rfl) rfl rfl
  · exact h

theorem controlAbort_sound (h : PermitSound s) : PermitSound (controlAbort s) := by
  unfold controlAbort
  split
  next x run => exact advancePages_sound (abortJob_sound run h)
  next => exact h.acts (by apply_rules [refuse_acts, Acts.refl])

theorem controlCut_sound (h : PermitSound s) : PermitSound (controlCut s) := by
  unfold controlCut
  split
  · split
    · exact advancePages_sound (h.acts (by apply_rules [beginSeal_acts, Acts.refl]))
    · exact h.acts (by apply_rules [refuse_acts, Acts.refl])
  · exact h.acts (by apply_rules [refuse_acts, Acts.refl])

end Sys2Proof.Machine

/-! PROOFS. Every step keeps the beam permit exact (O7), and no laser fires but under it (O10). -/

namespace Sys2Proof.Machine

variable {s t u : State} {j k : ScanJob}

/-! ## Shots (R31, R42, R74 to R76) -/

theorem fireShot_parts (f : Nat) (s : State) : SameParts s (fireShot f s) := by
  unfold fireShot
  split
  · exact .refl s
  · exact ⟨.rfl, rfl, rfl, rfl, rfl, rfl, rfl, rfl, fun _ => rfl⟩

theorem shotLost_parts (s : State) : SameParts s (shotLost s) := ⟨.rfl, rfl, rfl, rfl, rfl, rfl, rfl, rfl, fun _ => rfl⟩

theorem offer_parts (r : Rec) (s : State) : SameParts s (offer r s).1 := .of_acts (by apply_rules [offer_acts, Acts.refl])

theorem offerShot_parts (r : ShotRec) (s : State) : SameParts s (offerShot r s) := by
  unfold offerShot
  split
  · exact .refl s
  · split
    · exact shotLost_parts s
    · dsimp only
      split
      · exact (offer_parts _ s).trans (.setLine _ rfl rfl)
      · exact (offer_parts _ s).trans (shotLost_parts _)

theorem slots_set_isSome {x : Slots} {i : Nat} {old : Slot} (valid : x.get i = some old) (new : Slot) (n : Nat) :
    ((x.set i new).get n).isSome = (x.get n).isSome := by
  by_cases e : n = i
  · rw [e, Slots.get_set_same valid, valid]; rfl
  · rw [Slots.get_set_of_ne x new e]

theorem shotClosed_parts (o : OpenShot) (s : State) : SameParts s (shotClosed o s) := by
  unfold shotClosed
  split
  next j sl run slot =>
    have valid := slots_get_of_scanSlot run slot
    split
    · have flagged : SameParts s (s.setLine { s.line with flags := s.line.flags.withShot o }) := .setLine _ rfl rfl
      unfold targetClosed
      dsimp only
      split
      · exact flagged.trans (offerShot_parts _ _)
      · exact flagged
    · split
      · exact ⟨.rfl, rfl, rfl, rfl, rfl, rfl, rfl, rfl, slots_set_isSome valid _⟩
      · exact .setLine _ rfl rfl
  next => exact .refl s

theorem handShot_sound (o : OpenShot) (h : PermitSound s) : PermitSound (handShot o s) := by
  have closed : PermitSound (shotClosed o (s.setShots (s.shots.filter (fun x => decide (x.number ≠ o.number))))) :=
    (h.acts (setShots_acts _ (.refl _ s) rfl (List.length_filter_le _ _))).parts (shotClosed_parts _ _)
  unfold handShot
  dsimp only
  split
  · exact scanFail_sound _ _ closed
  · exact closed

/-! ## O7 -/

theorem permitSound_shots : KeptByShots PermitSound := fun f s _ h => h.parts (fireShot_parts f s)

theorem permitSound_fires (c : Instr) (s : State) (fires : c.fires = true) (h : PermitSound (observe c.moment s)) :
    ∃ t, exec c s = .next t ∧ PermitSound t := by
  cases c
  case fireTime =>
    exact ⟨_, rfl, fireTimeComes_keeps permitSound_shots (fun h => h.parts ⟨.rfl, rfl, rfl, rfl, rfl, rfl, rfl, rfl, fun _ => rfl⟩) h⟩
  case shotExpiry =>
    refine ⟨_, rfl, ?_⟩
    unfold shotExpires
    split
    · exact advancePages_sound (placeFree_keeps permitSound_shots (closeCheck_sound (handShot_sound _ h)))
    · exact h
  all_goals cases fires

theorem permitSound_plain (c : Instr) (s : State) (plain : c.plain = true) (h : PermitSound (observe c.moment s)) :
    ∃ t, exec c s = .next t ∧ PermitSound t := by
  cases c <;> first | (cases plain; done) | refine ⟨_, rfl, ?_⟩
  case abort => exact controlAbort_sound h
  case cut => exact controlCut_sound h
  case look => exact writeLook_sound h
  case mirrorIndexMark => exact indexMark_sound h
  case rateWatchExpiry => exact rateWatchOver_sound h
  case indexWatchdogExpiry => exact watchdogOver_sound h
  case spinUpLimitExpiry => exact spinUpLimitOver_sound h
  case settleTimerExpiry => exact settled_sound h
  case slewLimitExpiry => exact slewLimitOver_sound h
  case emitPermitDeasserted => exact permitDeasserted_sound h
  case emitPermitAsserted => exact permitAsserted_sound h
  case emitPermitCountExpiry => exact permitCounted_sound h
  case sectorEntry => exact sectorEntered_sound h
  case sectorExit => exact sectorLeft_sound h
  case pollTick => exact pollTicks_sound h
  case runInDelayExpiry => exact runInDelayOver_sound h
  case runInComplete => exact runInCompletes_sound h
  case presenceDeasserted => exact presenceDrops_sound h
  case errorAsserted => exact errorRises_sound h
  case halt => exact h.acts (by apply_rules [controlHalt_acts, Acts.refl])
  case resume => exact h.acts (by apply_rules [controlResume_acts, Acts.refl])
  case chainStart => exact h.acts (by apply_rules [writeChainStart_acts, Acts.refl])
  case noticeMask => exact h.acts (by apply_rules [writeMask_acts, Acts.refl])
  case holdBandEntry => exact h.acts (by apply_rules [bandEntered_acts, Acts.refl])
  case holdBandExit => exact h.acts (by apply_rules [bandLeft_acts, Acts.refl])
  case turntableAtRest => exact h.acts (by apply_rules [atRest_acts, Acts.refl])
  case echoEvent => exact h.acts (by apply_rules [echoArrives_acts, Acts.refl])
  case midExposureTimerExpiry => exact h.acts (by apply_rules [midExposureOver_acts, Acts.refl])
  case exposureTimerExpiry => exact h.acts (by apply_rules [exposureTimeOver_acts, Acts.refl])
  case row => exact h.acts (by apply_rules [rowTaken_acts, Acts.refl])
  case rowTimeout => exact h.acts (by apply_rules [rowTimeOver_acts, Acts.refl])
  case presenceAsserted => exact h.acts (by apply_rules [presenceRises_acts, Acts.refl])
  case presenceTimerExpiry => exact h.acts (by apply_rules [presenceTimeOver_acts, Acts.refl])
  case errorDeasserted => exact h.acts (by apply_rules [errorDrops_acts, Acts.refl])
  case checkTimerExpiry => exact h.acts (by apply_rules [checkTimeOver_acts, Acts.refl])
  case pulseEnd => exact h.acts (by apply_rules [pulseOver_acts, Acts.refl])

theorem reset_permitSound : PermitSound State.reset := (FiringOver.of_dark rfl rfl rfl).sound

theorem softReset_sound (s : State) : PermitSound (softReset s) := (FiringOver.of_dark rfl rfl rfl).sound

theorem windowWrite_sound (offset count : Nat) (v : Word) (h : PermitSound s) : PermitSound (windowWrite offset count v s) := by
  have refused : PermitSound (refuse s) := h.acts (by apply_rules [refuse_acts, Acts.refl])
  unfold windowWrite
  split
  next =>
    split
    next => exact refused
    next =>
      unfold writeRegister
      split
      · exact h.acts (by apply_rules [writeChainStart_acts, Acts.refl])
      · exact writeLook_sound h
      · unfold writeControl
        split
        · exact controlAbort_sound h
        · exact h.acts (by apply_rules [controlHalt_acts, Acts.refl])
        · exact h.acts (by apply_rules [controlResume_acts, Acts.refl])
        · exact controlCut_sound h
        · exact softReset_sound s
        · exact refused
      · exact h.acts (by apply_rules [writeMask_acts, Acts.refl])
      · exact refused
  next => exact h

theorem permitSound_steps : KeptBySteps PermitSound where
  events := permitSound_events
  plain := permitSound_plain
  fires := permitSound_fires
  write offset count v _ h := windowWrite_sound offset count v h
  observe m s h := h.onlyIn (observe_onlyIn m s) (by decide)
  powerOn _ _ _ := (FiringOver.of_dark rfl rfl rfl).sound
  soft s _ := softReset_sound s
  queue _ _ h := h.parts ⟨.rfl, rfl, rfl, rfl, rfl, rfl, rfl, rfl, fun _ => rfl⟩
  idle _ h := h.parts ⟨.rfl, rfl, rfl, rfl, rfl, rfl, rfl, rfl, fun _ => rfl⟩

/-- Settles O7: what the permit is read from changes only with the permit computed anew, or where no scan is SCANNING. -/
theorem beamPermitExactKept : Obligations.BeamPermitExactKept := by
  unfold Obligations.BeamPermitExactKept
  exact fun _ _ h e => permitSound_steps.step h e

end Sys2Proof.Machine

/-! PROOFS. No laser fires but under the beam permit (R22, R31). -/

namespace Sys2Proof.Machine

variable {s t u b v : State}

/-- No LASER TRIG is driven. -/
def State.silent (s : State) : Prop := ∀ path, .laserTrig path ∉ s.out

theorem State.silent.acts {p : Field → Bool} (h : s.silent) (a : Acts p s t) : t.silent := fun path mem =>
  h path (a.laser path mem)

theorem silent_of_out (h : t.out = s.out) (quiet : s.silent) : t.silent := fun path => by rw [h]; exact quiet path

theorem silent_of_nil (h : s.out = []) : s.silent := fun _ mem => by rw [h] at mem; cases mem

theorem observe_silent (m : Moment) (s : State) : (observe m s).silent := silent_of_nil rfl

theorem emit_silent {x : Signal} (h : s.silent) (other : ∀ path, x ≠ .laserTrig path) : (emit x s).silent := fun path mem => by
  rcases List.mem_append.mp mem with old | new
  · exact h path old
  · exact other path (List.mem_singleton.mp new).symm

theorem readNotice_silent (first count : Nat) (h : s.silent) : (readNotice first count s).silent := by
  unfold readNotice
  split
  · split <;> exact emit_silent h (by rintro _ ⟨⟩)
  · exact h

theorem arbitrate_silent (h : s.silent) : (arbitrate s).silent := by
  unfold arbitrate
  split
  · exact emit_silent h (by rintro _ ⟨⟩)
  all_goals exact h

theorem silent_events : KeptByEvents State.silent :=
  (KeptByReports.of_acts (p := fun _ => true) (fun _ _ => rfl) (fun a h => State.silent.acts h a)
    (answers := fun _ _ _ _ h => silent_of_out rfl h) (leaves := fun _ _ _ _ _ h => silent_of_out rfl h)
    (latches := fun _ _ _ h => silent_of_out rfl h)).events (fun _ _ _ h => readNotice_silent _ _ h)
      (fun _ h => arbitrate_silent h)

/-- Commands other than FIRE_TIME and SHOT_EXPIRY drive no LASER TRIG. -/
theorem exec_silent {c : Instr} (noFire : c.fires = false) (s : State) : ∃ t, exec c s = .next t ∧ t.silent := by
  cases reset : c.mayReset
  case false =>
    refine silent_events.exec reset (fun plain => ?_) (fun fires => (by rw [noFire] at fires; cases fires)) (observe_silent _ s)
    obtain ⟨t, next, does⟩ := exec_plain_acts plain s
    exact ⟨t, next, (observe_silent _ s).acts does⟩
  case true =>
    cases c
    case powerOnReset | reset => exact ⟨_, rfl, by intro path mem; simp [powerOn, softReset] at mem⟩
    case registerWrite m offset count x =>
      refine ⟨_, rfl, ?_⟩
      rcases windowWrite_cases (.registerWrite m offset count x) offset count x (observe m s) with e | a
      · rw [e]; intro path mem; simp [softReset] at mem
      · exact (observe_silent _ s).acts a
    all_goals cases reset

/-! ## The shots of FIRE_TIME and SHOT_EXPIRY -/

/-- LASER TRIG is driven in `t` only where the laser may fire in `b`, and then the last of the open shots is the one that
`b` was to fire next. -/
def FiresUnder (b t : State) : Prop := ∀ path, .laserTrig path ∈ t.out →
  b.mayFire = true ∧ ∃ o, t.shots.getLast? = some o ∧ o.kind = path ∧ o.number = b.sched.nextShot

theorem State.silent.firesUnder (h : t.silent) (b : State) : FiresUnder b t := fun path mem => absurd mem (h path)

theorem fireShot_firesUnder (f : Nat) (quiet : s.silent) (may : b.mayFire = true) (next : s.sched.nextShot = b.sched.nextShot) :
    FiresUnder b (fireShot f s) := by
  unfold fireShot
  split
  next => exact quiet.firesUnder b
  next sl _ =>
    intro path mem
    refine ⟨may, firedShot sl.profile s.sched.nextShot f (s.line.number.getD 0) s.angle s.azimuth, List.getLast?_concat, ?_,
      next⟩
    rcases List.mem_append.mp mem with old | new
    · exact absurd old (quiet path)
    · cases List.mem_singleton.mp new
      rfl

theorem fireTimeComes_firesUnder (quiet : s.silent) : FiresUnder s (fireTimeComes s) := by
  unfold fireTimeComes
  split
  next f _ =>
    split
    next due =>
      split
      · exact fireShot_firesUnder f quiet due.1 rfl
      · exact State.silent.firesUnder quiet s
    next => exact quiet.firesUnder s
  next => exact quiet.firesUnder s

/-- A failing scan leaves the Scheduler, or no line is firing any more. -/
theorem scanFail_sched (c : ResultCode) (r : StopReason) (h : PermitSound s) :
    (scanFail c r s).sched = s.sched ∨ (scanFail c r s).sched.firing.live = false := by
  unfold scanFail
  split
  next => exact .inl rfl
  next j run =>
    split
    next =>
      unfold failScanning
      dsimp only
      split
      · exact .inl rfl
      · refine .inr (endIfNoLine_over (stopRequest_over r ?_)).finished
        exact h.putScan (job_of_scanJob run) rfl
    next =>
      split <;> exact .inl rfl
    all_goals exact .inl rfl

theorem shotClosed_sched (o : OpenShot) (s : State) : (shotClosed o s).sched = s.sched :=
  (Acts.only (p := fun f => decide (f ≠ .sched)) (by apply_rules [shotClosed_acts, Acts.refl])) .sched rfl

theorem handShot_sched (o : OpenShot) (h : PermitSound s) :
    (handShot o s).sched = s.sched ∨ (handShot o s).sched.firing.live = false := by
  have closed : PermitSound (shotClosed o (s.setShots (s.shots.filter (fun x => decide (x.number ≠ o.number))))) :=
    (h.acts (setShots_acts _ (.refl _ s) rfl (List.length_filter_le _ _))).parts (shotClosed_parts _ _)
  unfold handShot
  dsimp only
  split
  · rcases scanFail_sched .referenceLost .referenceLost closed with same | dead
    · exact .inl (same.trans (shotClosed_sched _ _))
    · exact .inr dead
  · exact .inl (shotClosed_sched _ _)

theorem closeCheck_sched (s : State) : (closeCheck s).sched = s.sched ∨ (closeCheck s).sched.firing.live = false := by
  rcases closeCheck_cases s with e | ⟨-, n, r, e⟩ <;> rw [e]
  · exact .inl rfl
  · exact .inr rfl

theorem mayFire_live (h : s.mayFire = true) : s.sched.firing.live = true := by
  unfold State.mayFire at h
  simp only [Bool.and_eq_true, decide_eq_true_eq] at h
  rw [h.2]
  rfl

/-- A line that still fires after a shot has been handed over fires as before. -/
theorem handed_sched (o : OpenShot) (h : PermitSound s) (may : (closeCheck (handShot o s)).mayFire = true) :
    (closeCheck (handShot o s)).sched = s.sched := by
  have live := mayFire_live may
  rcases closeCheck_sched (handShot o s) with same | dead
  · rcases handShot_sched o h with kept | dead
    · exact same.trans kept
    · rw [same, dead] at live; cases live
  · rw [dead] at live; cases live

theorem FiresUnder.acts {p : Field → Bool} (h : FiresUnder b s) (a : Acts p s t) (shots : p .shots = false) :
    FiresUnder b t := fun path mem => by
  rw [show t.shots = s.shots from a.only .shots shots]
  exact h path (a.laser path mem)

theorem shotExpires_firesUnder (n : Nat) (h : PermitSound s) (quiet : s.silent) : FiresUnder s (shotExpires n s) := by
  unfold shotExpires
  split
  next o _ =>
    have handed : (closeCheck (handShot o s)).silent :=
      quiet.acts (p := fun _ => true) (by apply_rules [closeCheck_acts, handShot_acts, Acts.refl])
    have fired : FiresUnder s (placeFree (closeCheck (handShot o s))) := by
      unfold placeFree
      split
      next due =>
        have same := handed_sched o h due.2.1
        refine fireShot_firesUnder _ handed ?_ (congrArg Scheduler.nextShot same)
        have may := due.2.1
        unfold State.mayFire at may ⊢
        rwa [same] at may
      next => exact handed.firesUnder s
    exact fired.acts (p := fun f => decide (f ≠ .shots)) (by apply_rules [advancePages_acts, Acts.refl]) rfl
  next => exact quiet.firesUnder s

/-- Every command drives LASER TRIG only where the laser may fire. -/
theorem exec_firesUnder (c : Instr) (h : PermitSound (observe c.moment s)) :
    ∃ t, exec c s = .next t ∧ FiresUnder (observe c.moment s) t := by
  cases fires : c.fires
  case false =>
    obtain ⟨t, next, quiet⟩ := exec_silent fires s
    exact ⟨t, next, quiet.firesUnder _⟩
  case true =>
    cases c
    case fireTime => exact ⟨_, rfl, fireTimeComes_firesUnder (observe_silent _ s)⟩
    case shotExpiry => exact ⟨_, rfl, shotExpires_firesUnder _ h (observe_silent _ s)⟩
    all_goals cases fires

theorem mayFire_permit (h : s.mayFire = true) : s.sched.permit = true ∧ s.sched.firing = .firing := by
  unfold State.mayFire at h
  simpa using h

theorem permitHolds_iff (s : State) : s.permitHolds = true ↔
    s.mirror.state = .locked ∧ s.emission.asserted = true ∧ s.scanning = true ∧ s.sched.firing.live = true ∧
    s.sector.inside = true := by
  unfold State.permitHolds
  simp [and_assoc]

/-- Settles O10: a shot is fired only where the permit holds in FIRING, and the permit then has its four conditions. -/
theorem laserFiresOnlyUnderPermit : Obligations.LaserFiresOnlyUnderPermit := by
  unfold Obligations.LaserFiresOnlyUnderPermit
  intro s t path h e mem
  unfold step at e
  split at e
  next => cases e; exact absurd mem (silent_of_nil rfl path)
  next c rest _ =>
    have taken := permitSound_steps.observe c.moment _ (permitSound_steps.queue rest s h)
    obtain ⟨u, next, under⟩ := exec_firesUnder c taken
    rw [next] at e
    cases e
    obtain ⟨may, shot⟩ := under path mem
    obtain ⟨permit, firing⟩ := mayFire_permit may
    have permit : s.sched.permit = true := permit
    obtain ⟨locked, asserted, scanning, -, inside⟩ := (permitHolds_iff s).mp (h.exact.mp permit).1
    exact ⟨locked, asserted, scanning, inside, firing, shot⟩

end Sys2Proof.Machine

/-! PROOFS. The machine's step, its resets, and the register window (R23, R100, R170, R180 to R184). -/

namespace Sys2Proof.Machine

variable {s t u b : State}

theorem next_congr (h : s = t) : (Host.Outcome.next s : Host.Outcome State Fault Refusal) = .next t := by rw [h]

/-! ## The step -/

/-- Settles O1. -/
theorem stepTakesFrontCommand : Obligations.StepTakesFrontCommand := by
  unfold Obligations.StepTakesFrontCommand
  intro c rest s queue
  unfold step
  rw [queue]

theorem step_of_empty (h : s.pending = []) : step s = .next { s with time := nextTime s.time, out := [] } := by
  have stepped : step s = .next (idle s) := by
    unfold step
    rw [h]
  exact stepped

/-- Settles O2. -/
theorem emptyQueueIdles : Obligations.EmptyQueueIdles := by
  unfold Obligations.EmptyQueueIdles
  intro s empty
  refine ⟨fun below => ?_, fun _ => ⟨_, step_of_empty empty⟩⟩
  rw [step_of_empty empty, nextTime, if_neg below]

/-! ## Resets -/

/-- Settles O11. -/
theorem resetMeetsInvariants : Obligations.ResetMeetsInvariants := by
  unfold Obligations.ResetMeetsInvariants
  refine ⟨?bounded, reset_notices_sound, reset_permitSound, rfl, ?unanswered⟩
  case bounded => exact .of_empty rfl rfl rfl (fun r => by cases r <;> rfl) ⟨rfl, rfl⟩
  case unanswered => intro r o rest h; cases r <;> cases h

/-- Settles O12: all but the camera's two machines is a value of the reset. -/
theorem powerOnResetState : Obligations.PowerOnResetState := by
  unfold Obligations.PowerOnResetState
  intro m s
  refine ⟨_, rfl, ?_⟩
  and_intros <;> try rfl
  · intro absent
    have powered : (powerOn m.rstin (observe m s)).camera = Camera.powerOn false s.camera.errorIn := by
      rw [← absent]; rfl
    rw [powered]
    exact ⟨rfl, rfl⟩
  · intro present
    have powered : (powerOn m.rstin (observe m s)).camera = Camera.powerOn true s.camera.errorIn := by
      rw [← present]; rfl
    rw [powered]
    refine ⟨rfl, ?_⟩
    cases s.camera.errorIn <;> rfl

theorem mirror_softReset_state (x : Mirror) (now : Nat) :
    (x.softReset now).state = if x.state = .parked then .parked else .spinningDown := by
  unfold Mirror.softReset
  cases x.state <;> rfl

theorem turntable_softReset_state (x : Turntable) :
    x.softReset.state = if x.state = .stopped ∨ x.state = .held then .stopped else .decelerating := by
  unfold Turntable.softReset
  cases x.state <;> rfl

theorem softReset_slots (s : State) (i : Nat) : (softReset s).slots.get i = s.slots.get i := by
  match i with
  | 0 | 1 | 2 | 3 => rfl
  | _ + 4 => rfl

/-- Settles O13. -/
theorem softResetState : Obligations.SoftResetState := by
  unfold Obligations.SoftResetState
  rintro m s b rfl
  refine ⟨_, rfl, ?_⟩
  and_intros <;> try rfl
  · exact mirror_softReset_state _ _
  · exact turntable_softReset_state _
  · exact softReset_slots _

/-! ## The register window (R180 to R183) -/

theorem windowWrite_short {offset count : Nat} (v : Word) (s : State) (inside : offset < 64) (some : 1 ≤ count)
    (fits : offset % 8 + count ≤ 8) (short : count < 8) : windowWrite offset count v s = refuse s := by
  have span : registerSpan (offset % 8) count = true := by simp [registerSpan, some, fits]
  rw [windowWrite, if_pos ⟨inside, span⟩, if_pos short]

theorem windowWrite_full {offset : Nat} (v : Word) (s : State) (inside : offset < 64) (fits : offset % 8 + 8 ≤ 8) :
    windowWrite offset 8 v s = writeRegister offset v s := by
  have span : registerSpan (offset % 8) 8 = true := by simp [registerSpan, Nat.le_of_add_le_add_right fits]
  rw [windowWrite, if_pos ⟨inside, span⟩, if_neg (by decide)]

theorem writeControl_other {code : Nat} (s : State) (other : code = 0 ∨ 5 < code) : writeControl code s = refuse s := by
  unfold writeControl
  split <;> first | rfl | omega

/-- Settles O15: each register's write is the operation of its command. -/
theorem registerWriteReachesItsRegister : Obligations.RegisterWriteReachesItsRegister := by
  unfold Obligations.RegisterWriteReachesItsRegister
  rintro m offset count v s _ rfl inside some fits
  refine ⟨fun short => next_congr (windowWrite_short v _ inside some fits short), ?_⟩
  rintro rfl
  have full := windowWrite_full v (observe m s) inside fits
  have written : exec (.registerWrite m offset 8 v) s = .next (writeRegister offset v (observe m s)) :=
    next_congr full
  rw [written]
  refine ⟨?_, ?_, ?_, ?_, ?_⟩
  · rintro (rfl | rfl | rfl | rfl) <;> rfl
  · rintro rfl; rfl
  · rintro rfl; rfl
  · rintro rfl; rfl
  · rintro rfl
    have control : writeRegister 0x18 v (observe m s) = writeControl (v.toNat % 256) (observe m s) := rfl
    rw [control]
    refine ⟨?_, ?_, ?_, ?_, ?_, fun other => next_congr (writeControl_other _ other)⟩ <;>
      (intro code; rw [code]; rfl)

theorem controlAbort_refused (h : s.job = none) : controlAbort s = refuse s := by
  unfold controlAbort
  rw [h]

theorem controlHalt_refused (h : s.reader.state = .unset ∨ s.reader.state = .halted) : controlHalt s = refuse s := by
  unfold controlHalt
  rcases h with e | e <;> rw [e]

theorem controlHalt_waiting (h : s.reader.state = .waitReady ∨ s.reader.state = .waitLink) :
    controlHalt s = enterHalted .halt s := by
  unfold controlHalt
  rcases h with e | e <;> rw [e]

theorem controlHalt_running (h : s.reader.state = .running) :
    controlHalt s = if s.reader.writeBackLost then s else s.setReader { s.reader with haltPending := true } := by
  unfold controlHalt
  rw [h]

theorem controlResume_refused (h : s.reader.state ≠ .halted) : controlResume s = refuse s := by
  unfold controlResume
  split
  next e => exact absurd e h
  all_goals rfl

theorem controlResume_link {a : Nat} (h : s.reader.state = .halted) (finished : s.reader.lastFinished = some a) :
    controlResume s = beginLinkRead (s.setReader { s.reader with haltCause := none, state := .running }) := by
  unfold controlResume
  rw [h, finished]
  rfl

theorem controlResume_examination (h : s.reader.state = .halted) (fresh : s.reader.lastFinished = none) :
    controlResume s = beginExamination (s.setReader { s.reader with haltCause := none, state := .running }) := by
  unfold controlResume
  rw [h, fresh]
  rfl

theorem controlCut_refused (h : ∀ p, s.pages.current = some p → p.sealing ≠ none ∨ p.stage = .abandoned) :
    controlCut s = refuse s := by
  unfold controlCut
  split
  next p current =>
    refine if_neg fun open' => ?_
    rcases h p current with sealing | abandoned
    · exact sealing open'.1
    · exact open'.2 abandoned
  next => rfl

theorem controlCut_begins {p : Page} (current : s.pages.current = some p) (sealing : p.sealing = none)
    (stage : p.stage ≠ .abandoned) : controlCut s = advancePages (beginSeal .cut p s) := by
  unfold controlCut
  rw [current]
  exact if_pos ⟨sealing, stage⟩

theorem validBlockAddr_iff (a : Nat) : validBlockAddr a = true ↔ a ≠ 0 ∧ a % 64 = 0 ∧ a ≤ 2 ^ 48 - 512 := by
  unfold validBlockAddr
  simp [and_assoc]

theorem writeChainStart_refused (v : Word)
    (h : ¬ ((s.reader.state = .unset ∨ s.reader.state = .halted) ∧ validBlockAddr (v.toNat % 2 ^ 48) = true)) :
    writeChainStart v s = refuse s := if_neg h

theorem writeChainStart_begins (v : Word) (state : s.reader.state = .unset ∨ s.reader.state = .halted)
    (valid : validBlockAddr (v.toNat % 2 ^ 48) = true) :
    writeChainStart v s = beginExamination (s.setReader { s.reader with
      cursor := some (v.toNat % 2 ^ 48), lastFinished := none, haltCause := none, state := .running }) :=
  if_pos ⟨state, valid⟩

/-- Settles O16. -/
theorem refusedActionsChangeNothing : Obligations.RefusedActionsChangeNothing := by
  unfold Obligations.RefusedActionsChangeNothing
  rintro m s _ rfl
  refine ⟨Acts.only (by apply_rules [raise_acts, Acts.refl]), raise_pending .refused _, driveAttn_mask .., driveAttn_mode ..,
    fun idle => next_congr (controlAbort_refused idle), fun state => next_congr (controlHalt_refused state),
    fun state => next_congr (controlResume_refused state), fun noSeal => next_congr (controlCut_refused ?cut),
    fun v bad => next_congr (writeChainStart_refused v ?start)⟩
  case cut =>
    intro p current
    have current : s.pages.current = some p := current
    rcases noSeal with none | ⟨q, r, e, sealing⟩ | ⟨q, e, abandoned⟩
    · rw [none] at current; cases current
    · rw [e] at current; cases current
      exact .inl (by rw [sealing]; simp)
    · rw [e] at current; cases current
      exact .inr abandoned
  case start =>
    rintro ⟨state, valid⟩
    obtain ⟨some, aligned, below⟩ := (validBlockAddr_iff _).mp valid
    have state : s.reader.state = .unset ∨ s.reader.state = .halted := state
    rcases bad with other | zero | odd | past
    · rcases state with e | e
      · exact other.1 e
      · exact other.2 e
    · exact some zero
    · exact odd aligned
    · exact absurd below (Nat.not_le.mpr past)

theorem enterHalted_pending (c : HaltCause) (s : State) :
    (enterHalted c s).notices.pending = s.notices.pending ||| 16 := raise_pending ..

/-- Settles O17. -/
theorem readerActionsTakeEffect : Obligations.ReaderActionsTakeEffect := by
  unfold Obligations.ReaderActionsTakeEffect
  rintro m v s _ rfl
  refine ⟨fun waits => ⟨enterHalted .halt (observe m s), ?halts, Acts.only (by apply_rules [enterHalted_acts, Acts.refl]),
    rfl, rfl, enterHalted_pending ..⟩, fun state wanted => ?pending, fun state lost => ?lost, fun a state finished => ?link,
    fun a state fresh cursor => ?examination, ?start⟩
  case halts => exact next_congr (controlHalt_waiting waits)
  case pending =>
    have halted := controlHalt_running (s := observe m s) state
    rw [show (observe m s).reader.writeBackLost = false from wanted] at halted
    exact next_congr halted
  case lost =>
    have halted := controlHalt_running (s := observe m s) state
    rw [show (observe m s).reader.writeBackLost = true from lost] at halted
    exact next_congr halted
  case link =>
    refine next_congr ((controlResume_link (s := observe m s) state finished).trans ?_)
    have read : (observe m s).reader.lastFinished.getD 0 = a := congrArg (Option.getD · 0) finished
    rw [← read]
    rfl
  case examination =>
    refine next_congr ((controlResume_examination (s := observe m s) state fresh).trans ?_)
    have address : (observe m s).blockAddr = a := congrArg (Option.getD · 0) cursor
    rw [← address]
    rfl
  case start =>
    rintro a rfl state some aligned below
    exact next_congr (writeChainStart_begins v state ((validBlockAddr_iff _).mpr ⟨some, aligned, below⟩))

end Sys2Proof.Machine

/-! PROOFS. The notices: the registers as they are read, the reads of NOTICE, the mask and the pulse (R168, R180, R185 to
R191). -/

namespace Sys2Proof.Machine

variable {s t u b : State} {x y : Notices}

/-! ## ATTN (R189, R190) -/

theorem driveAttn_level (now : Nat) (x : Notices) (level : y.mode = .level) :
    driveAttn now x y = { y with attn := decide (unmasked y ≠ 0) } := by
  unfold driveAttn; rw [level]

theorem driveAttn_begins (now : Nat) (pulse : y.mode = .pulse) (before : unmasked x = 0) (after : unmasked y ≠ 0) :
    driveAttn now x y = beginPulse now y := by
  unfold driveAttn; rw [pulse]; exact if_pos ⟨before, after⟩

theorem driveAttn_runs (now : Nat) (pulse : y.mode = .pulse) (h : unmasked x ≠ 0 ∨ unmasked y = 0) :
    driveAttn now x y = y := by
  unfold driveAttn; rw [pulse]
  refine if_neg fun rises => ?_
  rcases h with busy | quiet
  · exact busy rises.1
  · exact rises.2 quiet

/-- What a change of the causes or of the mask makes of ATTN, by mode. -/
theorem driveAttn_attn (now : Nat) {n : Notices} (h : n = driveAttn now x y) (attn : y.attn = x.attn)
    (ends : y.pulseEnd = x.pulseEnd) :
    (n.mode = .level → n.attn = decide (unmasked n ≠ 0) ∧ n.pulseEnd = x.pulseEnd) ∧
    (n.mode = .pulse → unmasked x = 0 → unmasked n ≠ 0 → n.attn = true ∧ n.pulseEnd = some (now + fineUs)) ∧
    (n.mode = .pulse → unmasked x ≠ 0 ∨ unmasked n = 0 → n.attn = x.attn ∧ n.pulseEnd = x.pulseEnd) := by
  have mode : n.mode = y.mode := h ▸ driveAttn_mode now x y
  have same : unmasked n = unmasked y := by
    unfold unmasked; rw [h, driveAttn_pending, driveAttn_mask]
  refine ⟨fun level => ?_, fun pulse before after => ?_, fun pulse runs => ?_⟩
  · rw [same, h, driveAttn_level now x (mode ▸ level)]
    exact ⟨rfl, ends⟩
  · rw [h, driveAttn_begins now (mode ▸ pulse) before (same ▸ after)]
    exact ⟨rfl, rfl⟩
  · rw [h, driveAttn_runs now (mode ▸ pulse) (same ▸ runs)]
    exact ⟨attn, ends⟩

/-! ## Registers as they are read (R168, R180) -/

theorem flagBit_le (b : Bool) (k : Nat) : flagBit b k ≤ 2 ^ k := by cases b <;> simp [flagBit]

theorem readerCode_le (x : ReaderState) : x.code ≤ 4 := by cases x <;> decide

theorem haltCode_le (x : Option HaltCause) : haltCode x ≤ 3 := by
  cases x with
  | none => decide
  | some x => cases x <;> decide

theorem mirrorCode_le (x : MirrorState) : x.code ≤ 5 := by cases x <;> decide

theorem turntableCode_le (x : TurntableState) : x.code ≤ 6 := by cases x <;> decide

theorem photoCode_le (x : PhotoState) : x.code ≤ 4 := by cases x <;> decide

theorem requesterCode_le (x : Option Requester) : requesterCode x ≤ 4 := by
  cases x with
  | none => decide
  | some x => cases x <;> decide

theorem controlValue_toNat (u : State) : (controlValue u).toNat =
    u.reader.state.code + haltCode u.reader.haltCause * 16 + flagBit u.reader.haltPending 6 + u.mirror.state.code * 256 +
      u.turntable.state.code * 4096 + u.photo.state.code * 65536 + flagBit u.pages.wait 20 + flagBit u.pages.fault 21 +
      flagBit u.pages.bad 22 := by
  unfold controlValue
  rw [BitVec.toNat_ofNat]
  refine Nat.mod_eq_of_lt ?_
  have := readerCode_le u.reader.state
  have := haltCode_le u.reader.haltCause
  have := mirrorCode_le u.mirror.state
  have := turntableCode_le u.turntable.state
  have := photoCode_le u.photo.state
  have := flagBit_le u.reader.haltPending 6
  have := flagBit_le u.pages.wait 20
  have := flagBit_le u.pages.fault 21
  have := flagBit_le u.pages.bad 22
  omega

theorem faultValue_toNat (u : State) : (faultValue u).toNat =
    requesterCode u.port.fault.requester + flagBit u.port.fault.write 3 + flagBit u.port.fault.timeout 4 +
      u.port.fault.addr.toNat * 65536 := by
  unfold faultValue
  rw [BitVec.toNat_ofNat]
  refine Nat.mod_eq_of_lt ?_
  have := requesterCode_le u.port.fault.requester
  have := flagBit_le u.port.fault.write 3
  have := flagBit_le u.port.fault.timeout 4
  have : u.port.fault.addr.toNat < 2 ^ 48 := u.port.fault.addr.isLt
  omega

theorem registerRead_toNat (u : State) {first count : Nat} (k : Nat) (some : 1 ≤ count) (inside : first + count ≤ 8) :
    (registerRead u (8 * k + first) count).toNat =
      (registerValue u (8 * k)).toNat / 2 ^ (8 * first) % 2 ^ (8 * count) := by
  unfold registerRead
  have register : (8 * k + first) / 8 * 8 = 8 * k := by omega
  have byte : (8 * k + first) % 8 = first := by omega
  rw [register, byte, BitVec.toNat_ofNat]
  refine Nat.mod_eq_of_lt (Nat.lt_of_lt_of_le (Nat.mod_lt _ (Nat.two_pow_pos _)) ?_)
  exact Nat.pow_le_pow_right (by decide) (by omega)

/-- The pending causes stand in byte 0 of their registers. -/
theorem registerRead_pending (u : State) {k first count : Nat} (reg : k = 4 ∨ k = 5) (some : 1 ≤ count)
    (inside : first + count ≤ 8) :
    registerRead u (8 * k + first) count = if first = 0 then u.notices.pending.setWidth 64 else 0 := by
  have value : registerValue u (8 * k) = u.notices.pending.setWidth 64 := by rcases reg with rfl | rfl <;> rfl
  have bits : (u.notices.pending.setWidth 64).toNat = u.notices.pending.toNat := by
    rw [BitVec.toNat_setWidth]
    exact Nat.mod_eq_of_lt (Nat.lt_trans u.notices.pending.isLt (by decide))
  have low : u.notices.pending.toNat < 2 ^ 8 := u.notices.pending.isLt
  apply BitVec.eq_of_toNat_eq
  rw [registerRead_toNat u k some inside, value, bits]
  split
  next zero =>
    rw [zero, bits, Nat.mul_zero, Nat.pow_zero, Nat.div_one]
    exact Nat.mod_eq_of_lt (Nat.lt_of_lt_of_le low (Nat.pow_le_pow_right (by decide) (by omega)))
  next later =>
    have past : u.notices.pending.toNat < 2 ^ (8 * first) :=
      Nat.lt_of_lt_of_le low (Nat.pow_le_pow_right (by decide) (by omega))
    rw [Nat.div_eq_of_lt past]
    rfl

/-! ## Reads of NOTICE (R187) -/

theorem readNotice_first {count : Nat} (s : State) (some : 1 ≤ count) (inside : count ≤ 8) :
    readNotice 0 count s = emit (.readData (s.notices.pending.setWidth 64))
      (s.setNotices (driveAttn s.now s.notices { s.notices with pending := 0 })) := by
  have span : registerSpan 0 count = true := by simp [registerSpan, some, inside]
  unfold readNotice
  rw [if_pos span, if_pos rfl]

theorem readNotice_later {first count : Nat} (s : State) (some : 1 ≤ count) (inside : first + count ≤ 8)
    (later : first ≠ 0) : readNotice first count s = emit (.readData 0) s := by
  have span : registerSpan first count = true := by simp [registerSpan, some, inside]
  unfold readNotice
  rw [if_pos span, if_neg later]

theorem unmasked_of_none (h : x.pending = 0) : unmasked x = 0 := by
  unfold unmasked
  rw [h]
  exact BitVec.zero_and

/-- A read that clears the causes deasserts ATTN under LEVEL, and lets a pulse run on. -/
theorem driveAttn_cleared (now : Nat) (x : Notices) : driveAttn now x { x with pending := 0 } =
    { x with pending := 0, attn := (match x.mode with | .level => false | .pulse => x.attn) } := by
  obtain ⟨pending, mask, mode, attn, till⟩ := x
  have none : ∀ mode, unmasked ⟨0, mask, mode, attn, till⟩ = 0 := fun _ => unmasked_of_none rfl
  cases mode
  case level => rw [driveAttn_level now _ rfl, none]; rfl
  case pulse => rw [driveAttn_runs now rfl (.inr (none _))]

theorem pulseOver_of_due {e : Nat} (running : s.notices.pulseEnd = some e) (due : e ≤ s.now) :
    pulseOver s = s.setNotices { s.notices with attn := false, pulseEnd := none } := by
  unfold pulseOver
  rw [running]
  exact if_pos (decide_eq_true due)

/-- A timer that is stopped or not due has not ended. -/
theorem not_ended {timer : Option Nat} {now : Nat} (h : timer = none ∨ ∃ e, timer = some e ∧ now < e) :
    ended timer now = false := by
  rcases h with rfl | ⟨e, rfl, later⟩
  · rfl
  · exact decide_eq_false (Nat.not_le.mpr later)

theorem pulseOver_of_not_due (h : s.notices.pulseEnd = none ∨ ∃ e, s.notices.pulseEnd = some e ∧ s.now < e) :
    pulseOver s = s := if_neg (by rw [not_ended h]; simp)

/-- Settles O14. -/
theorem noticeReadMaskAndPulse : Obligations.NoticeReadMaskAndPulse := by
  unfold Obligations.NoticeReadMaskAndPulse
  refine ⟨fun u => ?registers, rfl, rfl, rfl, rfl, rfl, rfl, rfl, ?raise, ?notice, ?reads, ?pin, ?mask⟩
  case registers =>
    exact ⟨rfl, rfl, rfl, controlValue_toNat u, rfl, rfl, rfl, faultValue_toNat u⟩
  case raise =>
    rintro c u n rfl
    exact ⟨rfl, driveAttn_pending .., driveAttn_mask .., driveAttn_mode .., by
      have attn := driveAttn_attn (n := (raise c u).notices) u.now rfl rfl rfl
      rw [show unmasked u.notices = u.notices.pending &&& ~~~(raise c u).notices.mask by
        rw [show (raise c u).notices.mask = u.notices.mask from driveAttn_mask ..]; rfl] at attn
      exact attn⟩
  case notice =>
    rintro m first count s _ rfl some inside
    refine ⟨rfl, rfl, ?_, fun later => next_congr (readNotice_later _ some inside later)⟩
    rintro rfl
    have read := readNotice_first (observe m s) some (Nat.zero_add count ▸ inside)
    refine ⟨_, rfl, ?_, ?_, readNotice_onlyIn _ _ _⟩
    · rw [read]; rfl
    · rw [read]; exact driveAttn_cleared _ s.notices
  case reads =>
    exact fun u k first count _ some inside =>
      ⟨registerRead_toNat u k some inside, fun reg => registerRead_pending u reg some inside⟩
  case pin => exact fun u => ⟨fun held => by simp [State.attnPin, held], fun free => by simp [State.attnPin, free]⟩
  case mask =>
    rintro m v s _ rfl
    refine ⟨⟨_, rfl, Acts.only (by apply_rules [writeMask_acts, Acts.refl]), driveAttn_mask .., driveAttn_pending ..,
      driveAttn_mode .., ?_⟩, fun e running due => next_congr (pulseOver_of_due running due),
      fun h => next_congr (pulseOver_of_not_due h)⟩
    have attn := driveAttn_attn (n := (writeMask v (observe m s)).notices) (observe m s).now rfl rfl rfl
    rw [show (writeMask v (observe m s)).notices.mode = s.notices.mode from driveAttn_mode ..,
      show unmasked (writeMask v (observe m s)).notices = s.notices.pending &&& ~~~(v.setWidth 8) by
        unfold unmasked writeMask
        simp only [State.setNotices_notices, driveAttn_pending, driveAttn_mask]
        rfl] at attn
    exact attn

end Sys2Proof.Machine

/-! PROOFS. The Page Manager as it acts last in an event: records, seals, marks and passes (R90 to R101, R105). -/

namespace Sys2Proof.Machine

variable {s t u v b : State} {e : Entry} {p : Page} {n : Nat}

/-! ## Each step of it -/

/-- What the Page Manager does once the mark has been looked at. -/
def pagesGoOn (n : Nat) (s : State) : State :=
  discardOnPageWait (if (sealProgress (issueRecords n s)).pages.wait then sealProgress (issueRecords n s)
    else openPass (sealProgress (issueRecords n s)))

theorem advancePages_eq (s : State) :
    advancePages s = pagesGoOn (s.staging.entries.length + 8) (checkMark (dropHeads s.staging.entries.length s)) := rfl

theorem pagesGoOn_manages (n : Nat) (s : State) : PageManages s (pagesGoOn n s) := by
  have sealing := (issueRecords_manages n s).trans (sealProgress_manages _)
  unfold pagesGoOn
  split
  · exact sealing.trans (discardOnPageWait_manages _)
  · exact (sealing.trans (openPass_manages _)).trans (discardOnPageWait_manages _)

theorem dropStep_eq_none (h : ∀ e d, s.firstUnissued = some e → s.pages.discarding = some d → e.lineId ≠ some d) :
    dropStep s = none := by
  unfold dropStep
  split
  next e d first discarding => exact if_neg (h e d first discarding)
  next => rfl

theorem dropStep_of_keeping (h : s.pages.discarding = none) : dropStep s = none :=
  dropStep_eq_none fun _ _ _ d => by rw [h] at d; cases d

theorem dropStep_of_empty (h : s.firstUnissued = none) : dropStep s = none :=
  dropStep_eq_none fun _ _ first => by rw [h] at first; cases first

theorem dropHeads_of_still (h : dropStep s = none) (n : Nat) : dropHeads n s = s := by
  cases n
  · rfl
  · unfold dropHeads
    rw [h]

theorem checkMark_of_quiet (h : s.markQuiet) : checkMark s = s := by
  unfold checkMark
  split
  next m mark =>
    refine if_neg fun due => ?_
    simp only [Bool.and_eq_true, Bool.not_eq_true'] at due
    rcases h.1 m mark with begun | ahead
    · rw [begun] at due; cases due.1
    · rw [ahead] at due; cases due.2
  next d mark drain =>
    refine if_neg fun due => ?_
    rw [h.2 d mark drain] at due
    cases due
  next => rfl

theorem issueRecords_of_still (drop : dropStep s = none) (issue : issueStep s = none) :
    issueRecords (n + 1) s = sealIfFull s := by
  unfold issueRecords
  rw [drop, issue]

theorem issueRecords_of_issue (drop : dropStep s = none) (issue : issueStep s = some t) :
    issueRecords (n + 1) s = issueRecords n t := by
  rw [issueRecords, drop, issue]

theorem issueStep_of_no_page (h : s.pages.current = none) : issueStep s = none := by
  unfold issueStep; rw [h]

theorem issueStep_of_none (h : s.firstUnissued = none) : issueStep s = none := by
  unfold issueStep; rw [h]; cases s.pages.current <;> rfl

theorem issueStep_of_closed (current : s.pages.current = some p) (closed : p.takesRecords = false) : issueStep s = none := by
  unfold issueStep
  rw [current]
  split
  next x _ e _ =>
    cases e
    rw [closed]
    rfl
  next => rfl

theorem issueStep_of_full (current : s.pages.current = some p) (first : s.firstUnissued = some e)
    (full : fits s.pages.line p e = false) : issueStep s = none := by
  unfold issueStep
  rw [current, first]
  dsimp only
  rw [full, Bool.and_false]
  rfl

theorem sealIfFull_of_no_page (h : s.pages.current = none) : sealIfFull s = s := by
  unfold sealIfFull; rw [h]

theorem sealIfFull_of_none (h : s.firstUnissued = none) : sealIfFull s = s := by
  unfold sealIfFull; rw [h]; cases s.pages.current <;> rfl

theorem sealIfFull_of_closed (current : s.pages.current = some p) (closed : p.takesRecords = false) : sealIfFull s = s := by
  unfold sealIfFull
  rw [current]
  split
  next x _ e _ =>
    cases e
    rw [closed]
    rfl
  next => rfl

theorem sealIfFull_of_full (current : s.pages.current = some p) (first : s.firstUnissued = some e)
    (takes : p.takesRecords = true) (full : fits s.pages.line p e = false) : sealIfFull s = beginSeal .full p s := by
  unfold sealIfFull
  rw [current, first]
  exact if_pos (by rw [takes, full]; rfl)

/-- A page that no record can be issued into, or no record that waits: nothing is issued. -/
theorem issueRecords_of_closed (drop : dropStep s = none) (current : s.pages.current = some p)
    (closed : p.takesRecords = false) : issueRecords (n + 1) s = s := by
  rw [issueRecords_of_still drop (issueStep_of_closed current closed), sealIfFull_of_closed current closed]

theorem issueRecords_of_no_page (drop : dropStep s = none) (h : s.pages.current = none) : issueRecords (n + 1) s = s := by
  rw [issueRecords_of_still drop (issueStep_of_no_page h), sealIfFull_of_no_page h]

theorem issueRecords_of_none (h : s.firstUnissued = none) : issueRecords n s = s := by
  cases n
  · rfl
  · rw [issueRecords_of_still (dropStep_of_empty h) (issueStep_of_none h), sealIfFull_of_none h]

theorem sealProgress_of_no_page (h : s.pages.current = none) : sealProgress s = s := by
  unfold sealProgress; rw [h]

theorem sealProgress_of_waiting (current : s.pages.current = some p)
    (h : p.sealing = none ∨ p.stage ≠ .ready ∨ s.drained = false) : sealProgress s = s := by
  unfold sealProgress
  rw [current]
  refine if_neg fun due => ?_
  rcases h with none | stage | busy
  · rw [none] at due; cases due.1
  · exact stage due.2.1
  · rw [busy] at due; cases due.2.2

theorem sealProgress_of_due {r : SealReason} (current : s.pages.current = some p) (sealing : p.sealing = some r)
    (stage : p.stage = .ready) (drained : s.drained = true) :
    sealProgress s = descriptorWrite .sealField p (pageFields p) (putPage { p with stage := .sealField } s) := by
  unfold sealProgress
  rw [current]
  exact if_pos ⟨by rw [sealing]; rfl, stage, drained⟩

theorem openPass_of_not_due (h : s.passDue = false) : openPass s = s := if_neg (by rw [h]; simp)

theorem passDue_of_page (h : s.pages.current ≠ none) : s.passDue = false := by
  unfold State.passDue
  cases e : s.pages.current
  · exact absurd e h
  · simp

theorem passDue_of_none (h : s.recordWaits = false) : s.passDue = false := by unfold State.passDue; rw [h]; rfl

theorem passDue_of (records : s.recordWaits = true) (current : s.pages.current = none) (pass : s.pages.pass = none) :
    s.passDue = true := by unfold State.passDue; rw [records, current, pass]; rfl

theorem recordWaits_iff (s : State) : s.recordWaits = s.firstUnissued.isSome := by
  unfold State.recordWaits State.firstUnissued
  rw [Bool.eq_iff_iff, List.find?_isSome, List.any_eq_true]

theorem openPass_reads {table : Nat × Nat} (due : s.passDue = true) (noFault : s.pages.fault = false)
    (table' : s.pages.table = some table) : openPass s = readDescriptor table 0 s := by
  unfold openPass
  rw [if_pos due, noFault, table']
  rfl

theorem openPass_exhausts (due : s.passDue = true) (h : s.pages.fault = true ∨ s.pages.table = none) :
    openPass s = exhaust s := by
  unfold openPass
  rw [if_pos due]
  split
  · rfl
  next noFault =>
    rcases h with fault | none
    · exact absurd fault noFault
    · rw [none]

theorem exhaust_of_not_waiting (w : s.waitsOnPages = false) : exhaust s = setPageWait s :=
  discardOnPageWait_of_not_waiting ((setPageWait_manages s).waits w)

theorem setPageWait_first (h : s.pages.wait = false) :
    setPageWait s = raise .pageWait (s.setPages { s.pages with wait := true }) := if_neg (by rw [h]; simp)

theorem setPageWait_again (h : s.pages.wait = true) : setPageWait s = s := if_pos h

/-! ## A page sealed by CUT (R98, R100) -/

theorem firstUnissued_of_empty (h : s.staging.entries = []) : s.firstUnissued = none := by
  unfold State.firstUnissued; rw [h]; rfl

theorem markQuiet_of_none (mark : s.pages.mark = none) (drain : s.pages.drain = none) : s.markQuiet :=
  ⟨fun k e => (by rw [mark] at e; cases e), fun d _ e => (by rw [drain] at e; cases e)⟩

theorem drained_iff (s : State) : s.drained = true ↔ s.port.recordWait = [] ∧ s.port.recordOut = [] := by
  unfold State.drained
  simp

/-- With no job waiting, no mark reached and nothing to drop, what is left is to issue and to seal. -/
theorem advancePages_of_quiet (quiet : s.markQuiet) (drop : dropStep s = none) :
    advancePages s = pagesGoOn (s.staging.entries.length + 8) s := by
  rw [advancePages_eq, dropHeads_of_still drop, checkMark_of_quiet quiet]

/-- Once a page is current no pass begins, and the Page Manager is done. -/
theorem pagesGoOn_of_page (w : s.waitsOnPages = false) (sealing : sealProgress (issueRecords n s) = t)
    (current : t.pages.current ≠ none) : pagesGoOn n s = t := by
  have waits : t.waitsOnPages = false :=
    sealing ▸ ((issueRecords_manages n s).trans (sealProgress_manages _)).waits w
  unfold pagesGoOn
  rw [sealing, openPass_of_not_due (passDue_of_page current), ite_self, discardOnPageWait_of_not_waiting waits]

theorem sealed_takes_none {r : SealReason} (h : p.sealing = some r) : p.takesRecords = false := by
  unfold Page.takesRecords
  rw [h]
  exact Bool.and_false _

/-- The seal of a drained page with nothing queued: its field write is asked for (R98, step 3). -/
theorem advancePages_seals {r : SealReason} (current : s.pages.current = some p) (sealing : p.sealing = some r)
    (stage : p.stage = .ready) (quiet : s.markQuiet) (none : s.firstUnissued = none) (drained : s.drained = true)
    (w : s.waitsOnPages = false) :
    advancePages s = descriptorWrite .sealField p (pageFields p) (putPage { p with stage := .sealField } s) := by
  rw [advancePages_of_quiet quiet (dropStep_of_empty none)]
  refine pagesGoOn_of_page w ?_ (by rintro ⟨⟩)
  rw [issueRecords_of_none none, sealProgress_of_due current sealing stage drained]

theorem descriptorWrite_port (purpose : Purpose) (p : Page) (fs : Fields) (s : State) :
    (descriptorWrite purpose p fs s).port = s.port.request (maskedTransfer .descriptor purpose
      (descriptorAddr (s.pages.table.getD (0, 0)) p.index + fs.toWrite.offset) fs.toWrite.data fs.toWrite.mask) := rfl

/-- A field write gives a page's values, whatever has become of its seal. -/
theorem FieldWrite.of_sealing {purpose : Purpose} {p : Page} {r : Option SealReason} {reason d : Nat} {w : Transfer}
    (h : FieldWrite purpose { p with sealing := r } reason d w) : FieldWrite purpose p reason d w :=
  ⟨h.who, h.span, h.fill, h.sequence, h.reason, h.firstLine, h.firstShot, h.mask⟩

/-- Settles O18. -/
theorem cutBeginsSeal : Obligations.CutBeginsSeal := by
  unfold Obligations.CutBeginsSeal
  rintro m s _ p rfl current sealing stage
  have begins := controlCut_begins (s := observe m s) current sealing stage
  refine ⟨next_congr begins, fun ready queue mark drain wait out noWait => ?_⟩
  have seals := advancePages_seals (s := beginSeal .cut p (observe m s)) (p := { p with sealing := some .cut }) rfl rfl ready
    (markQuiet_of_none mark drain) (firstUnissued_of_empty queue) ((drained_iff _).mpr ⟨wait, out⟩) noWait
  refine ⟨_, next_congr (begins.trans seals), rfl, _, descriptorWrite_port .., ?_⟩
  exact (fieldWrite_of_pageFields .sealField { p with sealing := some .cut } _).of_sealing

/-! ## LOOK and poll ticks (R94, R177) -/

theorem lookAtChain_woken (b : State) : ChainWoken b (lookAtChain b) where
  ready state idle := by
    unfold lookAtChain
    rw [state]
    exact if_pos idle
  link state idle := by
    unfold lookAtChain
    rw [state]
    exact if_pos idle
  busy state active := by
    unfold lookAtChain
    rcases state with e | e <;> rw [e] <;> exact if_neg active
  others notReady notLink := by
    unfold lookAtChain
    split
    next e => exact absurd e notReady
    next e => exact absurd e notLink
    all_goals rfl

theorem wakePages_of_pass (h : s.pages.pass ≠ none) : wakePages s = s.setPages { s.pages with lookAgain := true } :=
  if_pos (Option.isSome_iff_ne_none.mpr h)

theorem wakePages_of_no_pass (h : s.pages.pass = none) : wakePages s = openPass s := if_neg (by rw [h]; simp)

theorem pollTicks_of_due (on : 1 ≤ s.reader.pollMs) (due : pollDue s.reader ≤ s.now) :
    pollTicks s = advancePages (wakePages (lookAtChain (s.setReader { s.reader with pollFrom := pollDue s.reader }))) :=
  if_pos ⟨on, due⟩

theorem pollTicks_of_not_due (h : s.reader.pollMs = 0 ∨ s.now < pollDue s.reader) : pollTicks s = s := by
  refine if_neg fun due => ?_
  rcases h with off | later
  · omega
  · omega

/-- Settles O19. -/
theorem lookAndPollWake : Obligations.LookAndPollWake := by
  unfold Obligations.LookAndPollWake
  rintro m s _ rfl
  refine ⟨⟨_, rfl, lookAtChain_woken _⟩, fun on due => ⟨_, next_congr (pollTicks_of_due (s := observe m s) on due), lookAtChain_woken _⟩,
    fun h => next_congr (pollTicks_of_not_due (s := observe m s) h), fun u pass => wakePages_of_pass pass, ?reads, ?exhausts, ?nothing⟩
  case reads =>
    intro u table pass current records noFault table'
    rw [wakePages_of_no_pass pass, openPass_reads (passDue_of records current pass) noFault table']
    rfl
  case exhausts =>
    intro u pass current records h w
    have exhausted : wakePages u = setPageWait u := by
      rw [wakePages_of_no_pass pass, openPass_exhausts (passDue_of records current pass) h, exhaust_of_not_waiting w]
    rw [exhausted]
    exact ⟨setPageWait_again, setPageWait_first⟩
  case nothing =>
    intro u pass h
    rw [wakePages_of_no_pass pass, openPass_of_not_due]
    rcases h with page | none
    · exact passDue_of_page page
    · exact passDue_of_none none

end Sys2Proof.Machine

/-! PROOFS. What the Page Manager leaves and brings at the end of an event (R90 to R101, R105). -/

namespace Sys2Proof.Machine

variable {s t u v b : State} {e : Entry} {p : Page} {n : Nat} {I : State → Prop}

/-! ## Induction over what is left to do after the mark -/

/-- A predicate that issuing, sealing and the opening of a pass keep, no job waiting on them. -/
structure KeptByPages (I : State → Prop) : Prop where
  drops  : ∀ {s t}, dropStep s = some t → I s → I t
  issues : ∀ {s t}, issueStep s = some t → I s → I t
  full   : ∀ s, I s → I (sealIfFull s)
  seals  : ∀ s, I s → I (sealProgress s)
  opens  : ∀ s, s.waitsOnPages = false → I s → I (openPass s)

theorem KeptByPages.issueRecords (k : KeptByPages I) (n : Nat) : ∀ s, I s → I (issueRecords n s) := by
  induction n with
  | zero => exact fun _ => id
  | succ n ih =>
    intro s h
    unfold Machine.issueRecords
    split
    next t dropped => exact ih t (k.drops dropped h)
    next =>
      split
      next t issued => exact ih t (k.issues issued h)
      next => exact k.full s h

theorem KeptByPages.goOn (k : KeptByPages I) (w : s.waitsOnPages = false) (h : I s) : I (pagesGoOn n s) := by
  have sealed := k.seals _ (k.issueRecords n s h)
  have waits : (sealProgress (Machine.issueRecords n s)).waitsOnPages = false :=
    ((issueRecords_manages n s).trans (sealProgress_manages _)).waits w
  unfold pagesGoOn
  split
  · rw [discardOnPageWait_of_not_waiting waits]
    exact sealed
  · rw [discardOnPageWait_of_not_waiting ((openPass_manages _).waits waits)]
    exact k.opens _ waits sealed

/-- What a pass opened, or the pages found exhausted, moves while no job waits. -/
theorem openPass_cases (w : s.waitsOnPages = false) : openPass s = s ∨ openPass s = setPageWait s ∨
    ∃ table, openPass s = readDescriptor table 0 s := by
  unfold openPass
  rw [exhaust_of_not_waiting w]
  split
  · split
    · exact .inr (.inl rfl)
    · split
      · exact .inr (.inl rfl)
      · exact .inr (.inr ⟨_, rfl⟩)
  · exact .inl rfl

/-- A property of the fields that neither a request for the descriptors nor PAGE-WAIT touches. -/
theorem openPass_keeps (w : s.waitsOnPages = false) (h : I s)
    (requests : ∀ x pass, x.requester = .descriptor → I ((s.setPages { s.pages with pass := pass }).setPort (s.port.request x)))
    (waits : I (raise .pageWait (s.setPages { s.pages with wait := true }))) : I (openPass s) := by
  rcases openPass_cases w with e | e | ⟨table, e⟩ <;> rw [e]
  · exact h
  · unfold setPageWait
    split
    · exact h
    · exact waits
  · exact requests _ _ rfl

/-! ## Marks and drain points stay (R101) -/

/-- The job-end mark and the drain point are as given. -/
def State.marksAre (mark : Option EndMark) (drain : Option Nat) (s : State) : Prop :=
  s.pages.mark = mark ∧ s.pages.drain = drain

theorem countLost_marks (e : Entry) (s : State) :
    (countLost e s).pages.mark = s.pages.mark ∧ (countLost e s).pages.drain = s.pages.drain := by
  unfold countLost
  split
  next => exact ⟨rfl, rfl⟩
  next => split <;> exact ⟨rfl, rfl⟩
  all_goals exact ⟨rfl, rfl⟩

theorem dropStep_eq (h : dropStep s = some t) : ∃ e, s.firstUnissued = some e ∧ t = countLost e (removeEntry e.seq s) := by
  unfold dropStep at h
  split at h
  next e d first _ =>
    split at h
    · cases h; exact ⟨e, first, rfl⟩
    · cases h
  next => cases h

/-- A step of the record path issues a continuation header, or the record that waits first. -/
theorem issueStep_eq (h : issueStep s = some t) : ∃ p e, s.pages.current = some p ∧ s.firstUnissued = some e ∧
    ((∃ header, t = issueContinuation header p s) ∨ t = issueRecord e p s) := by
  unfold issueStep at h
  split at h
  next p e current first =>
    refine ⟨p, e, current, first, ?_⟩
    split at h
    · split at h
      · split at h
        · cases h; exact .inl ⟨_, rfl⟩
        · cases h; exact .inr rfl
      · cases h; exact .inr rfl
    · cases h
  next => cases h

theorem marksAre_kept (mark : Option EndMark) (drain : Option Nat) : KeptByPages (State.marksAre mark drain) where
  drops := by
    intro s t h marks
    obtain ⟨e, -, rfl⟩ := dropStep_eq h
    obtain ⟨sameMark, sameDrain⟩ := countLost_marks e (removeEntry e.seq s)
    exact ⟨sameMark.trans marks.1, sameDrain.trans marks.2⟩
  issues := by
    intro s t h marks
    obtain ⟨p, e, -, -, ⟨_, rfl⟩ | rfl⟩ := issueStep_eq h <;> exact marks
  full := by
    intro s marks
    unfold sealIfFull
    split
    · split <;> exact marks
    · exact marks
  seals := by
    intro s marks
    unfold sealProgress
    split
    · split <;> exact marks
    · exact marks
  opens := fun s w marks => openPass_keeps w marks (fun _ _ _ => marks) marks

/-! ## Records asked for stay asked for, and marked as issued (R95) -/

/-- Record transfers wait behind those given. -/
def State.waitsBehind (l : List Transfer) (s : State) : Prop := ∃ more, s.port.recordWait = l ++ more

theorem Port.recordWait_request (x : Port) (y : Transfer) :
    ∃ more, (x.request y).recordWait = x.recordWait ++ more := by
  unfold Port.request
  split
  next => exact ⟨[], (List.append_nil _).symm⟩
  next => exact ⟨[], (List.append_nil _).symm⟩
  next => exact ⟨[y], rfl⟩
  next => exact ⟨[], (List.append_nil _).symm⟩

theorem State.waitsBehind.request {l : List Transfer} (h : s.waitsBehind l) (y : Transfer)
    (port : t.port = s.port.request y) : t.waitsBehind l := by
  obtain ⟨more, e⟩ := h
  obtain ⟨later, e'⟩ := s.port.recordWait_request y
  exact ⟨more ++ later, by rw [port, e', e, List.append_assoc]⟩

theorem State.waitsBehind.same {l : List Transfer} (h : s.waitsBehind l) (port : t.port = s.port) : t.waitsBehind l := by
  obtain ⟨more, e⟩ := h
  exact ⟨more, by rw [port, e]⟩

theorem countLost_port (e : Entry) (s : State) : (countLost e s).port = s.port := by
  unfold countLost
  split
  next => rfl
  next => split <;> rfl
  all_goals rfl

theorem waitsBehind_kept (l : List Transfer) : KeptByPages (State.waitsBehind l) where
  drops := by
    intro s t h behind
    obtain ⟨e, -, rfl⟩ := dropStep_eq h
    exact behind.same (countLost_port e _)
  issues := by
    intro s t h behind
    obtain ⟨p, e, -, -, ⟨header, rfl⟩ | rfl⟩ := issueStep_eq h
    · exact behind.request (writeTransfer .record .continuation (p.base + p.issue) (headerBytes true header)) rfl
    · exact behind.request (writeTransfer .record .record (p.base + p.issue) e.record.bytes) rfl
  full := by
    intro s behind
    unfold sealIfFull
    split
    · split <;> exact behind
    · exact behind
  seals := by
    intro s behind
    unfold sealProgress
    split
    · split
      · exact behind.request _ (descriptorWrite_port ..)
      · exact behind
    · exact behind
  opens := fun s w behind => openPass_keeps w behind (fun _ _ _ => behind.request _ rfl) behind

/-- A queued record is marked as issued, and so is every one under its number. -/
def State.hasIssued (e : Entry) (s : State) : Prop :=
  { e with issued := true } ∈ s.staging.entries ∧ ∀ y ∈ s.staging.entries, y.seq = e.seq → y.issued = true

theorem State.hasIssued.same (h : s.hasIssued e) (staging : t.staging = s.staging) : t.hasIssued e := by
  unfold State.hasIssued
  rw [staging]
  exact h

theorem countLost_staging (e : Entry) (s : State) : (countLost e s).staging = s.staging := by
  unfold countLost
  split
  next => rfl
  next => split <;> rfl
  all_goals rfl

theorem firstUnissued_mem (h : s.firstUnissued = some e) : e ∈ s.staging.entries ∧ e.issued = false := by
  refine ⟨List.mem_of_find?_eq_some h, ?_⟩
  have unissued := List.find?_some h
  simpa using unissued

theorem hasIssued_markIssued {x : Nat} (h : s.hasIssued e) (other : e.seq ≠ x) :
    (s.setStaging { s.staging with entries := markIssued x s.staging.entries }).hasIssued e := by
  refine ⟨List.mem_map.mpr ⟨_, h.1, if_neg other⟩, fun y mem same => ?_⟩
  obtain ⟨z, zmem, rfl⟩ := List.mem_map.mp mem
  by_cases here : z.seq = x
  · rw [if_pos here]
  · rw [if_neg here] at same ⊢
    exact h.2 z zmem same

theorem hasIssued_kept (e : Entry) : KeptByPages (State.hasIssued e) where
  drops := by
    intro s t h issued
    obtain ⟨x, first, rfl⟩ := dropStep_eq h
    obtain ⟨mem, unissued⟩ := firstUnissued_mem first
    have other : e.seq ≠ x.seq := fun same => by rw [issued.2 x mem same.symm] at unissued; cases unissued
    refine State.hasIssued.same (s := removeEntry x.seq s) ⟨?_, fun y ymem same => ?_⟩ (countLost_staging x _)
    · exact List.mem_filter.mpr ⟨issued.1, decide_eq_true other⟩
    · exact issued.2 y (List.mem_filter.mp ymem).1 same
  issues := by
    intro s t h issued
    obtain ⟨p, x, -, first, ⟨_, rfl⟩ | rfl⟩ := issueStep_eq h
    · exact issued
    · obtain ⟨mem, unissued⟩ := firstUnissued_mem first
      have other : e.seq ≠ x.seq := fun same => by rw [issued.2 x mem same.symm] at unissued; cases unissued
      exact (hasIssued_markIssued issued other).same rfl
  full := by
    intro s issued
    unfold sealIfFull
    split
    · split <;> exact issued
    · exact issued
  seals := by
    intro s issued
    unfold sealProgress
    split
    · split <;> exact issued
    · exact issued
  opens := fun s w issued => openPass_keeps w issued (fun _ _ _ => issued) issued

theorem issueRecord_hasIssued (e : Entry) (p : Page) (mem : e ∈ s.staging.entries) : (issueRecord e p s).hasIssued e := by
  refine ⟨List.mem_map.mpr ⟨e, mem, if_pos rfl⟩, fun y ymem same => ?_⟩
  obtain ⟨z, -, rfl⟩ := List.mem_map.mp ymem
  by_cases here : z.seq = e.seq
  · rw [if_pos here]
  · rw [if_neg here] at same
    exact absurd same here

/-! ## A page that takes records (R95 to R97, R99) -/

theorem ready_takes (stage : p.stage = .ready) (sealing : p.sealing = none) : p.takesRecords = true := by
  unfold Page.takesRecords
  rw [stage, sealing]
  rfl

theorem issueStep_record (current : s.pages.current = some p) (first : s.firstUnissued = some e)
    (takes : p.takesRecords = true) (room : fits s.pages.line p e = true) (few : s.recordsInFlight < 4)
    (need : needsContinuation s.pages.line p e = false) : issueStep s = some (issueRecord e p s) := by
  have may : (p.takesRecords && fits s.pages.line p e && decide (s.recordsInFlight < maxRecordTransfers)) = true := by
    rw [takes, room, decide_eq_true (show s.recordsInFlight < maxRecordTransfers from few)]; rfl
  unfold issueStep
  rw [current, first]
  dsimp only
  rw [if_pos may]
  split
  next => exact if_neg (by rw [need]; simp)
  next => rfl

theorem issueStep_continuation {job : Nat} {h : HeaderRec} (current : s.pages.current = some p)
    (first : s.firstUnissued = some e) (takes : p.takesRecords = true) (room : fits s.pages.line p e = true)
    (few : s.recordsInFlight < 4) (line : s.pages.line = some (job, h))
    (need : needsContinuation s.pages.line p e = true) : issueStep s = some (issueContinuation h p s) := by
  have may : (p.takesRecords && fits s.pages.line p e && decide (s.recordsInFlight < maxRecordTransfers)) = true := by
    rw [takes, room, decide_eq_true (show s.recordsInFlight < maxRecordTransfers from few)]; rfl
  rw [line] at need
  unfold issueStep
  rw [current, first]
  dsimp only
  rw [if_pos may, line]
  exact if_pos need

theorem fits_iff (line : Option (Nat × HeaderRec)) (p : Page) (e : Entry) : fits line p e = true ↔
    p.issue + e.record.size + (if needsContinuation line p e then 48 else 0) ≤ p.size := by
  unfold fits bytesNeeded contSize
  rw [decide_eq_true_eq, Nat.add_assoc]

theorem lineId_eq_iff (e : Entry) (job line : Nat) : e.lineId = some (job, line) ↔ e.job = job ∧ e.record.line? = some line := by
  unfold Entry.lineId
  cases e.record.line? <;> simp

/-- A SHOT or LINE TRAILER of the line in progress, into a page that holds no header of it (R97). -/
theorem needsContinuation_iff (job : Nat) (h : HeaderRec) (p : Page) (e : Entry) :
    needsContinuation (some (job, h)) p e = true ↔
      p.holdsHeader = false ∧ p.contIssued = false ∧ e.job = job ∧
      ((∃ r, e.record = .shot r ∧ r.line = h.line) ∨ ∃ r, e.record = .trailer r ∧ r.line = h.line) := by
  have which : (e.record.followsHeader = true ∧ e.record.line? = some h.line) ↔
      ((∃ r, e.record = .shot r ∧ r.line = h.line) ∨ ∃ r, e.record = .trailer r ∧ r.line = h.line) := by
    cases e.record <;> simp [Rec.followsHeader, Rec.line?]
  unfold needsContinuation
  simp only [Bool.and_eq_true, Bool.not_eq_true', decide_eq_true_eq, lineId_eq_iff, ← which]
  constructor
  · rintro ⟨⟨⟨holds, issued⟩, follows⟩, job, line⟩
    exact ⟨holds, issued, job, follows, line⟩
  · rintro ⟨holds, issued, job, follows, line⟩
    exact ⟨⟨⟨holds, issued⟩, follows⟩, job, line⟩

end Sys2Proof.Machine

/-! PROOFS. The Page Manager acts last in an event (R90 to R101, R105): PageManagerActsLast. -/

namespace Sys2Proof.Machine

variable {s t u v b : State} {e : Entry} {p : Page} {n : Nat}

theorem dropStep_of_first (first : s.firstUnissued = some e) (keeps : s.pages.discarding = none ∨ e.lineId ≠ s.pages.discarding) :
    dropStep s = none := by
  refine dropStep_eq_none fun x d first' discarding same => ?_
  rw [first] at first'
  cases first'
  rcases keeps with none | other
  · rw [none] at discarding; cases discarding
  · exact other (same.trans discarding.symm)

theorem pagesGoOn_of_issue (drop : dropStep s = none) (issue : issueStep s = some t) :
    pagesGoOn (n + 1) s = pagesGoOn n t := by
  unfold pagesGoOn
  rw [issueRecords_of_issue drop issue]

/-- With nothing to issue and no page, what is left is to open a pass. -/
theorem pagesGoOn_of_no_page (w : s.waitsOnPages = false) (issued : issueRecords n s = s) (noPage : s.pages.current = none) :
    pagesGoOn n s = if s.pages.wait then s else openPass s := by
  unfold pagesGoOn
  rw [issued, sealProgress_of_no_page noPage, discardOnPageWait_of_not_waiting]
  split
  · exact w
  · exact (openPass_manages s).waits w

/-- With nothing queued and no page the Page Manager is done. -/
theorem pagesGoOn_idle (w : s.waitsOnPages = false) (empty : s.staging.entries = []) (noPage : s.pages.current = none) :
    pagesGoOn n s = s := by
  have first := firstUnissued_of_empty empty
  rw [pagesGoOn_of_no_page w (issueRecords_of_none first) noPage, openPass_of_not_due, ite_self]
  exact passDue_of_none (by rw [recordWaits_iff, first]; rfl)

/-! ## A record that waits, and a page that takes records (R95 to R97, R99) -/

theorem unissued_after_issue (only : s.staging.entries.filter (fun y => !y.issued) = [e]) (p : Page) :
    (issueRecord e p s).firstUnissued = none := by
  refine List.find?_eq_none.mpr fun y mem unissued => ?_
  obtain ⟨z, zmem, rfl⟩ := List.mem_map.mp mem
  by_cases same : z.seq = e.seq
  · rw [if_pos same] at unissued; cases unissued
  · rw [if_neg same] at unissued
    have here : z ∈ s.staging.entries.filter (fun y => !y.issued) := List.mem_filter.mpr ⟨zmem, unissued⟩
    rw [only] at here
    exact same (congrArg Entry.seq (List.mem_singleton.mp here))

/-- The page into which the last record that waits is issued. -/
theorem issueRecord_page (e : Entry) (p : Page) (s : State) : ∃ q, (issueRecord e p s).pages.current = some q ∧
    q.issue = p.issue + e.record.size ∧
    q.sealing = (match e.record with
      | .trailer _ => if p.autoSeal = true ∧ p.highWater ≤ p.issue + 64 then some .highWater else none
      | _ => none) := by
  refine ⟨_, rfl, rfl, ?_⟩
  unfold highWaterSeal
  cases e.record <;> rfl

theorem sealProgress_page (current : s.pages.current = some p) :
    ∃ q, (sealProgress s).pages.current = some q ∧ q.issue = p.issue ∧ q.sealing = p.sealing := by
  unfold sealProgress
  rw [current]
  dsimp only
  split
  · exact ⟨_, rfl, rfl, rfl⟩
  · exact ⟨_, current, rfl, rfl⟩

/-- The write of the record that waits first is asked for (R95), and its page may begin its seal behind it (R99). -/
theorem advancePages_issues (w : s.waitsOnPages = false) (quiet : s.markQuiet) (first : s.firstUnissued = some e)
    (keeps : s.pages.discarding = none ∨ e.lineId ≠ s.pages.discarding) (current : s.pages.current = some p)
    (takes : p.takesRecords = true) (need : needsContinuation s.pages.line p e = false)
    (room : p.issue + e.record.size ≤ p.size) (few : s.recordsInFlight < 4) :
    (∃ more, (advancePages s).port.recordWait = s.port.recordWait ++
      writeTransfer .record .record (p.base + p.issue) e.record.bytes :: more) ∧
    (∃ y ∈ (advancePages s).staging.entries, y = { e with issued := true }) ∧
    (s.staging.entries.filter (fun y => !y.issued) = [e] →
      ∃ q, (advancePages s).pages.current = some q ∧ q.issue = p.issue + e.record.size ∧
        q.sealing = (match e.record with
          | .trailer _ => if p.autoSeal = true ∧ p.highWater ≤ p.issue + 64 then some .highWater else none
          | _ => none)) := by
  have drop := dropStep_of_first first keeps
  have fit : fits s.pages.line p e = true := (fits_iff _ p e).mpr (by rw [need]; exact room)
  have issue := issueStep_record current first takes fit few need
  have goes : advancePages s = pagesGoOn (s.staging.entries.length + 7) (issueRecord e p s) :=
    (advancePages_of_quiet quiet drop).trans (pagesGoOn_of_issue drop issue)
  have behind : (issueRecord e p s).waitsBehind
      (s.port.recordWait ++ [writeTransfer .record .record (p.base + p.issue) e.record.bytes]) := ⟨[], (List.append_nil _).symm⟩
  rw [goes]
  refine ⟨?_, ⟨_, ((hasIssued_kept e).goOn (s := issueRecord e p s) w (issueRecord_hasIssued e p (firstUnissued_mem first).1)).1, rfl⟩, fun only => ?_⟩
  · obtain ⟨more, waits⟩ := (waitsBehind_kept _).goOn (s := issueRecord e p s) (n := s.staging.entries.length + 7) w behind
    exact ⟨more, by rw [waits, List.append_assoc]; rfl⟩
  · obtain ⟨q, page, position, sealing⟩ := issueRecord_page e p s
    obtain ⟨q', page', position', sealing'⟩ := sealProgress_page page
    have issued := issueRecords_of_none (n := s.staging.entries.length + 7) (unissued_after_issue only p)
    rw [pagesGoOn_of_page (s := issueRecord e p s) w (by rw [issued]) (by rw [page']; simp)]
    exact ⟨q', page', position'.trans position, sealing'.trans sealing⟩

/-- The write of a continuation header is asked for ahead of its line's record (R97). -/
theorem advancePages_continues {job : Nat} {h : HeaderRec} (w : s.waitsOnPages = false) (quiet : s.markQuiet)
    (first : s.firstUnissued = some e) (keeps : s.pages.discarding = none ∨ e.lineId ≠ s.pages.discarding)
    (current : s.pages.current = some p) (takes : p.takesRecords = true) (line : s.pages.line = some (job, h))
    (need : needsContinuation s.pages.line p e = true) (room : p.issue + e.record.size + 48 ≤ p.size)
    (few : s.recordsInFlight < 4) :
    ∃ more, (advancePages s).port.recordWait = s.port.recordWait ++
      writeTransfer .record .continuation (p.base + p.issue) (headerBytes true h) :: more := by
  have drop := dropStep_of_first first keeps
  have fit : fits s.pages.line p e = true := (fits_iff _ p e).mpr (by rw [need]; exact room)
  have issue := issueStep_continuation current first takes fit few line need
  have behind : (issueContinuation h p s).waitsBehind
      (s.port.recordWait ++ [writeTransfer .record .continuation (p.base + p.issue) (headerBytes true h)]) :=
    ⟨[], (List.append_nil _).symm⟩
  obtain ⟨more, waits⟩ := (waitsBehind_kept _).goOn (s := issueContinuation h p s) (n := s.staging.entries.length + 7) w behind
  refine ⟨more, ?_⟩
  rw [advancePages_of_quiet quiet drop, pagesGoOn_of_issue drop issue, waits, List.append_assoc]
  rfl

/-- A record that does not fit begins the seal, whose fields are written once the page is drained (R96, R98). -/
theorem advancePages_full (w : s.waitsOnPages = false) (quiet : s.markQuiet) (first : s.firstUnissued = some e)
    (keeps : s.pages.discarding = none ∨ e.lineId ≠ s.pages.discarding) (current : s.pages.current = some p)
    (stage : p.stage = .ready) (takes : p.takesRecords = true)
    (full : p.size < p.issue + e.record.size + (if needsContinuation s.pages.line p e then 48 else 0)) :
    (s.drained = false → advancePages s = beginSeal .full p s) ∧
    (s.drained = true → ∃ x, advancePages s = { s with
        pages := { s.pages with current := some { p with sealing := some .full, stage := .sealField } },
        port := s.port.request x } ∧
      FieldWrite .sealField p 1 (descriptorAddr (s.pages.table.getD (0, 0)) p.index) x) := by
  have drop := dropStep_of_first first keeps
  have unfit : fits s.pages.line p e = false :=
    Bool.eq_false_iff.mpr fun fit => absurd ((fits_iff _ p e).mp fit) (Nat.not_le.mpr full)
  have begun : issueRecords (s.staging.entries.length + 8) s = beginSeal .full p s := by
    rw [issueRecords_of_still drop (issueStep_of_full current first unfit), sealIfFull_of_full current first takes unfit]
  refine ⟨fun busy => ?_, fun drained => ?_⟩
  · rw [advancePages_of_quiet quiet drop]
    refine pagesGoOn_of_page w ?_ (by rintro ⟨⟩)
    rw [begun]
    exact sealProgress_of_waiting (p := { p with sealing := some .full }) rfl (.inr (.inr busy))
  · refine ⟨_, ?_, (fieldWrite_of_pageFields .sealField { p with sealing := some .full } _).of_sealing⟩
    rw [advancePages_of_quiet quiet drop]
    refine pagesGoOn_of_page w ?_ (by rintro ⟨⟩)
    rw [begun]
    exact sealProgress_of_due (p := { p with sealing := some .full }) rfl rfl stage drained

/-- A record that waits with no page begins a pass, or exhaustion (R90, R93). -/
theorem advancePages_opens (w : s.waitsOnPages = false) (quiet : s.markQuiet) (first : s.firstUnissued = some e)
    (keeps : s.pages.discarding = none ∨ e.lineId ≠ s.pages.discarding) (noPage : s.pages.current = none)
    (noPass : s.pages.pass = none) (noWait : s.pages.wait = false) :
    (∀ table, s.pages.fault = false → s.pages.table = some table → advancePages s = readDescriptor table 0 s) ∧
    (s.pages.fault = true ∨ s.pages.table = none →
      advancePages s = raise .pageWait (s.setPages { s.pages with wait := true })) := by
  have drop := dropStep_of_first first keeps
  have due := passDue_of (by rw [recordWaits_iff, first]; rfl) noPage noPass
  have opens : advancePages s = openPass s := by
    rw [advancePages_of_quiet quiet drop, pagesGoOn_of_no_page w (issueRecords_of_no_page drop noPage) noPage, noWait]
    rfl
  rw [opens]
  refine ⟨fun table noFault has => openPass_reads due noFault has, fun h => ?_⟩
  rw [openPass_exhausts due h, exhaust_of_not_waiting w, setPageWait_first noWait]

/-! ## A mark that is reached (R101) -/

theorem checkMark_reached {k : EndMark} (mark : s.pages.mark = some k) (ahead : k.begun = false)
    (reached : s.reached k.bound = true) : checkMark s = markReached k s := by
  unfold checkMark
  rw [mark]
  exact if_pos (by rw [ahead, reached]; rfl)

theorem checkMark_drained {d : Nat} (mark : s.pages.mark = none) (drain : s.pages.drain = some d)
    (reached : s.reached d = true) : checkMark s = jobTold (clearMark s) := by
  unfold checkMark
  rw [mark, drain]
  exact if_pos reached

theorem markReached_of_no_page (k : EndMark) (noPage : s.pages.current = none) : markReached k s = jobTold (clearMark s) := by
  unfold markReached; rw [noPage]

/-- The page under a mark that is reached: its seal has begun, for the mark's reason or the one it had. -/
theorem markReached_page (k : EndMark) (current : s.pages.current = some p) (stage : p.stage = .ready) :
    ∃ q r, markReached k s = s.setPages { s.pages with mark := some { k with begun := true }, current := some q } ∧
      q.sealing = some r ∧ q.stage = .ready ∧ q.sealing = (match p.sealing with | none => some k.reason | some r => some r) := by
  unfold markReached
  rw [current]
  dsimp only
  rw [if_neg (by rw [stage]; simp)]
  cases sealing : p.sealing
  case none => exact ⟨{ p with sealing := some k.reason }, k.reason, rfl, rfl, stage, rfl⟩
  case some r =>
    refine ⟨p, r, ?_, sealing, stage, sealing⟩
    rw [← current]

theorem discardOnPageWait_of_not_aborted
    (h : ∀ j, s.job = some (.scan j) → j.abortTaken = true → s.pages.wait = false) : discardOnPageWait s = s := by
  unfold discardOnPageWait
  split
  next j run =>
    refine if_neg fun due => ?_
    have noWait := h j run due.2.2.1
    rw [noWait] at due
    cases due.2.2.2
  next => rfl

/-- The seal under a mark that is reached goes on once the page is drained. -/
theorem advancePages_seals_at_mark {k : EndMark} (mark : s.pages.mark = some k) (ahead : k.begun = false)
    (reached : s.reached k.bound = true) (keeping : s.pages.discarding = none) (current : s.pages.current = some p)
    (stage : p.stage = .ready) (noDiscard : ∀ j, s.job = some (.scan j) → j.abortTaken = true → s.pages.wait = false) :
    ∃ q, (advancePages s).pages.current = some q ∧ (advancePages s).pages.mark = some { k with begun := true } ∧
      q.sealing = (match p.sealing with | none => some k.reason | some r => some r) ∧
      (s.drained = true → q.stage = .sealField) ∧ (s.drained = false → q.stage = .ready) := by
  obtain ⟨q, r, reaches, sealing, ready, reason⟩ := markReached_page k current stage
  have goes : advancePages s = pagesGoOn (s.staging.entries.length + 8) (markReached k s) := by
    rw [advancePages_eq, dropHeads_of_still (dropStep_of_keeping keeping), checkMark_reached mark ahead reached]
  rw [goes, reaches]
  generalize marked : s.setPages { s.pages with mark := some { k with begun := true }, current := some q } = v
  have page : v.pages.current = some q := by rw [← marked]; rfl
  have issued : issueRecords (s.staging.entries.length + 8) v = v :=
    issueRecords_of_closed (dropStep_of_keeping (by rw [← marked]; exact keeping)) page (sealed_takes_none sealing)
  have sealed : ∀ t, sealProgress v = t → t.pages.current ≠ none → t.job = s.job → t.pages.wait = s.pages.wait →
      pagesGoOn (s.staging.entries.length + 8) v = t := by
    intro t progress here job wait
    unfold pagesGoOn
    rw [issued, progress, openPass_of_not_due (passDue_of_page here), ite_self, discardOnPageWait_of_not_aborted]
    rw [job, wait]
    exact noDiscard
  cases drained : s.drained
  case true =>
    have progress := sealProgress_of_due page sealing ready (by rw [← marked]; exact drained)
    rw [sealed _ progress (by rintro ⟨⟩) (by rw [← marked]; rfl) (by rw [← marked]; rfl)]
    exact ⟨{ q with stage := .sealField }, rfl, by rw [← marked]; rfl, reason, fun _ => rfl, by rintro ⟨⟩⟩
  case false =>
    have progress := sealProgress_of_waiting page (.inr (.inr (by rw [← marked]; exact drained)))
    rw [sealed _ progress (by rw [page]; simp) (by rw [← marked]; rfl) (by rw [← marked]; rfl)]
    exact ⟨q, page, by rw [← marked]; rfl, reason, by rintro ⟨⟩, fun _ => ready⟩

/-! ## A job told, and what the Page Manager does after it (R101) -/

/-- Handing a result back is not undone by what the Page Manager does then. -/
theorem HandsBack.manages {r : JobResult} (h : HandsBack r s) (m : PageManages s t) : HandsBack r t := by
  obtain ⟨idle, activity, result, writes⟩ := h
  have w : s.waitsOnPages = false := by unfold State.waitsOnPages; rw [idle]
  have reader : t.reader = s.reader := m.quiet w .reader rfl
  refine ⟨(m.quiet w .job rfl).trans idle, by rw [reader]; exact activity, by rw [reader]; exact result, fun x mem => ?_⟩
  rw [reader]
  exact (writes x mem).imp id (m.control w _)

theorem waitsOnPages_of_none (h : s.job = none) : s.waitsOnPages = false := by unfold State.waitsOnPages; rw [h]

theorem scanEnd_handsBack {j : ScanJob} (lost : s.reader.writeBackLost = false) :
    HandsBack (scanResult j s.azimuth s.photo.stations) (endScan j s) := ((endScan_ends j s).ends.result lost).1

theorem photoDetail_index {a : PhotoJob} (h : a.lateCause = false) (s : State) : photoDetail a s = a.index := by
  unfold photoDetail; rw [h]; rfl

/-- A job told that its seal is done hands its result back, with no mark and no drain point left. -/
theorem jobTold_scan {j : ScanJob} (run : s.job = some (.scan j)) (waits : j.endWait ≠ .none) : jobTold s = endScan j s := by
  unfold jobTold; rw [run]; exact if_neg waits

theorem jobTold_photo {a : PhotoJob} (run : s.job = some (.photo a)) (waits : a.sealWait = true) :
    jobTold s = handPhoto a s := by
  unfold jobTold; rw [run]; exact if_pos waits

theorem jobTold_sealWait {kind : JobKind} {r : JobResult} (run : s.job = some (.sealWait kind r)) :
    jobTold s = handResult r s := by unfold jobTold; rw [run]

theorem endScan_pages (j : ScanJob) (s : State) : (endScan j s).pages = s.pages :=
  (endScan_ends j s).others .pages rfl

theorem handResult_pages (r : JobResult) (s : State) : (handResult r s).pages = s.pages :=
  Acts.only (p := fun f => decide (f ≠ .pages)) (by apply_rules [handResult_acts, Acts.refl]) .pages rfl

/-- After the job has been told, what is left keeps its result, its station list, and leaves no mark. -/
theorem told_kept {r : JobResult} (told : HandsBack r s) (mark : s.pages.mark = none) (drain : s.pages.drain = none) :
    HandsBack r (pagesGoOn n s) ∧ (pagesGoOn n s).pages.mark = none ∧ (pagesGoOn n s).pages.drain = none ∧
      (pagesGoOn n s).photo = s.photo := by
  have w := waitsOnPages_of_none told.1
  have m := pagesGoOn_manages n s
  have marks := (marksAre_kept none none).goOn (n := n) w ⟨mark, drain⟩
  exact ⟨told.manages m, marks.1, marks.2, m.quiet w .photo rfl⟩

theorem advancePages_told (keeping : s.pages.discarding = none) (tells : checkMark s = jobTold (clearMark s)) :
    advancePages s = pagesGoOn (s.staging.entries.length + 8) (jobTold (clearMark s)) := by
  rw [advancePages_eq, dropHeads_of_still (dropStep_of_keeping keeping), tells]

/-- What the job that waits hands back once it is told (R87, R126, R143, R160, R179). -/
theorem told_handsBack (keeping : s.pages.discarding = none) (tells : checkMark s = jobTold (clearMark s))
    (lost : s.reader.writeBackLost = false) :
    (∀ kind r, s.job = some (.sealWait kind r) → HandsBack r (advancePages s) ∧ (advancePages s).pages.mark = none) ∧
    (∀ j, s.job = some (.scan j) → j.endWait ≠ .none →
      HandsBack (scanResult j s.azimuth s.photo.stations) (advancePages s) ∧ (advancePages s).pages.mark = none ∧
      (advancePages s).pages.drain = none) ∧
    (∀ a, s.job = some (.photo a) → a.sealWait = true →
      (∃ detail, (a.lateCause = false → detail = a.index) ∧
        HandsBack (photoResult a detail s.photo.stations) (advancePages s)) ∧
      (advancePages s).photo.stations = [] ∧ (advancePages s).pages.mark = none) := by
  rw [advancePages_told keeping tells]
  refine ⟨fun kind r run => ?_, fun j run waits => ?_, fun a run waits => ?_⟩
  · rw [jobTold_sealWait (s := clearMark s) run]
    have pages := handResult_pages r (clearMark s)
    obtain ⟨back, mark, -, -⟩ := told_kept (n := s.staging.entries.length + 8)
      (handResult_handsBack (r := r) (s := clearMark s) lost) (by rw [pages]; rfl) (by rw [pages]; rfl)
    exact ⟨back, mark⟩
  · rw [jobTold_scan (s := clearMark s) run waits]
    have pages := endScan_pages j (clearMark s)
    obtain ⟨back, mark, drain, -⟩ := told_kept (n := s.staging.entries.length + 8)
      (scanEnd_handsBack (j := j) (s := clearMark s) lost) (by rw [pages]; rfl) (by rw [pages]; rfl)
    exact ⟨back, mark, drain⟩
  · rw [jobTold_photo (s := clearMark s) run waits]
    obtain ⟨pages, -, photo, -⟩ := handPhoto_keeps a (clearMark s)
    have ends := (handPhoto_jobEnds (s := clearMark s) (v := clearMark s) a rfl rfl rfl).result lost
    obtain ⟨back, mark, -, kept⟩ := told_kept (n := s.staging.entries.length + 8) ends.1 (by rw [pages]; rfl) (by rw [pages]; rfl)
    exact ⟨⟨_, fun early => photoDetail_index early _, back⟩, by rw [kept, photo], mark⟩

/-- A record of the discarding line goes unwritten (R105). -/
theorem advancePages_drops {r : ShotRec} {d : Nat × Nat} (w : s.waitsOnPages = false) (only : s.staging.entries = [e])
    (unissued : e.issued = false) (shot : e.record = .shot r) (discarding : s.pages.discarding = some d)
    (line : d = (e.job, r.line)) (noPage : s.pages.current = none) (mark : s.pages.mark = none) (drain : s.pages.drain = none) :
    advancePages s = { s with
      staging := { s.staging with entries := [] }, loss := { s.loss with shots := satAdd 32 s.loss.shots 1 } } := by
  have first : s.firstUnissued = some e := by unfold State.firstUnissued; rw [only]; simp [unissued]
  have its : e.lineId = some d := by unfold Entry.lineId; rw [shot, line]; rfl
  have dropped : dropStep s = some { s with
      staging := { s.staging with entries := [] }, loss := { s.loss with shots := satAdd 32 s.loss.shots 1 } } := by
    unfold dropStep
    rw [first, discarding]
    dsimp only
    rw [if_pos its, countLost, shot, removeEntry, only]
    simp [State.setStaging, State.setLoss, Loss.addShot]
  rw [advancePages_eq, only]
  have heads : dropHeads [e].length s = { s with
      staging := { s.staging with entries := [] }, loss := { s.loss with shots := satAdd 32 s.loss.shots 1 } } := by
    rw [List.length_singleton, dropHeads, dropped]
    rfl
  rw [heads, checkMark_of_quiet]
  · exact pagesGoOn_idle w rfl noPage
  · exact markQuiet_of_none mark drain

/-- Settles O4. -/
theorem pageManagerActsLast : Obligations.PageManagerActsLast := by
  unfold Obligations.PageManagerActsLast
  refine ⟨fun u => ⟨?frame, fun w => ⟨(advancePages_manages u).quiet w, (advancePages_manages u).control w⟩, ?idle⟩, ?records,
    ?marks, ?drain, ?drops⟩
  case frame => exact Acts.only (by apply_rules [advancePages_acts, Acts.refl])
  case idle =>
    intro w empty noPage mark drain
    rw [advancePages_of_quiet (markQuiet_of_none mark drain) (dropStep_of_empty (firstUnissued_of_empty empty))]
    exact pagesGoOn_idle w empty noPage
  case records =>
    intro u e w quiet first keeps
    refine ⟨fun p current stage sealing => ?_, fun noPage noPass noWait =>
      advancePages_opens w quiet first keeps noPage noPass noWait⟩
    have takes := ready_takes stage sealing
    refine ⟨fun need room few => ?_, fun job h line need room few =>
      advancePages_continues w quiet first keeps current takes line need room few, fun job h line => ?_, fun none => ?_,
      advancePages_full w quiet first keeps current stage takes⟩
    · obtain ⟨asked, issued, last⟩ := advancePages_issues w quiet first keeps current takes need room few
      exact ⟨asked, issued, fun only _ => last only⟩
    · rw [line]
      exact needsContinuation_iff job h p e
    · rw [none]
      rfl
  case marks =>
    intro u k mark ahead reached keeping
    refine ⟨fun p current stage _ noDiscard =>
      advancePages_seals_at_mark mark ahead reached keeping current stage noDiscard, fun kind r none run lost => ?_,
      fun j none run waits lost => ?_, fun a none run waits lost => ?_⟩
    all_goals
      have tells := (checkMark_reached mark ahead reached).trans (markReached_of_no_page k none)
      obtain ⟨short, scan, photo⟩ := told_handsBack keeping tells lost
    · exact short kind r run
    · exact ⟨(scan j run waits).1, (scan j run waits).2.1⟩
    · exact photo a run waits
  case drain =>
    intro u d j mark drain reached keeping run waits lost
    obtain ⟨-, scan, -⟩ := told_handsBack keeping (checkMark_drained mark drain reached) lost
    exact ⟨(scan j run waits).1, (scan j run waits).2.2⟩
  case drops => exact fun u e r d => advancePages_drops

end Sys2Proof.Machine


/-! PROOFS. ABORT, and the failures that stop a scan in SCANNING (R4, R20, R22, R120, R123, R181). -/

namespace Sys2Proof.Machine

variable {s t u : State} {j : ScanJob}

/-! ## ABORT at a job that is no scan in SCANNING (R181) -/

theorem controlAbort_running {job : Job} (run : s.job = some job) : controlAbort s = advancePages (abortJob job s) := by
  unfold controlAbort
  rw [run]

/-- Settles O20: what `abortJob` does was said once in Laws/Abort. -/
theorem abortEndsWaitingJob : Obligations.AbortEndsWaitingJob := by
  unfold Obligations.AbortEndsWaitingJob
  rintro m s _ job rfl run other
  exact ⟨_, next_congr (controlAbort_running (s := observe m s) run), abortJob_aborted job _ other⟩

/-! ## The permit gone -/

theorem permitHolds_of_unlocked (h : s.mirror.state ≠ .locked) : s.permitHolds = false :=
  Bool.eq_false_iff.2 fun holds => h ((permitHolds_iff s).1 holds).1

theorem permitHolds_of_deasserted (h : s.emission.asserted = false) : s.permitHolds = false :=
  Bool.eq_false_iff.2 fun holds => by
    obtain ⟨-, asserted, -⟩ := (permitHolds_iff s).1 holds
    rw [h] at asserted
    cases asserted

theorem recomputePermit_mirror (s : State) : (recomputePermit s).mirror = s.mirror :=
  (recomputePermit_acts (p := fun f => decide (f ≠ .mirror)) (.refl _ s) rfl rfl rfl rfl rfl rfl rfl rfl rfl rfl rfl
    rfl).only .mirror rfl

/-! ## A scan past RUN-IN (R122) -/

/-- A scan that runs is in SCANNING or has left it for ENDING. -/
def PastRunIn (s : State) : Prop := ∀ x, s.job = some (.scan x) → x.phase = .scanning ∨ x.phase = .ending

theorem pastRunIn_of_scanning (run : s.job = some (.scan j)) (scanning : j.phase = .scanning) : PastRunIn s := by
  intro x e
  rw [run] at e
  cases e
  exact .inl scanning

theorem PastRunIn.congr (h : PastRunIn s) (job : t.job = s.job) : PastRunIn t := by
  unfold PastRunIn
  rw [job]
  exact h

theorem ScanGoesOn.pastRunIn {v : State} (h : ScanGoesOn j v u) (run : v.job = some (.scan j)) (scanning : j.phase = .scanning) :
    PastRunIn u := by
  by_cases more : j.linesCompleted < j.params.lines ∧ j.cause = none
  · rw [h.1 more.1 more.2]
    exact pastRunIn_of_scanning run scanning
  · refine fun x e => .inr ((h.2 ?_).phase x e)
    by_cases c : j.cause = none
    · exact .inl (Nat.le_of_not_lt fun l => more ⟨l, c⟩)
    · exact .inr c

theorem closeCheck_pastRunIn (run : s.job = some (.scan j)) (scanning : j.phase = .scanning) : PastRunIn (closeCheck s) := by
  rcases closeCheck_cases s with same | ⟨-, n, r, closes⟩
  · rw [same]
    exact pastRunIn_of_scanning run scanning
  · rw [closes]
    obtain ⟨v, closed, goesOn⟩ := closeLine_closes n r run scanning
    exact goesOn.pastRunIn closed.job scanning

theorem recomputePermit_pastRunIn (run : s.job = some (.scan j)) (scanning : j.phase = .scanning)
    (no : s.permitHolds = false) : PastRunIn (recomputePermit s) := by
  rw [recomputePermit_falls no]
  split
  · unfold endFiring
    split
    · exact closeCheck_pastRunIn run scanning
    · exact pastRunIn_of_scanning run scanning
  · exact pastRunIn_of_scanning run scanning

theorem scanFail_of_no_scan (c : ResultCode) (r : StopReason) (h : s.scanJob = none) : scanFail c r s = s := by
  unfold scanFail
  rw [h]

/-- A mirror that has become UNLOCKED is a failure with a stop reason for a scan past RUN-IN, and nothing for no scan. -/
theorem jobMirror_unlocked (mirror : s.mirror.state = .unlocked) (past : PastRunIn s) :
    jobMirror s = scanFail .mirrorLost .mirror s := by
  unfold jobMirror
  rw [mirror]
  cases run : s.job with
  | none => exact (scanFail_of_no_scan _ _ (by unfold State.scanJob; rw [run])).symm
  | some x =>
    cases x with
    | scan k =>
      dsimp only
      rw [if_neg]
      rintro ⟨early, -⟩
      rcases past k run with e | e <;> simp [e] at early
    | _ => exact (scanFail_of_no_scan _ _ (by unfold State.scanJob; rw [run])).symm

theorem mirrorChanged_unlocked (mirror : s.mirror.state = .unlocked) (run : s.job = some (.scan j))
    (scanning : j.phase = .scanning) : mirrorChanged s = scanFail .mirrorLost .mirror (recomputePermit s) :=
  jobMirror_unlocked (by rw [recomputePermit_mirror]; exact mirror)
    (recomputePermit_pastRunIn run scanning (permitHolds_of_unlocked (by rw [mirror]; decide)))

theorem scanFail_noIndex (c : ResultCode) (r : StopReason) (past : PastRunIn s) : NoIndex (scanFail c r s) := by
  unfold scanFail
  cases e : s.scanJob with
  | none => exact fun k run => by rw [State.scanJob, run] at e; cases e
  | some k =>
    have run := job_of_scanJob e
    dsimp only
    rcases past k run with phase | phase
    · rw [phase]
      exact failScanning_noIndex c r phase s
    · rw [phase]
      have ending : k.NoIndex := ⟨by rw [phase]; decide, fun q => by rw [phase] at q; cases q⟩
      dsimp only
      split
      · exact .put ⟨by simp, by simp⟩ s
      · exact fun x same => by rw [run] at same; cases same; exact ending

/-! ## Loss of lock in SCANNING (R4, R120) -/

theorem watchdogDue_iff {now : Nat} {x : Mirror} : watchdogDue now x = true ↔
    x.state = .locked ∧ ∃ f, x.watchdogFrom = some f ∧ 2 * rateUnit ≤ (now - f) * x.target := by
  unfold watchdogDue
  split
  next f locked watch => simp [locked, watch]
  next other =>
    refine ⟨fun e => (by cases e), fun ⟨locked, f, watch, _⟩ => (other f locked watch).elim⟩

theorem watchdogOver_due (h : watchdogDue s.now s.mirror = true) :
    watchdogOver s = advancePages (mirrorChanged (s.setMirror (s.mirror.unlock s.now))) := if_pos h

theorem markMirror_of_loss {now f : Nat} {x : Mirror} (locked : x.state = .locked) (last : x.lastIndex = some f)
    (lost : outsideLossBand x.target (now - f) = true) :
    markMirror now x = Mirror.unlock { x with
      lastIndex := some now, rateWatchEnd := now + fineSec, rate := measuredRate (now - f) } now := by
  unfold markMirror
  rw [last]
  dsimp only
  unfold evaluateRevolution
  rw [locked]
  exact if_pos lost

/-- An index at which the mirror changes its state: the change is told, then the index is taken (R1). -/
theorem indexMark_changed (h : (markMirror s.now s.mirror).state ≠ s.mirror.state) :
    indexMark s = advancePages (indexAtPages (indexAtScan (mirrorChanged ((s.setAngle 0).setMirror (markMirror s.now s.mirror))))) := by
  unfold indexMark
  dsimp only
  rw [if_neg]
  exact h

theorem watchdog_stops {f : Nat} (run : s.job = some (.scan j)) (scanning : j.phase = .scanning) (locked : s.mirror.state = .locked)
    (watch : s.mirror.watchdogFrom = some f) (due : 2 * rateUnit ≤ (s.now - f) * s.mirror.target) :
    ∃ u, watchdogOver s = advancePages u ∧
      ScanStops .mirrorLost .mirror (if s.sched.permit = true ∧ s.sched.firing = .firing then .permit else .stop) j
        (s.setMirror (s.mirror.unlock s.now)) u := by
  refine ⟨_, (watchdogOver_due (watchdogDue_iff.2 ⟨locked, f, watch, due⟩)), ?_⟩
  rw [mirrorChanged_unlocked (s := s.setMirror (s.mirror.unlock s.now)) rfl run scanning]
  exact scanFail_stops (v := s.setMirror (s.mirror.unlock s.now)) _ _ run scanning
    (permitHolds_of_unlocked (show MirrorState.unlocked ≠ .locked by decide))

theorem index_stops {f : Nat} (run : s.job = some (.scan j)) (scanning : j.phase = .scanning) (locked : s.mirror.state = .locked)
    (last : s.mirror.lastIndex = some f) (lost : outsideLossBand s.mirror.target (s.now - f) = true) :
    ∃ u, indexMark s = advancePages (if u.scanJob.isSome = true then wakePages u else u) ∧
      ScanStops .mirrorLost .mirror (if s.sched.permit = true ∧ s.sched.firing = .firing then .permit else .stop) j
        ((s.setAngle 0).setMirror (markMirror s.now s.mirror)) u := by
  have unlocked : (markMirror s.now s.mirror).state = .unlocked := by
    rw [markMirror_of_loss locked last lost]
    rfl
  have no : ((s.setAngle 0).setMirror (markMirror s.now s.mirror)).permitHolds = false :=
    permitHolds_of_unlocked (by exact fun e => by cases unlocked.symm.trans e)
  refine ⟨_, ?_, scanFail_stops (v := (s.setAngle 0).setMirror (markMirror s.now s.mirror)) _ _ run scanning no⟩
  rw [indexMark_changed (by rw [unlocked, locked]; decide),
    mirrorChanged_unlocked (s := (s.setAngle 0).setMirror (markMirror s.now s.mirror)) unlocked run scanning,
    (scanFail_noIndex .mirrorLost .mirror
      (recomputePermit_pastRunIn (s := (s.setAngle 0).setMirror (markMirror s.now s.mirror)) run scanning no)).indexAtScan]
  rfl

/-! ## ABORT and the Emission Permit in SCANNING (R20, R120, R123) -/

theorem controlAbort_scanning (run : s.job = some (.scan j)) (scanning : j.phase = .scanning) :
    controlAbort s = advancePages (failScanning .aborted .abort { j with abortTaken := true }
      (if s.inlinePhoto then abortPhotograph s else s)) := by
  rw [controlAbort_running run]
  simp only [abortJob, abortScan, abortScanning, scanning]

theorem permitDeasserted_falls (h : s.emission.asserted = true) :
    permitDeasserted s = advancePages (permitFalls (s.setEmission ⟨false, false, none⟩)) := if_pos h

/-- Settles O21: each cause reaches the scan as `scanFail`, after the permit has fallen where the permit depends on it. -/
theorem failureStopsScanLine : Obligations.FailureStopsScanLine := by
  unfold Obligations.FailureStopsScanLine
  rintro m s _ j _ rfl run scanning rfl
  refine ⟨⟨_, _, next_congr (controlAbort_scanning (s := observe m s) run scanning), abortPhotograph_inline _,
      failScanning_stops (j := { j with abortTaken := true }) _ _ scanning _⟩, fun asserted => ?_,
    fun f locked watch due => ?_, fun f locked last lost => ?_⟩
  · exact ⟨_, next_congr (permitDeasserted_falls (s := observe m s) asserted),
      scanFail_stops _ _ (v := (observe m s).setEmission ⟨false, false, none⟩) run scanning (permitHolds_of_deasserted rfl)⟩
  · obtain ⟨u, eq, stops⟩ := watchdog_stops (s := observe m s) run scanning locked watch due
    exact ⟨u, next_congr eq, stops⟩
  · obtain ⟨u, eq, stops⟩ := index_stops (s := observe m s) run scanning locked last lost
    exact ⟨u, next_congr eq, stops⟩

end Sys2Proof.Machine


/-! PROOFS. The mirror at an index mark and at its timers (R1 to R7): the mark, the lock count and loss of lock, and what a
failure before SCANNING leaves. -/

namespace Sys2Proof.Machine

variable {s t u : State} {j : ScanJob} {x : Mirror} {now f : Nat}

/-! ## Rounding -/

theorem roundDiv_near (a : Nat) {b : Nat} (tieUp : Bool) (pos : 0 < b) :
    2 * (roundDiv a b tieUp * b) ≤ 2 * a + b ∧ 2 * a ≤ 2 * (roundDiv a b tieUp * b) + b := by
  have split := Nat.div_add_mod a b
  have small := Nat.mod_lt a pos
  have up : (a / b + 1) * b = b * (a / b) + b := by rw [Nat.succ_mul, Nat.mul_comm]
  have down : a / b * b = b * (a / b) := Nat.mul_comm ..
  unfold roundDiv
  split
  · rw [down]
    omega
  · split
    · split
      · rw [up]
        omega
      · rw [down]
        omega
    · rw [up]
      omega

/-! ## The mark of an index (R1, R2) -/

theorem markMirror_first (first : x.lastIndex = none) :
    markMirror now x = { x with lastIndex := some now, rateWatchEnd := now + fineSec } := by
  unfold markMirror
  rw [first]

theorem markMirror_next (last : x.lastIndex = some f) :
    markMirror now x = evaluateRevolution (now - f) now { x with
      lastIndex := some now, rateWatchEnd := now + fineSec, rate := measuredRate (now - f) } := by
  unfold markMirror
  rw [last]

/-- What the evaluation of a revolution leaves of the mirror. -/
theorem evaluateRevolution_keeps (interval now : Nat) (x : Mirror) :
    (evaluateRevolution interval now x).lastIndex = x.lastIndex ∧
    (evaluateRevolution interval now x).rateWatchEnd = x.rateWatchEnd ∧
    (evaluateRevolution interval now x).target = x.target ∧ (evaluateRevolution interval now x).rate = x.rate := by
  unfold evaluateRevolution countLock watchLoss Mirror.unlock
  (repeat' split) <;> exact ⟨rfl, rfl, rfl, rfl⟩

theorem evaluateRevolution_of_undriven (interval now : Nat)
    (h : x.state = .parked ∨ x.state = .spinningDown ∨ x.state = .fault) : evaluateRevolution interval now x = x := by
  unfold evaluateRevolution
  rcases h with h | h | h <;> rw [h]

theorem evaluateRevolution_of_seeking (interval now : Nat) (h : x.state = .spinningUp ∨ x.state = .unlocked) :
    evaluateRevolution interval now x = countLock interval now x := by
  unfold evaluateRevolution
  rcases h with h | h <;> rw [h]

theorem markMirror_keeps (now : Nat) (x : Mirror) :
    (markMirror now x).lastIndex = some now ∧ (markMirror now x).rateWatchEnd = now + fineSec ∧
    (markMirror now x).target = x.target := by
  cases last : x.lastIndex with
  | none =>
    rw [markMirror_first last]
    exact ⟨rfl, rfl, rfl⟩
  | some f =>
    rw [markMirror_next last]
    obtain ⟨index, watch, target, -⟩ := evaluateRevolution_keeps (now - f) now { x with
      lastIndex := some now, rateWatchEnd := now + fineSec, rate := measuredRate (now - f) }
    exact ⟨index, watch, target⟩

theorem markMirror_rate (last : x.lastIndex = some f) : (markMirror now x).rate = measuredRate (now - f) := by
  rw [markMirror_next last]
  exact (evaluateRevolution_keeps ..).2.2.2

theorem markMirror_of_undriven (h : x.state = .parked ∨ x.state = .spinningDown ∨ x.state = .fault) :
    (markMirror now x).state = x.state ∧ (markMirror now x).lockCount = x.lockCount ∧
    (markMirror now x).spinUpEnd = x.spinUpEnd ∧ (markMirror now x).watchdogFrom = x.watchdogFrom := by
  cases last : x.lastIndex with
  | none =>
    rw [markMirror_first last]
    exact ⟨rfl, rfl, rfl, rfl⟩
  | some f =>
    have same := evaluateRevolution_of_undriven (now - f) now (x := { x with
      lastIndex := some now, rateWatchEnd := now + fineSec, rate := measuredRate (now - f) }) h
    rw [markMirror_next last, same]
    exact ⟨rfl, rfl, rfl, rfl⟩

theorem measuredRate_near {interval : Nat} (pos : 0 < interval) : ∃ r, 2 * (r * interval) ≤ 2 * rateUnit + interval ∧
    2 * rateUnit ≤ 2 * (r * interval) + interval ∧ measuredRate interval = min 65535 r := by
  obtain ⟨above, below⟩ := roundDiv_near rateUnit (Config.rateTieUp interval) pos
  exact ⟨_, above, below, if_neg (Nat.ne_of_gt pos)⟩

/-! ## The index mark as an event (R1) -/

/-- Sweep Control has taken an index. -/
def indexSeen (s : State) : State := (s.setAngle 0).setMirror (markMirror s.now s.mirror)

/-- A change of the mirror's state by an index has been told. -/
def indexTold (s : State) : State :=
  if (indexSeen s).mirror.state = s.mirror.state then indexSeen s else mirrorChanged (indexSeen s)

theorem indexMark_eq (s : State) : indexMark s = advancePages (indexAtPages (indexAtScan (indexTold s))) := rfl

theorem indexTold_same (h : (markMirror s.now s.mirror).state = s.mirror.state) : indexTold s = indexSeen s := if_pos h

theorem indexTold_changed (h : (markMirror s.now s.mirror).state ≠ s.mirror.state) :
    indexTold s = mirrorChanged (indexSeen s) := if_neg h

/-- What an operation leaves that may touch any field but the mirror. -/
abbrev besideMirror (f : Field) : Bool := decide (f ≠ .mirror)

theorem mirrorChanged_mirror (s : State) : (mirrorChanged s).mirror = s.mirror :=
  Acts.only (p := besideMirror) (by apply_rules [mirrorChanged_acts, Acts.refl]) .mirror rfl

theorem indexTold_mirror (s : State) : (indexTold s).mirror = markMirror s.now s.mirror := by
  unfold indexTold
  split
  · rfl
  · exact mirrorChanged_mirror _

theorem indexAtScan_mirror (s : State) : (indexAtScan s).mirror = s.mirror :=
  Acts.only (p := besideMirror) (by apply_rules [indexAtScan_acts, Acts.refl]) .mirror rfl

/-- An index mark moves the mirror by its mark alone: what follows of it leaves the mirror. -/
theorem indexMark_mirror (s : State) : (indexMark s).mirror = markMirror s.now s.mirror := by
  have rest : Acts besideMirror (indexAtScan (indexTold s)) (indexMark s) := by
    rw [indexMark_eq]
    apply_rules [advancePages_acts, indexAtPages_acts, Acts.refl]
  rw [rest.only .mirror rfl, indexAtScan_mirror, indexTold_mirror]

theorem indexAtScan_of_no_scan (h : s.scanJob = none) : indexAtScan s = s := by
  unfold indexAtScan
  rw [h]

theorem indexAtPages_of_no_scan (h : s.scanJob = none) : indexAtPages s = s := by
  unfold indexAtPages
  rw [h]
  rfl

/-- Outside a scan an index that changes no state of the mirror is taken by Sweep Control alone. -/
theorem indexMark_outside (h : s.scanJob = none) (same : (markMirror s.now s.mirror).state = s.mirror.state) :
    indexMark s = advancePages (indexSeen s) := by
  have outside : (indexSeen s).scanJob = none := h
  rw [indexMark_eq, indexTold_same same, indexAtScan_of_no_scan outside, indexAtPages_of_no_scan outside]

/-- Settles O22. -/
theorem indexMarkMeasuresRate : Obligations.IndexMarkMeasuresRate := by
  unfold Obligations.IndexMarkMeasuresRate
  rintro m s _ rfl
  obtain ⟨index, watch, target⟩ := markMirror_keeps (observe m s).now s.mirror
  have mirror : (indexMark (observe m s)).mirror = markMirror (observe m s).now s.mirror := indexMark_mirror _
  refine ⟨_, rfl, indexMark_angle _, ?_⟩
  rw [mirror]
  refine ⟨index, watch, target, fun first => ?_, fun f last before => ?_, markMirror_of_undriven, fun outside same => ?_⟩
  · rw [markMirror_first first]
    exact ⟨rfl, rfl, rfl⟩
  · obtain ⟨r, above, below, rate⟩ := measuredRate_near (Nat.sub_pos_of_lt before)
    exact ⟨r, above, below, (markMirror_rate last).trans rate⟩
  · rw [indexMark_outside (s := observe m s) outside same]
    exact Acts.only (by apply_rules [advancePages_acts, setMirror_acts, setAngle_acts, Acts.refl])

end Sys2Proof.Machine


/-! PROOFS. Loss of lock and the mirror's timers (R2, R4 to R7, R10, R116). -/

namespace Sys2Proof.Machine

variable {s t u v b : State} {j : ScanJob} {x : Mirror} {now f : Nat} {c : ResultCode}

/-! ## A scan that fails before SCANNING (R116) -/

theorem failPre_of_seals (c : ResultCode) (j : ScanJob) (seals : s.seals = true) :
    failPre c j s = placeMark .abort (putScan { j with cause := some c, endWait := .mark } (decelerate s)) := if_pos seals

theorem failPre_of_open (c : ResultCode) (j : ScanJob) (plain : s.seals = false) :
    failPre c j s = endScan { j with cause := some c } (decelerate s) := if_neg (by rw [plain]; decide)

theorem failPre_ends (c : ResultCode) (j : ScanJob) (plain : s.seals = false) :
    ScanEnds { j with cause := some c } s (failPre c j s) := by
  rw [failPre_of_open c j plain]
  exact failPre_decelerates_twice _ s (endScan_ends ..)

theorem failPre_failedEarly (c : ResultCode) (j : ScanJob) (s : State) : ScanFailedEarly c j s (failPre c j s) where
  turntable := by
    cases seals : s.seals with
    | true =>
      rw [failPre_of_seals c j seals]
      rfl
    | false => exact (failPre_ends c j seals).turntable
  seals seals := by
    rw [failPre_of_seals c j seals]
    refine ⟨rfl, ?_⟩
    show some (EndMark.mk (decelerate s).staging.nextSeq _ _) = _
    rw [(decelerate_onlyIn s) .staging rfl]
  ends plain lost := ((failPre_ends c j plain).ends.result lost).1

/-- What a failing scan is told of does not matter to its end, unless it is read there. -/
theorem ScanFailedEarly.congr (h : ScanFailedEarly c j v u) (only : OnlyIn (fields [.angle, .mirror, .notices]) b v) :
    ScanFailedEarly c j b u := by
  have reader : v.reader = b.reader := only .reader rfl
  have seals : v.seals = b.seals := by unfold State.seals; rw [reader]
  have staging : v.staging = b.staging := only .staging rfl
  have azimuth : v.azimuth = b.azimuth := only .azimuth rfl
  have photo : v.photo = b.photo := only .photo rfl
  have turntable := decelerate_turntable (only .turntable rfl : v.turntable = b.turntable)
  refine ⟨h.turntable.trans turntable, fun e => ?_, fun e lost => ?_⟩
  · rw [← staging]
    exact h.seals (seals.trans e)
  · rw [← azimuth, ← photo]
    exact h.ends (seals.trans e) (by rw [reader]; exact lost)

/-! ## The permit while no line can fire (R22) -/

theorem recomputePermit_of_off (no : s.permitHolds = false) (off : s.sched.permit = false) : recomputePermit s = s := by
  rw [recomputePermit_falls no, if_neg (by rw [off]; simp), setPermit_same off]

theorem permitHolds_of_not_scanning (dark : s.scanning = false) : s.permitHolds = false :=
  Bool.eq_false_iff.2 fun holds => by
    obtain ⟨-, -, scanning, -⟩ := (permitHolds_iff s).1 holds
    rw [dark] at scanning
    cases scanning

theorem PermitSound.off_of_unlocked (h : PermitSound s) (mirror : s.mirror.state ≠ .locked) : s.sched.permit = false :=
  Bool.eq_false_iff.2 fun on => mirror ((permitHolds_iff s).1 (h.exact.1 on).1).1

/-- With no scan in SCANNING a change of the mirror's state does not move the permit. -/
theorem PermitSound.mirrorChanged_dark (h : PermitSound b) (dark : b.scanning = false) (sched : v.sched = b.sched)
    (job : v.job = b.job) : mirrorChanged v = jobMirror v := by
  have still : v.scanning = false := (scanning_congr (scanValues_congr job)).trans dark
  unfold mirrorChanged
  rw [recomputePermit_of_off (permitHolds_of_not_scanning still) (by rw [sched]; exact h.off dark)]

theorem not_scanning_of_phase (run : s.job = some (.scan j)) (phase : j.phase ≠ .scanning) : s.scanning = false := by
  rw [scanning_of_job run]
  exact decide_eq_false phase

/-! ## The running job told of the mirror (R7) -/

theorem jobMirror_fails_mirrorLost (mirror : s.mirror.state = .unlocked) (run : s.job = some (.scan j))
    (phase : j.phase = .position ∨ j.phase = .runIn) (waits : j.endWait = .none) :
    jobMirror s = failPre .mirrorLost j s := by
  unfold jobMirror
  rw [mirror, run]
  exact if_pos ⟨phase, waits⟩

theorem jobMirror_fails_spin (mirror : s.mirror.state = .fault) (run : s.job = some (.scan j)) (phase : j.phase = .hold)
    (waits : j.endWait = .none) : jobMirror s = failPre .spinFail j s := by
  unfold jobMirror
  rw [mirror, run]
  exact if_pos ⟨phase, waits⟩

theorem jobMirror_spin_fails (mirror : s.mirror.state = .fault) (run : s.job = some .spinWait) :
    jobMirror s = finishJob .spin (plainResult .spinFail s.mirror.rate) s := by
  unfold jobMirror
  rw [mirror, run]

/-- A scan that has failed before SCANNING takes no index (R114). -/
theorem indexAtScan_failPre (phase : j.phase ≠ .scanning) : indexAtScan (failPre c j s) = failPre c j s := by
  cases seals : s.seals with
  | false => exact indexAtScan_of_no_scan (scanJob_of_none (failPre_ends c j seals).jobGone)
  | true =>
    rw [failPre_of_seals c j seals]
    unfold indexAtScan
    rw [show State.scanJob (placeMark _ (putScan { j with cause := some c, endWait := .mark } _)) = some _ from rfl]
    dsimp only
    rw [if_neg (by rw [lineMayOpen_iff]; exact fun open_ => phase open_.1), if_neg (by rintro ⟨-, e⟩; cases e)]
where
  scanJob_of_none {s : State} (gone : s.job = none) : s.scanJob = none := by
    unfold State.scanJob
    rw [gone]

theorem scanJob_failPre (c : ResultCode) (j : ScanJob) (s : State) : (failPre c j s).scanJob.isSome = s.seals := by
  cases seals : s.seals with
  | true =>
    rw [failPre_of_seals c j seals]
    rfl
  | false =>
    unfold State.scanJob
    rw [(failPre_ends c j seals).jobGone]
    rfl

/-! ## Loss of lock (R4, R7) -/

theorem markMirror_locked (locked : x.state = .locked) (last : x.lastIndex = some f)
    (near : outsideLossBand x.target (now - f) = false) :
    markMirror now x = { x with
      lastIndex := some now, rateWatchEnd := now + fineSec, rate := measuredRate (now - f), watchdogFrom := some now } := by
  rw [markMirror_next last]
  unfold evaluateRevolution
  rw [locked]
  exact if_neg (by rw [near]; decide)

theorem outsideLossBand_iff (target interval : Nat) : outsideLossBand target interval = true ↔
    target * interval < 50 * ((6400000000000 : Int) - (target * interval : Nat)).natAbs := decide_eq_true_iff

/-- A scan in POSITION or RUN-IN fails at the index that loses the lock, and takes that index no more (R1, R116). -/
theorem index_fails_early (sound : PermitSound s) (locked : s.mirror.state = .locked) (last : s.mirror.lastIndex = some f)
    (lost : outsideLossBand s.mirror.target (s.now - f) = true) (run : s.job = some (.scan j))
    (phase : j.phase = .position ∨ j.phase = .runIn) (waits : j.endWait = .none) :
    ∃ u, indexMark s = advancePages (if s.seals then wakePages u else u) ∧ ScanFailedEarly .mirrorLost j s u := by
  have early : j.phase ≠ .scanning := by rcases phase with e | e <;> rw [e] <;> decide
  have unlocked : (markMirror s.now s.mirror).state = .unlocked := by
    rw [markMirror_of_loss locked last lost]
    rfl
  have told : indexTold s = failPre .mirrorLost j (indexSeen s) := by
    rw [indexTold_changed (by rw [unlocked, locked]; decide),
      sound.mirrorChanged_dark (v := indexSeen s) (not_scanning_of_phase run early) rfl rfl,
      jobMirror_fails_mirrorLost (s := indexSeen s) unlocked run phase waits]
  refine ⟨failPre .mirrorLost j (indexSeen s), ?_, (failPre_failedEarly ..).congr (fun f hf => ?_)⟩
  · rw [indexMark_eq, told, indexAtScan_failPre early]
    unfold indexAtPages
    rw [scanJob_failPre]
    rfl
  · cases f <;> first | rfl | cases hf

/-- The index watchdog of a LOCKED mirror: the mirror is UNLOCKED, the permit has fallen, and a scan in POSITION or RUN-IN
fails. -/
theorem watchdog_unlocks (sound : PermitSound s) (locked : s.mirror.state = .locked) (watch : s.mirror.watchdogFrom = some f)
    (due : 2 * rateUnit ≤ (s.now - f) * s.mirror.target) :
    ∃ u, watchdogOver s = advancePages u ∧ u.mirror = s.mirror.unlock s.now ∧ u.sched.permit = false ∧
      ∀ j, s.job = some (.scan j) → j.phase = .position ∨ j.phase = .runIn → j.endWait = .none →
        ScanFailedEarly .mirrorLost j s u := by
  have mirror := mirrorChanged_mirror (s.setMirror (s.mirror.unlock s.now))
  have kept : PermitSound (mirrorChanged (s.setMirror (s.mirror.unlock s.now))) :=
    mirrorChanged_sound (sound.ready rfl rfl rfl rfl)
  refine ⟨_, watchdogOver_due (watchdogDue_iff.2 ⟨locked, f, watch, due⟩), mirror,
    kept.off_of_unlocked (by rw [mirror]; exact (nofun : MirrorState.unlocked ≠ .locked)), fun j run phase waits => ?_⟩
  have early : j.phase ≠ .scanning := by rcases phase with e | e <;> rw [e] <;> decide
  rw [sound.mirrorChanged_dark (v := s.setMirror (s.mirror.unlock s.now)) (not_scanning_of_phase run early) rfl rfl,
    jobMirror_fails_mirrorLost (s := s.setMirror (s.mirror.unlock s.now)) rfl run phase waits]
  exact (failPre_failedEarly ..).congr fun f hf => by cases f <;> first | rfl | cases hf

theorem watchdogOver_early (watch : s.mirror.watchdogFrom = some f) (early : (s.now - f) * s.mirror.target < 2 * rateUnit) :
    watchdogOver s = s := by
  refine if_neg fun due => ?_
  obtain ⟨-, g, same, late⟩ := watchdogDue_iff.1 due
  rw [watch] at same
  cases same
  omega

/-- Settles O24: by the index that ends a revolution outside the loss band, or by the watchdog. -/
theorem lossOfLock : Obligations.LossOfLock := by
  unfold Obligations.LossOfLock
  rintro m s _ f rfl sound locked
  have kept : PermitSound (observe m s) := permitSound_steps.observe m s sound
  refine ⟨fun last => ⟨_, rfl, fun lost => ?_, fun near => ?_, outsideLossBand_iff .., fun j lost run phase waits => ?_⟩,
    fun watch due => ?_, fun watch early => next_congr (watchdogOver_early (s := observe m s) watch early)⟩
  · have mirror : (indexMark (observe m s)).mirror = _ :=
      (indexMark_mirror _).trans (markMirror_of_loss (x := (observe m s).mirror) locked last lost)
    have unlocked : (indexMark (observe m s)).mirror.state = .unlocked := by rw [mirror]; rfl
    refine ⟨unlocked, ?_, ?_, ?_, (indexMark_sound kept).off_of_unlocked (by rw [unlocked]; decide)⟩ <;> rw [mirror] <;> rfl
  · have mirror : (indexMark (observe m s)).mirror = _ :=
      (indexMark_mirror _).trans (markMirror_locked (x := (observe m s).mirror) locked last near)
    rw [mirror]
    exact ⟨locked, rfl, rfl⟩
  · obtain ⟨u, eq, fails⟩ := index_fails_early (s := observe m s) kept locked last lost run phase waits
    exact ⟨u, eq, fails⟩
  · obtain ⟨u, eq, mirror, off, fails⟩ := watchdog_unlocks (s := observe m s) kept locked watch due
    exact ⟨u, next_congr eq, mirror, off, fails⟩

/-! ## The rate watch and the spin-up limit (R2, R5 to R7, R10) -/

theorem rateWatchMirror_eq (now : Nat) (x : Mirror) : rateWatchMirror now x = { x with
    lastIndex := none, rate := 0, rateWatchEnd := now + fineSec,
    state := (if x.state = .spinningDown then .parked else x.state),
    target := (if x.state = .spinningDown then 0 else x.target) } := by
  unfold rateWatchMirror
  by_cases down : x.state = .spinningDown
  · simp only [if_pos down]
  · simp only [if_neg down]

theorem rateWatchOver_due (due : s.mirror.rateWatchEnd ≤ s.now) :
    rateWatchOver s = s.setMirror (rateWatchMirror s.now s.mirror) := if_pos due

theorem rateWatchOver_early (early : s.now < s.mirror.rateWatchEnd) : rateWatchOver s = s := if_neg (by omega)

theorem ended_of_le {e now : Nat} (due : e ≤ now) : ended (some e) now = true := decide_eq_true due

theorem spinUpLimitOver_due {e : Nat} (seeks : s.mirror.state = .spinningUp ∨ s.mirror.state = .unlocked)
    (limit : s.mirror.spinUpEnd = some e) (due : e ≤ s.now) :
    spinUpLimitOver s = advancePages (mirrorChanged (raise .fault (s.setMirror { s.mirror with
      state := .fault, lockCount := 0, spinUpEnd := none }))) :=
  if_pos ⟨seeks, by rw [limit]; exact ended_of_le due⟩

theorem and_eq_of_or_and_eq {a b c : BitVec 8} (h : (a ||| b) &&& c = a ||| b) : c &&& b = b := by
  have absorbs : (a ||| b) &&& b = b := by
    ext i
    simp only [BitVec.getElem_and, BitVec.getElem_or]
    cases a[i] <;> cases b[i] <;> rfl
  calc c &&& b = c &&& ((a ||| b) &&& b) := by rw [absorbs]
    _ = ((a ||| b) &&& c) &&& b := by rw [← BitVec.and_assoc, BitVec.and_comm c]
    _ = b := by rw [h, absorbs]

/-- A cause raised stays pending through whatever follows it. -/
theorem Acts.stays_pending {p : Field → Bool} {c : Cause} (h : Acts p (raise c s) t) :
    t.notices.pending &&& c.bit = c.bit := by
  have causes := h.causes
  rw [raise_pending] at causes
  exact and_eq_of_or_and_eq causes

/-- The mirror in FAULT has been told: no scan in SCANNING and no line's firing is touched, nor, with no write-back lost,
a notice (R5, R7, R10). -/
theorem jobMirror_fault_notices (mirror : s.mirror.state = .fault) (kept : s.reader.writeBackLost = false) :
    (jobMirror s).notices = s.notices := by
  cases run : s.job with
  | none =>
    unfold jobMirror
    rw [mirror, run]
  | some x =>
    cases x with
    | spinWait =>
      rw [jobMirror_spin_fails mirror run]
      exact finishJob_onlyIn kept .notices rfl
    | scan j =>
      by_cases fails : j.phase = .hold ∧ j.endWait = .none
      · rw [jobMirror_fails_spin mirror run fails.1 fails.2]
        cases seals : s.seals with
        | true =>
          rw [failPre_of_seals _ _ seals]
          exact decelerate_onlyIn s .notices rfl
        | false => exact ((failPre_ends .spinFail j seals).ends.result kept).2
      · unfold jobMirror
        rw [mirror, run]
        exact congrArg _ (if_neg fails)
    | _ =>
      unfold jobMirror
      rw [mirror, run]

/-- The spin-up limit: the mirror is in FAULT and FAULT is raised, and the job that waits for lock fails. -/
theorem spinUpLimit_fails {e : Nat} (seeks : s.mirror.state = .spinningUp ∨ s.mirror.state = .unlocked)
    (limit : s.mirror.spinUpEnd = some e) (due : e ≤ s.now) :
    ∃ u, spinUpLimitOver s = advancePages u ∧
      u.mirror = { s.mirror with state := .fault, lockCount := 0, spinUpEnd := none } ∧
      u.notices.pending &&& 32 = 32 ∧
      (PermitSound s → s.reader.writeBackLost = false →
        u.notices.pending = s.notices.pending ||| 32 ∧
        (s.job = some .spinWait → Finishes .spin ⟨.spinFail, s.mirror.rate, []⟩ s.seals s.staging.nextSeq u) ∧
        (∀ j, s.job = some (.scan j) → j.phase = .hold → j.endWait = .none → ScanFailedEarly .spinFail j s u)) := by
  let v := raise .fault (s.setMirror { s.mirror with state := .fault, lockCount := 0, spinUpEnd := none })
  have told : Acts besideMirror v (mirrorChanged v) := by apply_rules [mirrorChanged_acts, Acts.refl]
  refine ⟨mirrorChanged v, spinUpLimitOver_due seeks limit due, told.only .mirror rfl, told.stays_pending, fun sound kept => ?_⟩
  have off : v.sched.permit = false :=
    sound.off_of_unlocked (by rcases seeks with e | e <;> rw [e] <;> decide)
  have changed : mirrorChanged v = jobMirror v := by
    unfold mirrorChanged
    rw [recomputePermit_of_off (permitHolds_of_unlocked (s := v) (nofun : MirrorState.fault ≠ .locked)) off]
  rw [changed]
  refine ⟨?_, fun run => ?_, fun j run phase waits => ?_⟩
  · rw [jobMirror_fault_notices (s := v) rfl kept]
    exact raise_pending .fault _
  · rw [jobMirror_spin_fails (s := v) rfl run]
    exact finishJob_finishes (s := v) kept
  · rw [jobMirror_fails_spin (s := v) rfl run phase waits]
    exact (failPre_failedEarly ..).congr fun f hf => by cases f <;> first | rfl | cases hf

theorem spinUpLimitOver_idle (h : (s.mirror.state ≠ .spinningUp ∧ s.mirror.state ≠ .unlocked) ∨ s.mirror.spinUpEnd = none ∨
    (∃ e, s.mirror.spinUpEnd = some e ∧ s.now < e)) : spinUpLimitOver s = s := by
  refine if_neg fun ⟨seeks, over_⟩ => ?_
  rcases h with ⟨up, unlocked⟩ | early
  · exact seeks.elim up unlocked
  · rw [not_ended early] at over_
    cases over_

/-- Settles O25. -/
theorem mirrorTimers : Obligations.MirrorTimers := by
  unfold Obligations.MirrorTimers
  rintro m s _ rfl
  refine ⟨fun due => ?_, fun early => next_congr (rateWatchOver_early (s := observe m s) early),
    fun e seeks limit due => ?_, fun h => next_congr (spinUpLimitOver_idle (s := observe m s) h)⟩
  · rw [← rateWatchMirror_eq]
    exact next_congr (rateWatchOver_due (s := observe m s) due)
  · obtain ⟨u, eq, mirror, raised, told⟩ := spinUpLimit_fails (s := observe m s) seeks limit due
    exact ⟨u, next_congr eq, mirror, by rw [mirror]; rfl, raised, fun sound => told (permitSound_steps.observe m s sound)⟩

end Sys2Proof.Machine


/-! PROOFS. Lock (R3, R7, R10, R112 to R114): the lock count, a move request and a track request, and a scan sent to its
run-in point. -/

namespace Sys2Proof.Machine

variable {s t u v b : State} {j k : ScanJob} {x : Mirror} {now f : Nat} {target : Angle} {settle : Nat}

/-! ## Move and track requests (R12, R15) -/

theorem inHoldBand_iff (h : s.turntable.target = some target) :
    s.inHoldBand = true ↔ circleDistance s.azimuth target ≤ 64 := by
  unfold State.inHoldBand
  rw [h]
  exact decide_eq_true_iff

/-- A move request to where the head is HELD is answered at once. -/
theorem moveRequest_arrived (settle : Nat) (held : HeldAt target s) : moveRequest target settle s =
    (s.setTurntable { s.turntable with requester := some s.jobSerial, answered := true }, .arrived) := by
  obtain ⟨state, aim, near⟩ := held
  exact if_pos ⟨state, aim, (inHoldBand_iff aim).2 near⟩

/-- A move request to elsewhere begins a slew, its error count as it was, or 0 out of FAULT. -/
theorem moveRequest_away (settle : Nat) (away : ¬ HeldAt target s) : moveRequest target settle s =
    (beginSlew target settle (if s.turntable.state = .fault then 0 else s.turntable.errorCount) s, .nothing) := by
  unfold moveRequest
  rw [if_neg fun ⟨state, aim, near⟩ => away ⟨state, aim, (inHoldBand_iff aim).1 near⟩]
  split <;> rfl

theorem moveRequest_sentTo (settle : Nat) (away : ¬ HeldAt target s) : SentTo target settle s (moveRequest target settle s).1 := by
  rw [moveRequest_away settle away]
  rfl

theorem trackRequest_issued (rate : Nat) (sound : s.turntable.state ≠ .fault) : trackRequest rate s =
    (s.setTurntable { s.turntable with
      state := .tracking, trackRate := rate, target := none, settleEnd := none, slewEnd := none, errorCount := 0,
      requester := some s.jobSerial, answered := false }, .nothing) := if_neg sound

theorem trackRequest_faulted (rate : Nat) (fault : s.turntable.state = .fault) : trackRequest rate s = (s, .fault) :=
  if_pos fault

/-! ## The way to the first line (R113, R114) -/

/-- The settle time of a scan's slot. -/
def State.settleOf (s : State) (j : ScanJob) : Nat :=
  match s.slots.get j.params.slot with
  | none => 0
  | some x => x.profile.settleMs

theorem settleOf_of_slot {sl : Slot} (slot : s.slots.get j.params.slot = some sl) : s.settleOf j = sl.profile.settleMs := by
  unfold State.settleOf
  rw [slot]

theorem enterPosition_eq (j : ScanJob) (s : State) : enterPosition j s =
    match (moveRequest (runInPointOf j.params) (s.settleOf j) s).2 with
    | .nothing => putScan { j with phase := .position, runInPoint := runInPointOf j.params }
        (moveRequest (runInPointOf j.params) (s.settleOf j) s).1
    | .arrived => enterRunIn { j with phase := .position, runInPoint := runInPointOf j.params }
        (moveRequest (runInPointOf j.params) (s.settleOf j) s).1
    | .fault => failPre .turntableFault { j with phase := .position, runInPoint := runInPointOf j.params }
        (moveRequest (runInPointOf j.params) (s.settleOf j) s).1 := rfl

/-- POSITION with the head elsewhere. -/
theorem enterPosition_away (away : ¬ HeldAt (runInPointOf j.params) s) : enterPosition j s =
    putScan { j with phase := .position, runInPoint := runInPointOf j.params }
      (moveRequest (runInPointOf j.params) (s.settleOf j) s).1 := by
  rw [enterPosition_eq, moveRequest_away _ away]

/-- POSITION with the head HELD at the run-in point: RUN-IN at once. -/
theorem enterPosition_arrived (held : HeldAt (runInPointOf j.params) s) : enterPosition j s =
    putScan { j with
      phase := .runIn, runInPoint := runInPointOf j.params, indexCount := (16384 + j.params.step - 1) / j.params.step,
      runInDelay := runInDelayOf j.params.step s.mirror.target, entryDistance := (32768 - j.params.step) / 2,
      runInStage := .index }
      (s.setTurntable { s.turntable with requester := some s.jobSerial, answered := true }) := by
  rw [enterPosition_eq, moveRequest_arrived _ held]
  rfl

theorem issueTrack_issued (sound : s.turntable.state ≠ .fault) : issueTrack j s =
    putScan { j with runInStage := .travel } (trackRequest (j.params.step * s.mirror.target) s).1 := by
  unfold issueTrack
  rw [trackRequest_issued _ sound]

theorem issueTrack_trackIssued (sound : s.turntable.state ≠ .fault) : TrackIssued s j (issueTrack j s) := by
  rw [issueTrack_issued sound, trackRequest_issued _ sound]
  exact ⟨rfl, rfl⟩

theorem issueTrack_faulted (fault : s.turntable.state = .fault) : issueTrack j s = failPre .turntableFault j s := by
  unfold issueTrack
  rw [trackRequest_faulted _ fault]

/-- An index that a scan in RUN-IN takes (R114). -/
theorem indexAtScan_runIn (run : s.job = some (.scan j)) (phase : j.phase = .runIn) (waits : j.endWait = .none) :
    indexAtScan s = runInIndex j s := by
  unfold indexAtScan
  rw [scanJob_of_job run]
  dsimp only
  rw [if_neg (by rw [lineMayOpen_iff]; exact fun e => by rw [phase] at e; cases e.1), if_pos ⟨phase, waits⟩]

/-- An index is nothing to a scan in HOLD, POSITION or ENDING (R117). -/
theorem indexAtScan_elsewhere (run : s.job = some (.scan j)) (scanning : j.phase ≠ .scanning) (runIn : j.phase ≠ .runIn) :
    indexAtScan s = s := by
  unfold indexAtScan
  rw [scanJob_of_job run]
  dsimp only
  rw [if_neg (by rw [lineMayOpen_iff]; exact fun e => scanning e.1), if_neg fun e => runIn e.1]

theorem runInIndex_delays (stage : j.runInStage = .index) (lead : leadOf j.params.step ≠ 0) :
    runInIndex j s = putScan { j with runInStage := .delay (s.now + j.runInDelay) } s := by
  unfold runInIndex
  rw [stage]
  exact if_neg lead

theorem runInIndex_tracks (stage : j.runInStage = .index) (lead : leadOf j.params.step = 0) :
    runInIndex j s = issueTrack j s := by
  unfold runInIndex
  rw [stage]
  exact if_pos lead

/-! ## Revolutions that count toward lock (R3) -/

theorem inLockBand_iff (target interval : Nat) : inLockBand target interval = true ↔
    200 * ((6400000000000 : Int) - (target * interval : Nat)).natAbs ≤ target * interval := decide_eq_true_iff

/-- The mirror with a revolution measured. -/
def Mirror.measured (x : Mirror) (interval now : Nat) : Mirror :=
  { x with lastIndex := some now, rateWatchEnd := now + fineSec, rate := measuredRate interval }

theorem markMirror_seeking (seeks : x.state = .spinningUp ∨ x.state = .unlocked) (last : x.lastIndex = some f) :
    markMirror now x = countLock (now - f) now (x.measured (now - f) now) :=
  (markMirror_next last).trans (evaluateRevolution_of_seeking (x := x.measured (now - f) now) _ _ seeks)

theorem countLock_outOfBand {interval : Nat} (out : inLockBand x.target interval = false) :
    countLock interval now x = { x with lockCount := 0 } := if_neg (by rw [out]; decide)

theorem countLock_counts {interval : Nat} (near : inLockBand x.target interval = true) (more : x.lockCount + 1 < 16) :
    countLock interval now x = { x with lockCount := x.lockCount + 1 } :=
  (if_pos near).trans (if_neg (by exact Nat.not_le_of_lt more))

theorem countLock_locks {interval : Nat} (near : inLockBand x.target interval = true) (enough : 16 ≤ x.lockCount + 1) :
    countLock interval now x =
      { x with state := .locked, lockCount := 16, spinUpEnd := none, watchdogFrom := some now } :=
  (if_pos near).trans (if_pos enough)

/-! ## The running job told of lock (R7, R10, R112) -/

theorem jobMirror_spin_done (mirror : s.mirror.state = .locked) (run : s.job = some .spinWait) :
    jobMirror s = finishOpen .spin .none s := by
  unfold jobMirror
  rw [mirror, run]

theorem jobMirror_leaves_hold (mirror : s.mirror.state = .locked) (run : s.job = some (.scan j)) (phase : j.phase = .hold)
    (waits : j.endWait = .none) : jobMirror s = enterPosition j s := by
  unfold jobMirror
  rw [mirror, run]
  exact if_pos ⟨phase, waits⟩

/-- A job that is no scan in SCANNING is told of the mirror in an index, the permit standing. -/
theorem indexTold_dark (sound : PermitSound s) (dark : s.scanning = false)
    (changed : (markMirror s.now s.mirror).state ≠ s.mirror.state) : indexTold s = jobMirror (indexSeen s) :=
  (indexTold_changed changed).trans (sound.mirrorChanged_dark (v := indexSeen s) dark rfl rfl)

theorem Finishes.noScan {kind : JobKind} {r : JobResult} {seals : Bool} {queued : Nat} (h : Finishes kind r seals queued t) :
    t.scanJob = none := by
  unfold Finishes at h
  unfold State.scanJob
  split at h
  · rw [h.1]
  · rw [h.1]

section Locks

variable (sound : PermitSound s) (changed : (markMirror s.now s.mirror).state ≠ s.mirror.state)
  (locked : (markMirror s.now s.mirror).state = .locked)
include sound changed locked

/-- A SPIN job that waits is DONE. -/
theorem lock_ends_spin (run : s.job = some .spinWait) (kept : s.reader.writeBackLost = false) :
    ∃ detail, Finishes .spin ⟨.none, detail, []⟩ s.seals s.staging.nextSeq (indexAtScan (indexTold s)) := by
  have dark : s.scanning = false := not_scanning fun j e => by rw [run] at e; cases e
  have told : indexTold s = finishOpen .spin .none (indexSeen s) :=
    (indexTold_dark sound dark changed).trans (jobMirror_spin_done (s := indexSeen s) locked run)
  have done := finishOpen_finishes (s := indexSeen s) .spin .none kept
  rw [← told] at done
  rw [indexAtScan_of_no_scan done.noScan]
  exact ⟨_, done⟩

/-- A scan in HOLD is sent to its run-in point. -/
theorem lock_leaves_hold (run : s.job = some (.scan j)) (phase : j.phase = .hold) (waits : j.endWait = .none) :
    indexTold s = enterPosition j (indexSeen s) :=
  (indexTold_dark sound (not_scanning_of_phase run (by rw [phase]; decide)) changed).trans
    (jobMirror_leaves_hold (s := indexSeen s) locked run phase waits)

theorem lock_sends (run : s.job = some (.scan j)) (phase : j.phase = .hold) (waits : j.endWait = .none)
    (away : ¬ HeldAt (runInPointOf j.params) s) : indexAtScan (indexTold s) =
    putScan { j with phase := .position, runInPoint := runInPointOf j.params }
      (moveRequest (runInPointOf j.params) ((indexSeen s).settleOf j) (indexSeen s)).1 := by
  rw [lock_leaves_hold sound changed locked run phase waits, enterPosition_away (s := indexSeen s) away]
  exact indexAtScan_elsewhere rfl (by simp) (by simp)

/-- The scan in RUN-IN that the head, HELD at the run-in point already, makes of it takes the index itself. -/
theorem lock_runs_in (run : s.job = some (.scan j)) (phase : j.phase = .hold) (waits : j.endWait = .none)
    (held : HeldAt (runInPointOf j.params) s)
    (same : k = { j with
      phase := .runIn, runInPoint := runInPointOf j.params, indexCount := (16384 + j.params.step - 1) / j.params.step,
      runInDelay := runInDelayOf j.params.step s.mirror.target, entryDistance := (32768 - j.params.step) / 2,
      runInStage := .index }) : indexAtScan (indexTold s) =
    runInIndex k (putScan k ((indexSeen s).setTurntable
      { s.turntable with requester := some s.jobSerial, answered := true })) := by
  have entered := enterPosition_arrived (s := indexSeen s) held
  rw [show (indexSeen s).mirror.target = s.mirror.target from (markMirror_keeps _ _).2.2, ← same] at entered
  rw [lock_leaves_hold sound changed locked run phase waits, entered]
  exact indexAtScan_runIn rfl (by rw [same]) (by rw [same]; exact waits)

end Locks

/-- Settles O23. -/
theorem sixteenRevolutionsLock : Obligations.SixteenRevolutionsLock := by
  unfold Obligations.SixteenRevolutionsLock
  rintro m s _ f rfl seeks last
  have marked : (indexAtScan (indexTold (observe m s))).mirror = countLock ((observe m s).now - f) (observe m s).now _ :=
    (indexAtScan_mirror _).trans ((indexTold_mirror _).trans (markMirror_seeking (x := (observe m s).mirror) seeks last))
  refine ⟨indexAtScan (indexTold (observe m s)), ?event, fun out => ?_, fun near more => ?_, fun near enough => ?_,
    inLockBand_iff ..⟩
  case event =>
    have event : exec (.mirrorIndexMark m) s = .next (advancePages (indexAtPages (indexAtScan (indexTold (observe m s))))) :=
      rfl
    rw [event]
    unfold indexAtPages
    split
    · exact .inr rfl
    · exact .inl rfl
  · rw [marked, countLock_outOfBand
      (x := Mirror.measured (observe m s).mirror ((observe m s).now - f) (observe m s).now) out]
    exact ⟨rfl, rfl, rfl⟩
  · rw [marked, countLock_counts
      (x := Mirror.measured (observe m s).mirror ((observe m s).now - f) (observe m s).now) near more]
    exact ⟨rfl, rfl, rfl⟩
  · have locks := countLock_locks (now := (observe m s).now)
      (x := Mirror.measured (observe m s).mirror ((observe m s).now - f) (observe m s).now) near enough
    have locked : (markMirror (observe m s).now (observe m s).mirror).state = .locked := by
      rw [markMirror_seeking (x := (observe m s).mirror) seeks last]
      exact congrArg Mirror.state locks
    have changed : (markMirror (observe m s).now (observe m s).mirror).state ≠ (observe m s).mirror.state := by
      rw [locked]
      rcases seeks with e | e <;> rw [show (observe m s).mirror.state = _ from e] <;> decide
    rw [show (indexAtScan (indexTold (observe m s))).mirror = _ from marked.trans locks]
    refine ⟨rfl, rfl, rfl, rfl, fun sound run kept => ?_, fun j sound run phase waits => ⟨fun away => ?_, fun k held same => ?_⟩⟩
    · exact lock_ends_spin (permitSound_steps.observe m s sound) changed locked run kept
    · rw [lock_sends (permitSound_steps.observe m s sound) changed locked run phase waits away,
        moveRequest_away (s := indexSeen (observe m s)) _ away]
      exact ⟨rfl, rfl, rfl, rfl⟩
    · have taken := lock_runs_in (permitSound_steps.observe m s sound) changed locked run phase waits held same
      have stage : k.runInStage = .index := by rw [same]
      have step : k.params.step = j.params.step := by rw [same]
      refine ⟨fun lead => ?_, fun lead => ?_⟩
      · rw [taken, runInIndex_delays stage (by rw [step]; exact lead)]
        exact ⟨rfl, rfl⟩
      · rw [taken, runInIndex_tracks stage (by rw [step]; exact lead)]
        have notFault : (observe m s).turntable.state ≠ .fault := by rw [held.1]; decide
        have tracks := issueTrack_trackIssued (j := k) (s := putScan k ((indexSeen (observe m s)).setTurntable
          { s.turntable with requester := some s.jobSerial, answered := true })) notFault
        refine ⟨tracks.turntable.trans ?_, tracks.job⟩
        have target := (markMirror_keeps (observe m s).now (observe m s).mirror).2.2
        rw [show (putScan k _).mirror = markMirror (observe m s).now (observe m s).mirror from rfl, target]
        rfl

end Sys2Proof.Machine


/-! PROOFS. The jobs at their dispatch (R9, R10, R12, R19, R79, R84, R87): SPIN, TURN and MARK. -/

namespace Sys2Proof.Machine

variable {s t u v b : State} {x : Mirror} {now : Nat} {r : JobResult} {kind : JobKind}

/-! ## The dispatched state (R174) -/

section Dispatched

variable (m : Moment) (t : Transfer) (rest : List Outstanding) (s : State)

@[simp] theorem dispatched_mirror : (dispatched m t rest s).mirror = s.mirror := dispatched_onlyIn m t rest s .mirror rfl

@[simp] theorem dispatched_turntable : (dispatched m t rest s).turntable = s.turntable :=
  dispatched_onlyIn m t rest s .turntable rfl

@[simp] theorem dispatched_emission : (dispatched m t rest s).emission = s.emission :=
  dispatched_onlyIn m t rest s .emission rfl

@[simp] theorem dispatched_slots : (dispatched m t rest s).slots = s.slots := dispatched_onlyIn m t rest s .slots rfl

@[simp] theorem dispatched_staging : (dispatched m t rest s).staging = s.staging :=
  dispatched_onlyIn m t rest s .staging rfl

@[simp] theorem dispatched_loss : (dispatched m t rest s).loss = s.loss := dispatched_onlyIn m t rest s .loss rfl

@[simp] theorem dispatched_pages : (dispatched m t rest s).pages = s.pages := dispatched_onlyIn m t rest s .pages rfl

@[simp] theorem dispatched_notices : (dispatched m t rest s).notices = s.notices :=
  dispatched_onlyIn m t rest s .notices rfl

@[simp] theorem dispatched_camera : (dispatched m t rest s).camera = s.camera := dispatched_onlyIn m t rest s .camera rfl

@[simp] theorem dispatched_photo : (dispatched m t rest s).photo = s.photo := dispatched_onlyIn m t rest s .photo rfl

@[simp] theorem dispatched_sched : (dispatched m t rest s).sched = s.sched := dispatched_onlyIn m t rest s .sched rfl

@[simp] theorem dispatched_intake : (dispatched m t rest s).intake = s.intake := dispatched_onlyIn m t rest s .intake rfl

@[simp] theorem dispatched_counters : (dispatched m t rest s).counters = s.counters :=
  dispatched_onlyIn m t rest s .counters rfl

@[simp] theorem dispatched_block : (dispatched m t rest s).reader.block = s.reader.block := rfl

@[simp] theorem dispatched_jobSerial : (dispatched m t rest s).jobSerial = s.jobSerial + 1 := rfl

@[simp] theorem dispatched_azimuth : (dispatched m t rest s).azimuth = m.azimuth := by
  unfold dispatched reported landed
  split <;> rfl

/-- The head as the dispatch finds it. -/
theorem dispatched_heldAt (target : Angle) : HeldAt target (dispatched m t rest s) ↔
    s.turntable.state = .held ∧ s.turntable.target = some target ∧ circleDistance m.azimuth target ≤ 64 := by
  unfold HeldAt
  rw [dispatched_turntable, dispatched_azimuth]

theorem dispatched_occupancy : (dispatched m t rest s).occupancy = s.occupancy := by
  unfold State.occupancy
  rw [dispatched_staging]

end Dispatched

/-- No write-back is lost where a job is dispatched (R183). -/
theorem AwaitsDispatch.kept {id : Nat} {t : Transfer} {rest : List Outstanding} (h : AwaitsDispatch id s kind t rest)
    (m : Moment) : (dispatched m t rest s).reader.writeBackLost = false := h.2.1

/-- The row of a kind is the dispatch of the block whose TAKEN write is outstanding (R174). -/
theorem exec_jobCommand_eq (m : Moment) (t : Transfer) (rest : List Outstanding)
    (h : AwaitsDispatch m.transfer s kind t rest) :
    exec (jobCommand kind m) s = .next (advancePages (takeJob (dispatched m t rest s) kind)) := by
  have event := congrArg (Host.Outcome.next (φ := Fault) (ρ := Refusal)) (dispatchEvent_eq m.transfer m s kind t rest h)
  cases kind <;> exact event

/-- A job that ends at its dispatch hands its result back, and nothing else moves. -/
theorem handResult_refuses (r : JobResult) (kept : s.reader.writeBackLost = false) :
    HandsBack r (handResult r s) ∧ OnlyIn (fields [.job, .reader, .port]) s (handResult r s) :=
  ⟨handResult_handsBack kept, handResult_onlyIn kept⟩

/-! ## SPIN (R9, R10) -/

theorem spinMirror_of_undriven {rate : Nat} (h : x.state = .parked ∨ x.state = .spinningDown ∨ x.state = .fault) :
    spinMirror rate now x =
      { x with state := .spinningUp, target := rate, lockCount := 0, spinUpEnd := some (now + 30 * fineSec) } := by
  unfold spinMirror
  rcases h with h | h | h <;> rw [h] <;> rfl

theorem spinMirror_of_seeking {rate : Nat} (h : x.state = .spinningUp ∨ x.state = .unlocked) :
    spinMirror rate now x = { x with target := rate, lockCount := 0 } := by
  unfold spinMirror
  rcases h with h | h <;> rw [h]

theorem spinMirror_same {rate : Nat} (locked : x.state = .locked) (same : rate = x.target) : spinMirror rate now x = x := by
  unfold spinMirror
  rw [locked]
  exact if_pos same

theorem spinMirror_unlocks {rate : Nat} (locked : x.state = .locked) (other : rate ≠ x.target) :
    spinMirror rate now x = { x with
      state := .unlocked, target := rate, lockCount := 0, watchdogFrom := none, spinUpEnd := some (now + 30 * fineSec) } := by
  unfold spinMirror
  rw [locked]
  exact if_neg other

/-- A SPIN leaves the mirror LOCKED only where it changes nothing. -/
theorem spinMirror_locked_iff {rate : Nat} :
    (spinMirror rate now x).state = .locked ↔ x.state = .locked ∧ rate = x.target := by
  by_cases locked : x.state = .locked
  · by_cases same : rate = x.target
    · rw [spinMirror_same locked same]
      exact iff_of_true locked ⟨locked, same⟩
    · simp [spinMirror_unlocks locked same, same]
  · refine iff_of_false ?_ fun h => locked h.1
    cases state : x.state with
    | locked => exact absurd state locked
    | parked | spinningDown | fault => rw [spinMirror_of_undriven (by simp [state])]; simp
    | spinningUp | unlocked => rw [spinMirror_of_seeking (by simp [state])]; simp [state]

theorem takeSpin_refused (bad : spinRate s.reader.block < 500 ∨ 20000 < spinRate s.reader.block) :
    takeSpin s = handResult ⟨.badParam, 1, []⟩ s := if_neg (by omega)

theorem takeSpin_taken (low : 500 ≤ spinRate s.reader.block) (high : spinRate s.reader.block ≤ 20000) : takeSpin s =
    if spinWaits s.reader.block ∧ (spinMirror (spinRate s.reader.block) s.now s.mirror).state ≠ .locked then
      (s.setMirror (spinMirror (spinRate s.reader.block) s.now s.mirror)).setJob (some .spinWait)
    else finishOpen .spin .none (s.setMirror (spinMirror (spinRate s.reader.block) s.now s.mirror)) := if_pos ⟨low, high⟩

/-- A SPIN in range: the mirror's table, and the job DONE at once or waiting for lock. -/
theorem takeSpin_spins (kept : s.reader.writeBackLost = false) (low : 500 ≤ spinRate s.reader.block)
    (high : spinRate s.reader.block ≤ 20000) :
    (takeSpin s).mirror = spinMirror (spinRate s.reader.block) s.now s.mirror ∧
    (spinWaits s.reader.block = false ∨ (s.mirror.state = .locked ∧ spinRate s.reader.block = s.mirror.target) →
      Finishes .spin ⟨.none, openDetail s, []⟩ s.seals s.staging.nextSeq (takeSpin s)) ∧
    (spinWaits s.reader.block = true → s.mirror.state ≠ .locked ∨ spinRate s.reader.block ≠ s.mirror.target →
      (takeSpin s).job = some .spinWait ∧ (takeSpin s).reader = s.reader) ∧
    OnlyIn (fields [.mirror, .job, .reader, .port, .pages, .freeCount]) s (takeSpin s) := by
  let v := s.setMirror (spinMirror (spinRate s.reader.block) s.now s.mirror)
  have moved : OnlyIn (fields [.mirror]) s v := (setMirror_acts _ (Acts.refl _ s) rfl).only
  rw [takeSpin_taken low high]
  split
  next h =>
    obtain ⟨waits, notLocked⟩ := h
    rw [ne_eq, spinMirror_locked_iff] at notLocked
    exact ⟨rfl, fun ready => by simp_all, fun _ _ => ⟨rfl, rfl⟩,
      (setJob_acts _ (setMirror_acts _ (Acts.refl _ s) rfl) rfl).only⟩
  next h =>
    have ended : OnlyIn (fields [.job, .reader, .port, .pages, .freeCount]) v (finishOpen .spin .none v) :=
      finishOpen_onlyIn .spin .none kept
    refine ⟨ended .mirror rfl, fun _ => finishOpen_finishes (s := v) .spin .none kept, fun waits other => ?_,
      (moved.widen (by decide)).trans (ended.widen (by decide))⟩
    exact absurd ⟨waits, fun locked => by simp_all [spinMirror_locked_iff]⟩ h

/-- Settles O26. -/
theorem spinTaken : Obligations.SpinTaken := by
  unfold Obligations.SpinTaken
  rintro m s _ t rest _ awaits rfl rfl
  have kept := awaits.kept m
  have event := exec_jobCommand_eq m t rest awaits
  refine ⟨fun bad => ⟨_, event, ?_⟩, fun low high => ?_⟩
  · rw [takeJob, takeSpin_refused (s := dispatched m t rest s) bad]
    exact handResult_refuses _ kept
  · obtain ⟨mirror, done, waits, only⟩ := takeSpin_spins kept low high
    rw [dispatched_mirror] at mirror done waits
    rw [dispatched_staging] at done
    exact ⟨_, _, event, fun h => mirror.trans (spinMirror_of_undriven h), fun h => mirror.trans (spinMirror_of_seeking h),
      fun locked same => mirror.trans (spinMirror_same locked same),
      fun locked other => mirror.trans (spinMirror_unlocks locked other), done, waits, only⟩

/-! ## TURN (R12, R19) -/

theorem takeTurn_badAzimuth (bad : 4194303 < turnAzimuth s.reader.block) :
    takeTurn s = handResult ⟨.badParam, 1, []⟩ s := if_pos (by exact bad)

theorem takeTurn_badSlot (azimuth : turnAzimuth s.reader.block ≤ 4194303) (bad : 3 < turnSlot s.reader.block) :
    takeTurn s = handResult ⟨.badParam, 2, []⟩ s :=
  (if_neg (by exact Nat.not_lt_of_le azimuth)).trans (if_pos bad)

theorem takeTurn_checked (azimuth : turnAzimuth s.reader.block ≤ 4194303) (slot : turnSlot s.reader.block ≤ 3) :
    takeTurn s = match s.slots.get (turnSlot s.reader.block) with
      | none => handResult (plainResult .noProfile (openDetail s)) s.spendFree
      | some x =>
        let r := moveRequest (BitVec.ofNat 22 (turnAzimuth s.reader.block)) x.profile.settleMs (s.setJob (some .turnWait))
        match r.2 with
        | .arrived => finishOpen .turn .none r.1
        | .nothing | .fault => r.1 :=
  (if_neg (by exact Nat.not_lt_of_le azimuth)).trans (if_neg (Nat.not_lt_of_le slot))

theorem takeTurn_noProfile (azimuth : turnAzimuth s.reader.block ≤ 4194303) (slot : turnSlot s.reader.block ≤ 3)
    (invalid : s.slots.get (turnSlot s.reader.block) = none) :
    takeTurn s = handResult ⟨.noProfile, openDetail s, []⟩ s.spendFree := by
  rw [takeTurn_checked azimuth slot, invalid]
  rfl

section Turns

variable {sl : Slot} (azimuth : turnAzimuth s.reader.block ≤ 4194303) (slot : turnSlot s.reader.block ≤ 3)
  (valid : s.slots.get (turnSlot s.reader.block) = some sl)
include azimuth slot valid

theorem takeTurn_arrived (held : HeldAt (BitVec.ofNat 22 (turnAzimuth s.reader.block)) s) :
    takeTurn s = finishOpen .turn .none ((s.setJob (some .turnWait)).setTurntable
      { s.turntable with requester := some s.jobSerial, answered := true }) := by
  rw [takeTurn_checked azimuth slot, valid]
  dsimp only
  rw [moveRequest_arrived (s := s.setJob (some .turnWait)) _ held]
  rfl

theorem takeTurn_arrives (held : HeldAt (BitVec.ofNat 22 (turnAzimuth s.reader.block)) s)
    (kept : s.reader.writeBackLost = false) :
    Finishes .turn ⟨.none, openDetail s, []⟩ s.seals s.staging.nextSeq (takeTurn s) ∧
    (takeTurn s).turntable = { s.turntable with requester := some s.jobSerial, answered := true } ∧
    OnlyIn (fields [.turntable, .job, .reader, .port, .pages, .freeCount]) s (takeTurn s) := by
  let v := (s.setJob (some .turnWait)).setTurntable { s.turntable with requester := some s.jobSerial, answered := true }
  have moved : OnlyIn (fields [.turntable, .job]) s v :=
    (setTurntable_acts _ (setJob_acts _ (Acts.refl _ s) rfl) rfl).only
  have ended : OnlyIn (fields [.job, .reader, .port, .pages, .freeCount]) v (finishOpen .turn .none v) :=
    finishOpen_onlyIn .turn .none kept
  rw [takeTurn_arrived azimuth slot valid held]
  exact ⟨finishOpen_finishes (s := v) .turn .none kept, ended .turntable rfl,
    (moved.widen (by decide)).trans (ended.widen (by decide))⟩

theorem takeTurn_sent (away : ¬ HeldAt (BitVec.ofNat 22 (turnAzimuth s.reader.block)) s) :
    takeTurn s = beginSlew (BitVec.ofNat 22 (turnAzimuth s.reader.block)) sl.profile.settleMs
      (if s.turntable.state = .fault then 0 else s.turntable.errorCount) (s.setJob (some .turnWait)) := by
  rw [takeTurn_checked azimuth slot, valid]
  dsimp only
  rw [moveRequest_away (s := s.setJob (some .turnWait)) _ away]
  rfl

end Turns

/-- Settles O28: the checks in order, and then a move request. -/
theorem turnTaken : Obligations.TurnTaken := by
  unfold Obligations.TurnTaken
  rintro m s _ t rest _ _ awaits rfl rfl rfl
  have kept := awaits.kept m
  have event := exec_jobCommand_eq m t rest awaits
  have valid := dispatched_slots m t rest s
  refine ⟨fun bad => ⟨_, event, ?_⟩, fun azimuth bad => ⟨_, event, ?_⟩, fun azimuth slot invalid =>
      ⟨_, openDetail (dispatched m t rest s), event, ?_⟩,
    fun sl azimuth slot profile => ⟨fun held aim near => ⟨_, openDetail (dispatched m t rest s), event, ?_⟩,
      fun away => event.trans (next_congr (congrArg advancePages ?_))⟩⟩
  · rw [takeJob, takeTurn_badAzimuth (s := dispatched m t rest s) bad]
    exact handResult_refuses _ kept
  · rw [takeJob, takeTurn_badSlot (s := dispatched m t rest s) azimuth bad]
    exact handResult_refuses _ kept
  · rw [takeJob, takeTurn_noProfile (s := dispatched m t rest s) azimuth slot (by rw [valid]; exact invalid)]
    obtain ⟨hands, only⟩ := handResult_refuses (s := (dispatched m t rest s).spendFree)
      ⟨.noProfile, openDetail (dispatched m t rest s), []⟩ kept
    have spent : OnlyIn (fields [.freeCount]) (dispatched m t rest s) _ := (spendFree_acts (Acts.refl _ _) rfl).only
    exact ⟨hands, (spent.widen (by decide)).trans (only.widen (by decide))⟩
  · obtain ⟨done, turntable, only⟩ := takeTurn_arrives (s := dispatched m t rest s) azimuth slot (by rw [valid]; exact profile)
      ((dispatched_heldAt m t rest s _).2 ⟨held, aim, near⟩) kept
    rw [dispatched_turntable] at turntable
    rw [dispatched_staging] at done
    exact ⟨done, turntable, only⟩
  · rw [takeJob, takeTurn_sent (s := dispatched m t rest s) azimuth slot (by rw [valid]; exact profile)
      (fun there => ?_), ← dispatched_turntable m t rest s]
    · rfl
    · obtain ⟨held, aim, near⟩ := (dispatched_heldAt m t rest s _).1 there
      exact away.elim (· held) (·.elim (· aim) (Nat.not_lt_of_le near))

/-! ## What a record offered does to the queue (R79, R84) -/

theorem not_pending_of_zero (zero : s.loss = .zero) : s.loss.pending = false := by
  unfold Loss.pending
  rw [zero]
  rfl

theorem pending_of_loss (loss : s.loss ≠ .zero) : s.loss.pending = true := decide_eq_true loss

theorem bytesFor_eq (s : State) (r : Rec) : s.bytesFor r = r.size + if s.loss = Loss.zero then 0 else 32 := by
  unfold State.bytesFor
  by_cases zero : s.loss = .zero
  · rw [not_pending_of_zero zero, if_pos zero]
    rfl
  · rw [pending_of_loss zero, if_neg zero]
    rfl

theorem hasRoomFor_iff (s : State) (r : Rec) : s.hasRoomFor r = true ↔
    s.occupancy + (r.size + if s.loss = Loss.zero then 0 else 32) ≤ r.limit := by
  unfold State.hasRoomFor
  rw [bytesFor_eq]
  exact decide_eq_true_iff

theorem offer_admitted {r : Rec} (zero : s.loss = .zero) (room : s.occupancy + r.size ≤ r.limit) :
    offer r s = (s.setStaging (s.staging.append s.jobSerial r), true) := by
  unfold offer
  rw [if_pos ((hasRoomFor_iff s r).2 (by rw [if_pos zero]; exact room)), if_neg (by rw [not_pending_of_zero zero]; decide)]

theorem offer_behindGap {r : Rec} (loss : s.loss ≠ .zero) (room : s.occupancy + (r.size + 32) ≤ r.limit) :
    offer r s =
      ((s.setStaging ((s.staging.append s.jobSerial (.gap s.loss)).append s.jobSerial r)).setLoss .zero, true) := by
  unfold offer
  rw [if_pos ((hasRoomFor_iff s r).2 (by rw [if_neg loss]; exact room)), if_pos (pending_of_loss loss)]

theorem offer_refused {r : Rec} (full : r.limit < s.occupancy + (r.size + if s.loss = Loss.zero then 0 else 32)) :
    offer r s = (s, false) :=
  if_neg fun room => Nat.not_le_of_lt full ((hasRoomFor_iff s r).1 room)

theorem offerReserve_of_offered {r : Rec} (h : offer r s = (u, true)) : offerReserve r s = (u, true) := by
  unfold offerReserve
  rw [h]
  rfl

theorem offerReserve_refused {r : Rec} (full : r.limit < s.occupancy + (r.size + if s.loss = Loss.zero then 0 else 32)) :
    offerReserve r s = (s.setLoss s.loss.addOther, false) := by
  unfold offerReserve
  rw [offer_refused full]
  rfl

/-! ## MARK (R87) -/

theorem takeMark_offered (offered : offer (.mark s.tag (lineTime s.now)) s = (u, true)) :
    takeMark s = (u.setMarkWait (some (u.staging.nextSeq - 1))).setJob (some .markWait) := by
  unfold takeMark
  rw [offerReserve_of_offered offered]
  rfl

theorem takeMark_admitted (zero : s.loss = .zero) (room : s.occupancy + 24 ≤ 32768) : takeMark s = { s with
    staging := ⟨s.staging.entries ++ [⟨s.staging.nextSeq, s.jobSerial, .mark s.tag (s.now / 64000), false⟩],
      s.staging.nextSeq + 1⟩,
    markWait := some s.staging.nextSeq, job := some .markWait } := by
  rw [takeMark_offered (offer_admitted zero room)]
  rfl

theorem takeMark_behindGap (loss : s.loss ≠ .zero) (room : s.occupancy + (24 + 32) ≤ 32768) : takeMark s = { s with
    staging := ⟨s.staging.entries ++ [⟨s.staging.nextSeq, s.jobSerial, .gap s.loss, false⟩] ++
      [⟨s.staging.nextSeq + 1, s.jobSerial, .mark s.tag (s.now / 64000), false⟩], s.staging.nextSeq + 1 + 1⟩,
    loss := .zero, markWait := some (s.staging.nextSeq + 1), job := some .markWait } := by
  rw [takeMark_offered (offer_behindGap loss room)]
  rfl

theorem takeMark_lost (full : 32768 < s.occupancy + (24 + if s.loss = Loss.zero then 0 else 32)) :
    takeMark s = finishJob .mark ⟨.none, 1, []⟩ (s.setLoss s.loss.addOther) := by
  unfold takeMark
  rw [offerReserve_refused (r := .mark s.tag (lineTime s.now)) full]
  rfl

/-- A MARK whose record finds no room is DONE at once, with detail 1. -/
theorem takeMark_loses (full : 32768 < s.occupancy + (24 + if s.loss = Loss.zero then 0 else 32))
    (kept : s.reader.writeBackLost = false) :
    (takeMark s).loss = s.loss.addOther ∧ (takeMark s).staging = s.staging ∧
    Finishes .mark ⟨.none, 1, []⟩ s.seals s.staging.nextSeq (takeMark s) ∧
    OnlyIn (fields [.loss, .job, .reader, .port, .pages]) s (takeMark s) := by
  have lost : OnlyIn (fields [.loss]) s (s.setLoss s.loss.addOther) := (setLoss_acts _ (Acts.refl _ _) rfl).only
  have ended : OnlyIn (fields [.job, .reader, .port, .pages]) (s.setLoss s.loss.addOther)
      (finishJob .mark ⟨.none, 1, []⟩ (s.setLoss s.loss.addOther)) := finishJob_onlyIn kept
  rw [takeMark_lost full]
  exact ⟨ended .loss rfl, ended .staging rfl, finishJob_finishes (s := s.setLoss s.loss.addOther) kept,
    (lost.widen (by decide)).trans (ended.widen (by decide))⟩

/-- Settles O29. -/
theorem markTaken : Obligations.MarkTaken := by
  unfold Obligations.MarkTaken
  rintro m s _ t rest _ awaits rfl rfl
  have event := exec_jobCommand_eq m t rest awaits
  have kept := awaits.kept m
  have occupancy := dispatched_occupancy m t rest s
  have loss := dispatched_loss m t rest s
  have staging := dispatched_staging m t rest s
  refine ⟨fun zero room => event.trans (next_congr (congrArg advancePages ?_)),
    fun lossy room => event.trans (next_congr (congrArg advancePages ?_)), fun full => ⟨_, event, ?_⟩⟩
  · rw [takeJob, takeMark_admitted (loss.trans zero) (by rw [occupancy]; exact room), staging]
    rfl
  · rw [takeJob, takeMark_behindGap (by rw [loss]; exact lossy) (by rw [occupancy]; omega), staging, loss]
    rfl
  · obtain ⟨lost, queue, done, only⟩ := takeMark_loses (s := dispatched m t rest s) (by rw [occupancy, loss]; omega) kept
    rw [staging] at queue done
    rw [loss] at lost
    exact ⟨lost, queue, done, only⟩

end Sys2Proof.Machine


/-! PROOFS. SETUP (R89, R102, R178, R191): checks in a numbered order, and what an accepted table sets. -/

namespace Sys2Proof.Machine

variable {s t u v b : State} {r : JobResult} {kind : JobKind}

/-! ## Checks in a numbered order -/

/-- A list of checks numbered from `k` on, each of which passes just where its item holds. -/
def Numbered (item : Nat → Prop) : Nat → List (Nat × Bool) → Prop
  | _, [] => True
  | k, (n, ok) :: rest => n = k ∧ (ok = true ↔ item k) ∧ Numbered item (k + 1) rest

/-- The first failure of numbered checks is the lowest item that does not hold. -/
theorem firstFailure_some_iff {item : Nat → Prop} {l : List (Nat × Bool)} {k n : Nat} (h : Numbered item k l) :
    firstFailure l = some n ↔ k ≤ n ∧ n < k + l.length ∧ ¬ item n ∧ ∀ i, k ≤ i → i < n → item i := by
  induction l generalizing k with
  | nil => exact iff_of_false nofun fun ⟨low, high, _⟩ => Nat.not_le_of_lt high low
  | cons x rest ih =>
    obtain ⟨rfl, ok, others⟩ := h
    unfold firstFailure
    cases passes : x.2 with
    | true =>
      have holds : item x.1 := ok.1 passes
      rw [if_pos rfl, ih others, List.length_cons]
      constructor
      · rintro ⟨low, high, fails, before⟩
        refine ⟨by omega, by omega, fails, fun i from_ upTo => ?_⟩
        rcases Nat.eq_or_lt_of_le from_ with same | later
        · exact same ▸ holds
        · exact before i later upTo
      · rintro ⟨low, high, fails, before⟩
        have other : x.1 ≠ n := fun same => fails (same ▸ holds)
        exact ⟨by omega, by omega, fails, fun i from_ upTo => before i (by omega) upTo⟩
    | false =>
      have fails : ¬ item x.1 := fun holds => by rw [ok.2 holds] at passes; cases passes
      rw [if_neg (by decide), Option.some_inj]
      constructor
      · rintro rfl
        exact ⟨Nat.le_refl _, by rw [List.length_cons]; omega, fails, fun i low high => absurd high (by omega)⟩
      · rintro ⟨low, -, -, before⟩
        rcases Nat.eq_or_lt_of_le low with same | later
        · exact same
        · exact absurd (before x.1 (Nat.le_refl _) later) fails

theorem firstFailure_none_iff {item : Nat → Prop} {l : List (Nat × Bool)} {k : Nat} (h : Numbered item k l) :
    firstFailure l = none ↔ ∀ i, k ≤ i → i < k + l.length → item i := by
  induction l generalizing k with
  | nil => exact iff_of_true rfl fun i low high => absurd high (Nat.not_lt_of_le low)
  | cons x rest ih =>
    obtain ⟨rfl, ok, others⟩ := h
    unfold firstFailure
    cases passes : x.2 with
    | true =>
      rw [if_pos rfl, ih others, List.length_cons]
      refine ⟨fun all i low high => ?_, fun all i low high => all i (by omega) (by omega)⟩
      rcases Nat.eq_or_lt_of_le low with same | later
      · exact same ▸ ok.1 passes
      · exact all i later (by omega)
    | false =>
      rw [if_neg (by decide)]
      refine iff_of_false nofun fun all => ?_
      rw [ok.2 (all x.1 (Nat.le_refl _) (by rw [List.length_cons]; omega))] at passes
      cases passes

/-! ## The checks of SETUP (R178) -/

/-- Item `n` of the checks of SETUP. -/
def setupItem (a c poll mode : Nat) : Nat → Prop
  | 1 => a % 64 = 0 ∧ a < 2 ^ 48 ∧ a + 64 * c ≤ 2 ^ 48
  | 2 => 4 ≤ c ∧ c ≤ 256
  | 3 => poll ≤ 1000
  | 4 => mode ≤ 1
  | _ => True

theorem setupItems_numbered (a c poll mode : Nat) : Numbered (setupItem a c poll mode) 1 (setupItems a c poll mode) :=
  ⟨rfl, decide_eq_true_iff, rfl, decide_eq_true_iff, rfl, decide_eq_true_iff, rfl, decide_eq_true_iff, trivial⟩

section Checks

variable {a c poll mode : Nat} (ha : a = setupAddress s.reader.block) (hc : c = setupCount s.reader.block)
  (hp : poll = setupPoll s.reader.block) (hm : mode = setupMode s.reader.block)
include ha hc hp hm

theorem takeSetup_refused {n : Nat} (bad : firstFailure (setupItems a c poll mode) = some n) :
    takeSetup s = handResult ⟨.badParam, n, []⟩ s := by
  unfold takeSetup
  dsimp only
  rw [← ha, ← hc, ← hp, ← hm, bad]
  rfl

theorem takeSetup_pageOpen (good : firstFailure (setupItems a c poll mode) = none) (page : s.pages.current ≠ none) :
    takeSetup s = finishOpen .setup .pageOpen s := by
  unfold takeSetup
  dsimp only
  rw [← ha, ← hc, ← hp, ← hm, good]
  exact if_pos (Option.isSome_iff_ne_none.2 page)

theorem takeSetup_accepted (good : firstFailure (setupItems a c poll mode) = none) (page : s.pages.current = none) :
    takeSetup s = finishJob .setup ⟨.none, 0, []⟩ (acceptTable a c poll mode s) := by
  unfold takeSetup
  dsimp only
  rw [← ha, ← hc, ← hp, ← hm, good]
  exact if_neg (by rw [page]; decide)

end Checks

/-! ## What handing a result back leaves of reader and pages -/

theorem nextBlockWrite_poll (s : State) :
    (nextBlockWrite s).reader.pollMs = s.reader.pollMs ∧ (nextBlockWrite s).reader.pollFrom = s.reader.pollFrom := by
  unfold nextBlockWrite
  (repeat' split) <;> exact ⟨rfl, rfl⟩

theorem handResult_poll (r : JobResult) (s : State) :
    (handResult r s).reader.pollMs = s.reader.pollMs ∧ (handResult r s).reader.pollFrom = s.reader.pollFrom := by
  unfold handResult
  dsimp only
  split
  · exact ⟨rfl, rfl⟩
  · exact nextBlockWrite_poll _

theorem finishJob_poll (kind : JobKind) (r : JobResult) (s : State) : (finishJob kind r s).reader.pollMs = s.reader.pollMs ∧
    (finishJob kind r s).reader.pollFrom = s.reader.pollFrom := by
  unfold finishJob
  split
  · exact ⟨rfl, rfl⟩
  · exact handResult_poll r s

/-- A short job's end moves of the pages the mark alone. -/
theorem finishJob_pages (kind : JobKind) (r : JobResult) (s : State) :
    ∃ mark, (finishJob kind r s).pages = { s.pages with mark := mark } := by
  unfold finishJob
  split
  · exact ⟨_, rfl⟩
  · exact ⟨s.pages.mark, handResult_pages r s⟩

theorem finishJob_purposes (kind : JobKind) (r : JobResult) (s : State) : ∀ y ∈ (finishJob kind r s).port.control,
    (∃ x ∈ s.port.control, x.purpose = y.purpose) ∨ y.purpose = .blockWrite ∨ y.purpose = .resultCode := by
  unfold finishJob
  split
  · exact fun y mem => .inl ⟨y, mem, rfl⟩
  · exact handResult_purposes r s

/-! ## The attention mode (R191) -/

theorem setAttention_same {mode : AttentionMode} (same : mode = s.notices.mode) : setAttention mode s = s := by
  subst same
  unfold setAttention
  cases s.notices.mode <;> rfl

theorem setAttention_toPulse (level : s.notices.mode = .level) : setAttention .pulse s = s.setNotices { s.notices with
    mode := .pulse, attn := decide (unmasked s.notices ≠ 0),
    pulseEnd := if unmasked s.notices ≠ 0 then some (s.now + 64000) else none } := by
  unfold setAttention
  rw [level]
  dsimp only
  rw [show unmasked { s.notices with mode := .pulse, attn := false, pulseEnd := none } = unmasked s.notices from rfl]
  by_cases some_ : unmasked s.notices ≠ 0
  · rw [if_pos some_, if_pos some_, decide_eq_true some_]
    rfl
  · rw [if_neg some_, if_neg some_, decide_eq_false some_]

theorem setAttention_toLevel (pulse : s.notices.mode = .pulse) : setAttention .level s = s.setNotices { s.notices with
    mode := .level, attn := decide (unmasked s.notices ≠ 0), pulseEnd := none } := by
  unfold setAttention
  rw [pulse]
  rfl

theorem setAttention_keeps (mode : AttentionMode) (s : State) :
    (setAttention mode s).notices.mode = mode ∧ (setAttention mode s).notices.pending = s.notices.pending ∧
    (setAttention mode s).notices.mask = s.notices.mask := by
  by_cases same : mode = s.notices.mode
  · rw [setAttention_same same]
    exact ⟨same.symm, rfl, rfl⟩
  · cases before : s.notices.mode <;> cases mode
    · exact absurd before.symm same
    · rw [setAttention_toPulse before]
      exact ⟨rfl, rfl, rfl⟩
    · rw [setAttention_toLevel before]
      exact ⟨rfl, rfl, rfl⟩
    · exact absurd before.symm same

/-! ## The table accepted (R89, R102, R178) -/

section Accepted

variable (a c poll mode : Nat) (s : State)

/-- The table has been taken, and the mode is still to be set. -/
def tableTaken : State :=
  ((giveUp .descriptorRead s).setPages (s.pages.atSetup a c)).setReader { s.reader with pollMs := poll, pollFrom := s.now }

theorem acceptTable_eq : acceptTable a c poll mode s = setAttention (attentionOf mode) (tableTaken a c poll s) := rfl

theorem acceptTable_beside : OnlyIn (fields [.notices]) (tableTaken a c poll s) (acceptTable a c poll mode s) := by
  rw [acceptTable_eq]
  exact (setAttention_acts _ (Acts.refl _ _) rfl).only

theorem acceptTable_onlyIn : OnlyIn (fields [.reader, .port, .pages, .notices]) s (acceptTable a c poll mode s) :=
  (acceptTable_acts a c poll mode (Acts.refl _ s) rfl rfl rfl rfl).only

theorem acceptTable_pages : (acceptTable a c poll mode s).pages = s.pages.atSetup a c :=
  acceptTable_beside a c poll mode s .pages rfl

theorem acceptTable_reader : (acceptTable a c poll mode s).reader = { s.reader with pollMs := poll, pollFrom := s.now } :=
  acceptTable_beside a c poll mode s .reader rfl

theorem acceptTable_control : ∀ y ∈ (acceptTable a c poll mode s).port.control, y.purpose ≠ .descriptorRead := by
  rw [show (acceptTable a c poll mode s).port = (giveUp .descriptorRead s).port from acceptTable_beside a c poll mode s .port rfl]
  exact giveUp_withdraws _ s

end Accepted

/-- The notices after the mode has been set (R191). -/
structure ModeSet (code now : Nat) (before after : Notices) : Prop where
  mode    : after.mode = (if code = 0 then .level else .pulse)
  pending : after.pending = before.pending
  mask    : after.mask = before.mask
  same    : after.mode = before.mode → after = before
  toPulse : before.mode = .level → code = 1 →
    after.attn = decide (unmasked before ≠ 0) ∧ after.pulseEnd = if unmasked before ≠ 0 then some (now + 64000) else none
  toLevel : before.mode = .pulse → code = 0 → after.attn = decide (unmasked before ≠ 0) ∧ after.pulseEnd = none

theorem setAttention_modeSet (mode : Nat) (s : State) :
    ModeSet mode s.now s.notices (setAttention (attentionOf mode) s).notices := by
  obtain ⟨set, pending, mask⟩ := setAttention_keeps (attentionOf mode) s
  refine ⟨set, pending, mask, fun same => ?_, fun level one => ?_, fun pulse zero => ?_⟩
  · rw [setAttention_same (set.symm.trans same)]
  · rw [one, show attentionOf 1 = .pulse from rfl, setAttention_toPulse level]
    exact ⟨rfl, rfl⟩
  · rw [zero, show attentionOf 0 = .level from rfl, setAttention_toLevel pulse]
    exact ⟨rfl, rfl⟩

theorem acceptTable_modeSet (a c poll mode : Nat) (s : State) :
    ModeSet mode s.now s.notices (acceptTable a c poll mode s).notices := setAttention_modeSet mode (tableTaken a c poll s)

/-- What SETUP's end leaves of an accepted table: the table, the poll interval, no read of the ended pass, the mode. -/
theorem finishJob_acceptTable (kind : JobKind) (r : JobResult) (a c poll mode : Nat) (kept : s.reader.writeBackLost = false) :
    Finishes kind r s.seals s.staging.nextSeq (finishJob kind r (acceptTable a c poll mode s)) ∧
    (∃ mark, (finishJob kind r (acceptTable a c poll mode s)).pages = { s.pages.atSetup a c with mark := mark }) ∧
    (finishJob kind r (acceptTable a c poll mode s)).reader.pollMs = poll ∧
    (finishJob kind r (acceptTable a c poll mode s)).reader.pollFrom = s.now ∧
    (∀ y ∈ (finishJob kind r (acceptTable a c poll mode s)).port.control, y.purpose ≠ .descriptorRead) ∧
    ModeSet mode s.now s.notices (finishJob kind r (acceptTable a c poll mode s)).notices ∧
    OnlyIn (fields [.job, .reader, .port, .pages, .notices]) s (finishJob kind r (acceptTable a c poll mode s)) := by
  have reader := acceptTable_reader a c poll mode s
  have accepted := acceptTable_onlyIn a c poll mode s
  have keptThere : (acceptTable a c poll mode s).reader.writeBackLost = false := by rw [reader]; exact kept
  have ended := finishJob_onlyIn (kind := kind) (r := r) keptThere
  obtain ⟨mark, pages⟩ := finishJob_pages kind r (acceptTable a c poll mode s)
  obtain ⟨pollMs, pollFrom⟩ := finishJob_poll kind r (acceptTable a c poll mode s)
  rw [reader] at pollMs pollFrom
  refine ⟨?_, ⟨mark, by rw [pages, acceptTable_pages]⟩, pollMs, pollFrom, fun y mem => ?_, ?_,
    (accepted.widen (by decide)).trans (ended.widen (by decide))⟩
  · have done := finishJob_finishes (kind := kind) (r := r) keptThere
    rw [State.seals, reader, accepted .staging rfl] at done
    exact done
  · rcases finishJob_purposes kind r _ y mem with ⟨x, before, same⟩ | block | code
    · rw [← same]
      exact acceptTable_control a c poll mode s x before
    · rw [block]
      decide
    · rw [code]
      decide
  · rw [show (finishJob kind r (acceptTable a c poll mode s)).notices = _ from ended .notices rfl]
    exact acceptTable_modeSet a c poll mode s

/-- Settles O30: the checks in their numbered order, PAGE-OPEN, and otherwise the fresh table. -/
theorem setupTaken : Obligations.SetupTaken := by
  unfold Obligations.SetupTaken
  rintro m s _ t rest a c poll mode awaits rfl ha hc hp hm
  have kept := awaits.kept m
  have event := exec_jobCommand_eq m t rest awaits
  have items := setupItems_numbered a c poll mode
  refine ⟨fun n bad => ⟨_, event, ?_⟩, fun aligned low fits many few polls modes => ?_⟩
  · have fails : firstFailure (setupItems a c poll mode) = some n := by
      refine (firstFailure_some_iff items).2 ?_
      rcases bad with ⟨rfl, bad⟩ | ⟨rfl, bad⟩ | ⟨rfl, bad⟩ | ⟨rfl, bad⟩
      all_goals
        refine ⟨by decide, by show _ < 5; decide, by simp only [setupItem]; omega, fun i from_ upTo => ?_⟩
        have one : i = 1 ∨ i = 2 ∨ i = 3 := by omega
        rcases one with rfl | rfl | rfl <;> (simp only [setupItem]; omega)
    rw [takeJob, takeSetup_refused (s := dispatched m t rest s) ha hc hp hm fails]
    exact handResult_refuses _ kept
  · have passes : firstFailure (setupItems a c poll mode) = none := by
      refine (firstFailure_none_iff items).2 fun i from_ upTo => ?_
      replace upTo : i < 5 := upTo
      have one : i = 1 ∨ i = 2 ∨ i = 3 ∨ i = 4 := by omega
      rcases one with rfl | rfl | rfl | rfl <;> (simp only [setupItem]; omega)
    refine ⟨fun page => ⟨_, openDetail (dispatched m t rest s), event, ?_⟩, fun page => ⟨_, event, ?_⟩⟩
    · rw [takeJob, takeSetup_pageOpen (s := dispatched m t rest s) ha hc hp hm passes (by rw [dispatched_pages]; exact page)]
      have done := finishOpen_finishes (s := dispatched m t rest s) .setup .pageOpen kept
      rw [dispatched_staging] at done
      exact ⟨done, (finishJob_poll ..).1, finishOpen_onlyIn .setup .pageOpen kept⟩
    · rw [takeJob, takeSetup_accepted (s := dispatched m t rest s) ha hc hp hm passes (by rw [dispatched_pages]; exact page)]
      obtain ⟨done, ⟨mark, pages⟩, pollMs, pollFrom, control, modes, only⟩ :=
        finishJob_acceptTable (s := dispatched m t rest s) .setup ⟨.none, 0, []⟩ a c poll mode kept
      rw [dispatched_notices] at modes
      rw [dispatched_staging] at done
      rw [dispatched_pages] at pages
      rw [pages]
      exact ⟨done, rfl, rfl, rfl, page, rfl, rfl, rfl, rfl, rfl, rfl, pollMs, pollFrom, control, modes.mode, modes.pending,
        modes.mask, modes.same, modes.toPulse, modes.toLevel, only⟩

end Sys2Proof.Machine


/-! PROOFS. Bytes laid out one field behind the other (R192): where each field is read back, and what is left behind the
last. -/

namespace Sys2Proof.Machine

variable {a b : List Byte} {k n o v : Nat}

/-! ## Values read back -/

theorem fromLe_zeros (n : Nat) : fromLe (zeros n) = 0 := by
  induction n with
  | zero => rfl
  | succ n ih =>
    show (0 : Byte).toNat + 256 * fromLe (zeros n) = 0
    rw [ih]
    rfl

theorem fromLe_ones (n : Nat) : fromLe (List.replicate n 255) = 2 ^ (8 * n) - 1 := by
  induction n with
  | zero => rfl
  | succ n ih =>
    have pos : 0 < 2 ^ (8 * n) := Nat.two_pow_pos _
    have grow : 2 ^ (8 * (n + 1)) = 256 * 2 ^ (8 * n) := (Nat.pow_add 2 (8 * n) 8).trans (Nat.mul_comm _ _)
    show (255 : Byte).toNat + 256 * fromLe (List.replicate n 255) = _
    rw [ih, grow]
    show 255 + 256 * (2 ^ (8 * n) - 1) = _
    omega

/-- A field that may be none reads back as it is stored. -/
theorem fromLe_leOption_any (n : Nat) (v : Option Nat) : fromLe (leOption n v) = storedAs n v := by
  cases v with
  | none => exact fromLe_ones n
  | some x => exact fromLe_leBytes n x

/-- A field that lies in the first part of joined bytes is found there. -/
theorem field_within (h : o + n ≤ a.length) : field (a ++ b) o n = field a o n := by
  unfold field
  rw [List.drop_append_of_le_length (by omega), List.take_append_of_le_length (by rw [List.length_drop]; omega)]

theorem field_whole (h : a.length = n) : field a 0 n = fromLe a := by
  unfold field
  rw [List.drop_zero, List.take_of_length_le (Nat.le_of_eq h)]

theorem drop_past (h : a.length = k) (ho : k ≤ o) : (a ++ b).drop o = b.drop (o - k) := by
  rw [List.drop_append, List.drop_of_length_le (by omega), h]
  rfl

/-! ## The parts of a layout -/

@[simp] theorem leOption_length_any (n : Nat) (v : Option Nat) : (leOption n v).length = n := leOption_length n v

@[simp] theorem leSigned_length (n : Nat) (v : Int) : (leSigned n v).length = n := leBytes_length ..

@[simp] theorem slotBytes_length (sl : Option Slot) : (slotBytes sl).length = 8 := by
  cases sl <;> simp [slotBytes]

@[simp] theorem field_le_here : field (leBytes n v ++ b) 0 n = v % 2 ^ (8 * n) :=
  (field_first _ _ _ (leBytes_length ..)).trans (fromLe_leBytes n v)

@[simp] theorem field_le_whole : field (leBytes n v) 0 n = v % 2 ^ (8 * n) :=
  (field_whole (leBytes_length ..)).trans (fromLe_leBytes n v)

@[simp] theorem field_le_past (h : k ≤ o) : field (leBytes k v ++ b) o n = field b (o - k) n :=
  field_past _ _ _ _ _ (leBytes_length ..) h

@[simp] theorem field_zeros_here : field (zeros n ++ b) 0 n = 0 :=
  (field_first _ _ _ (zeros_length n)).trans (fromLe_zeros n)

@[simp] theorem field_zeros_whole : field (zeros n) 0 n = 0 := (field_whole (zeros_length n)).trans (fromLe_zeros n)

@[simp] theorem field_zeros_past (h : k ≤ o) : field (zeros k ++ b) o n = field b (o - k) n :=
  field_past _ _ _ _ _ (zeros_length k) h

@[simp] theorem field_option_here (x : Option Nat) : field (leOption n x ++ b) 0 n = storedAs n x :=
  (field_first _ _ _ (leOption_length ..)).trans (fromLe_leOption_any n x)

@[simp] theorem field_option_past (x : Option Nat) (h : k ≤ o) : field (leOption k x ++ b) o n = field b (o - k) n :=
  field_past _ _ _ _ _ (leOption_length ..) h

@[simp] theorem field_slot_past (x : Option Slot) (h : 8 ≤ o) : field (slotBytes x ++ b) o n = field b (o - 8) n :=
  field_past _ _ _ _ _ (slotBytes_length x) h

@[simp] theorem drop_le_past (h : k ≤ o) : (leBytes k v ++ b).drop o = b.drop (o - k) := drop_past (leBytes_length ..) h

@[simp] theorem drop_zeros_past (h : k ≤ o) : (zeros k ++ b).drop o = b.drop (o - k) := drop_past (zeros_length k) h

@[simp] theorem drop_option_past (x : Option Nat) (h : k ≤ o) : (leOption k x ++ b).drop o = b.drop (o - k) :=
  drop_past (leOption_length ..) h

@[simp] theorem drop_slot_past (x : Option Slot) (h : 8 ≤ o) : (slotBytes x ++ b).drop o = b.drop (o - 8) :=
  drop_past (slotBytes_length x) h

/-- A signed value's low bytes read back as its remainder (R192). -/
theorem field_signed (n : Nat) (x : Int) : (field (leSigned n x) 0 n : Int) = x % (2 ^ (8 * n) : Nat) := by
  have pos : (0 : Int) < (2 ^ (8 * n) : Nat) := Int.ofNat_lt.2 (Nat.two_pow_pos _)
  have low := Int.emod_nonneg x (Int.ne_of_gt pos)
  have high := Int.emod_lt_of_pos x pos
  unfold leSigned
  rw [field_le_whole, Nat.mod_eq_of_lt (by omega)]
  omega

/-! ## A slot in the snapshot (R158, R199) -/

theorem field_slot_none : field (slotBytes none ++ b) 0 8 = 0 := field_zeros_here

/-- The fields of a valid slot in the snapshot. -/
theorem field_slot_some (x : Slot) :
    field (slotBytes (some x) ++ b) 0 1 = 1 ∧ field (slotBytes (some x) ++ b) 1 1 = x.bound % 2 ^ 8 ∧
    field (slotBytes (some x) ++ b) 2 2 = 0 ∧ (field (slotBytes (some x) ++ b) 4 4 : Int) = x.offset % 2 ^ 32 := by
  have signed : field (slotBytes (some x) ++ b) 4 4 = field (leSigned 4 x.offset) 0 4 := by
    rw [field_within (by simp)]
    simp [slotBytes, List.append_assoc]
  refine ⟨?_, ?_, ?_, ?_⟩
  · simp [slotBytes, List.append_assoc]
  · simp [slotBytes, List.append_assoc]
  · simp [slotBytes, List.append_assoc]
  · rw [signed, field_signed]
    rfl

end Sys2Proof.Machine


/-! PROOFS. The dispatch by kind (R174, R193 to R195), and PROFILE and REPORT (R152 to R159). -/

namespace Sys2Proof.Machine

variable {s t u v : State} {r : JobResult} {kind : JobKind}

/-! ## The reported state (R165) -/

section Reported

variable (m : Moment) (t : Transfer) (rest : List Outstanding) (s : State)

/-- What the report of a completion may have touched before its requester acts. -/
theorem reported_beside :
    OnlyIn (fields [.time, .angle, .azimuth, .rest, .issueSlot, .rstin, .out, .port]) s (reported m t rest s) :=
  ((observe_onlyIn m s).widen (by decide)).trans ((reported_onlyIn m t rest s).widen (by decide))

@[simp] theorem reported_job : (reported m t rest s).job = s.job := reported_beside m t rest s .job rfl

@[simp] theorem reported_jobSerial : (reported m t rest s).jobSerial = s.jobSerial := reported_beside m t rest s .jobSerial rfl

@[simp] theorem reported_reader : (reported m t rest s).reader = s.reader := reported_beside m t rest s .reader rfl

@[simp] theorem reported_pages : (reported m t rest s).pages = s.pages := reported_beside m t rest s .pages rfl

@[simp] theorem reported_staging : (reported m t rest s).staging = s.staging := reported_beside m t rest s .staging rfl

@[simp] theorem reported_loss : (reported m t rest s).loss = s.loss := reported_beside m t rest s .loss rfl

@[simp] theorem reported_notices : (reported m t rest s).notices = s.notices := reported_beside m t rest s .notices rfl

@[simp] theorem reported_slots : (reported m t rest s).slots = s.slots := reported_beside m t rest s .slots rfl

@[simp] theorem reported_photo : (reported m t rest s).photo = s.photo := reported_beside m t rest s .photo rfl

@[simp] theorem reported_camera : (reported m t rest s).camera = s.camera := reported_beside m t rest s .camera rfl

@[simp] theorem reported_turntable : (reported m t rest s).turntable = s.turntable :=
  reported_beside m t rest s .turntable rfl

@[simp] theorem reported_markWait : (reported m t rest s).markWait = s.markWait := reported_beside m t rest s .markWait rfl

@[simp] theorem reported_seals : (reported m t rest s).seals = s.seals := by
  unfold State.seals
  rw [reported_reader]

@[simp] theorem reported_azimuth : (reported m t rest s).azimuth = m.azimuth := reported_onlyIn m t rest s .azimuth rfl

end Reported

/-! ## The block's operands (R193 to R195) -/

theorem field_drop (y : List Byte) (k o n : Nat) : field (y.drop k) o n = field y (k + o) n := by
  unfold field
  rw [List.drop_drop]

theorem stationsOf_length (y : List Byte) {n : Nat} (few : n ≤ 16) : (stationsOf y n).length = n := by
  unfold stationsOf
  rw [List.length_map, List.length_range, Nat.min_eq_left few]

theorem stationsOf_getElem (y : List Byte) {n i : Nat} (few : n ≤ 16) (within : i < n) :
    (stationsOf y n)[i]? = some ⟨field y (0x80 + 24 * i) 8, field y (0x88 + 24 * i) 4, field y (0x8C + 24 * i) 4,
      field y (0x90 + 24 * i) 4, field y (0x94 + 24 * i) 1⟩ := by
  unfold stationsOf
  rw [List.getElem?_map, List.getElem?_range (by omega)]
  unfold stationAt
  simp only [Option.map_some, field_drop, Option.some_inj, Station.mk.injEq]
  refine ⟨rfl, ?_, ?_, ?_, ?_⟩ <;> congr 1 <;> omega

/-! ## Which row dispatches (log 4) -/

theorem completeOldest_other {q : Requester} {which : Purpose → Bool} (none_ : ∀ p, which p = false) (id : Nat)
    (data : List Byte) (s : State) : completeOldest q id which data s = s := by
  unfold completeOldest
  split
  · rw [if_neg (by rw [none_]; simp)]
  · rfl

theorem exec_jobCommand (k : JobKind) (m : Moment) (s : State) :
    exec (jobCommand k m) s = .next (dispatchEvent k m.transfer (observe m s)) := by
  cases k <;> rfl

/-- The row of the block's kind is the completion of the TAKEN write. -/
theorem takenWriteComplete_eq {k : JobKind} (block : s.blockJob = some k) (m : Moment) :
    exec (.takenWriteComplete m) s = exec (jobCommand k m) s := by
  have same : (fun p => decide (p = Purpose.takenWrite) && decide ((observe m s).blockJob = some k)) =
      fun p => decide (p = Purpose.takenWrite) := by
    rw [show (observe m s).blockJob = some k from block]
    simp
  rw [exec_jobCommand, dispatchEvent, same]
  rfl

theorem jobCommand_other {k k' : JobKind} (block : s.blockJob = some k) (other : k' ≠ k) (m : Moment) :
    exec (jobCommand k' m) s = .next (observe m s) := by
  rw [exec_jobCommand]
  refine next_congr (completeOldest_other (fun p => ?_) ..)
  rw [show (observe m s).blockJob = some k from block]
  simp [Ne.symm other]

/-- Settles O35. -/
theorem takenWriteDispatchesByKind : Obligations.TakenWriteDispatchesByKind := by
  unfold Obligations.TakenWriteDispatchesByKind
  refine ⟨fun y => ⟨rfl, rfl, rfl, rfl, rfl, rfl, rfl, rfl, rfl, rfl, rfl, rfl, rfl, rfl, rfl, rfl, rfl, rfl, rfl, rfl,
    fun n few => ⟨stationsOf_length y few, fun i => stationsOf_getElem y few⟩⟩, rfl,
    fun m s k block => ⟨takenWriteComplete_eq block m, fun k' other => jobCommand_other block other m⟩, ?_⟩
  rintro m s _ k t rest awaits rfl
  have ⟨_, _, block, _⟩ := awaits
  exact ⟨(takenWriteComplete_eq block m).trans (exec_jobCommand_eq m t rest awaits), rfl, rfl⟩

/-! ## The profile image (R148, R153, R197) -/

theorem toSigned_of_lt {n v : Nat} (pos : 0 < n) (small : v < 2 ^ (8 * n)) :
    (v : Int) = toSigned n v % (2 ^ (8 * n) : Nat) ∧ -(2 ^ (8 * n - 1) : Nat) ≤ toSigned n v ∧
    toSigned n v < (2 ^ (8 * n - 1) : Nat) := by
  have half : 2 ^ (8 * n) = 2 * 2 ^ (8 * n - 1) := by
    rw [← Nat.pow_succ', Nat.succ_eq_add_one, Nat.sub_add_cancel (by omega)]
  unfold toSigned
  split
  next low => exact ⟨by rw [Int.emod_eq_of_lt (by omega) (by omega)], by omega, by omega⟩
  next high =>
    refine ⟨?_, by omega, by omega⟩
    rw [Int.sub_emod_right, Int.emod_eq_of_lt (by omega) (by omega)]

theorem fromLe_lt (l : List Byte) : fromLe l < 2 ^ (8 * l.length) := by
  induction l with
  | nil => exact Nat.one_pos
  | cons x xs ih =>
    have grow : 2 ^ (8 * (xs.length + 1)) = 256 * 2 ^ (8 * xs.length) :=
      (Nat.pow_add 2 (8 * xs.length) 8).trans (Nat.mul_comm _ _)
    have byte := x.isLt
    rw [List.length_cons, grow]
    unfold fromLe
    omega

theorem field_lt (y : List Byte) (o n : Nat) : field y o n < 2 ^ (8 * n) :=
  Nat.lt_of_lt_of_le (fromLe_lt _) (Nat.pow_le_pow_right (by decide) (by rw [List.length_take]; omega))

theorem profileItems_numbered (p : Profile) : Numbered (profileItem p) 3 p.checks := by
  have top : ∀ n : Nat, n < revolution ↔ n ≤ 4194303 := fun n => Nat.lt_succ_iff
  simp [Numbered, Profile.checks, profileItem, top]

theorem getElem?_of_range {α : Type} (f : Nat → α) {n i : Nat} (within : i < n) :
    ((List.range n).map f)[i]? = some (f i) := by
  rw [List.getElem?_map, List.getElem?_range within]
  rfl

theorem foldl_min_eq {l : List Nat} {low x : Nat} (lowest : ∀ y ∈ l, low ≤ y) (le : low ≤ x) (found : low ∈ l ∨ low = x) :
    l.foldl min x = low := by
  induction l generalizing x with
  | nil => exact (found.resolve_left List.not_mem_nil).symm
  | cons y ys ih =>
    have first := lowest y (List.mem_cons_self ..)
    refine ih (fun z mem => lowest z (List.mem_cons_of_mem _ mem)) (by omega) ?_
    rcases found with mem | same
    · rcases List.mem_cons.1 mem with here | later
      · exact .inr (by omega)
      · exact .inl later
    · exact .inr (by omega)

theorem minJitter_eq {p : Profile} {least : Nat} (mem : least ∈ p.jitter) (lowest : ∀ x ∈ p.jitter, least ≤ x)
    (small : least ≤ 16383) : p.minJitter = least := foldl_min_eq lowest small (.inl mem)

/-- The in-flight bound is the least number of shots that cover the listening time (R108). -/
theorem ceilDiv_bounds (a : Nat) {b : Nat} (pos : 1 ≤ b) : a ≤ ceilDiv a b * b ∧ ceilDiv a b * b < a + b := by
  unfold ceilDiv
  have split := Nat.div_add_mod (a + b - 1) b
  have small := Nat.mod_lt (a + b - 1) pos
  rw [Nat.mul_comm] at split
  omega

/-! ## PROFILE (R152 to R154) -/

theorem takeProfile_badSlot (bad : 3 < profileSlot s.reader.block) : takeProfile s = handResult ⟨.badParam, 1, []⟩ s :=
  if_pos bad

theorem takeProfile_badSource (slot : profileSlot s.reader.block ≤ 3)
    (bad : profileSource s.reader.block % 64 ≠ 0 ∨ 2 ^ 48 < profileSource s.reader.block + 192) :
    takeProfile s = handResult ⟨.badParam, 2, []⟩ s := (if_neg (Nat.not_lt_of_le slot)).trans (if_pos bad)

/-- An address below the top of the address space is its own (R162). -/
theorem addrOf_small {n : Nat} (h : n < 2 ^ 48) : addrOf n = BitVec.ofNat 48 n := if_pos h

theorem takeProfile_reads (slot : profileSlot s.reader.block ≤ 3) (aligned : profileSource s.reader.block % 64 = 0)
    (within : profileSource s.reader.block + 192 ≤ 2 ^ 48) : takeProfile s = { s with
      job := some (.profileRead (profileSlot s.reader.block) (profileSource s.reader.block)),
      port := s.port.request ⟨.chain, .profileRead, false, BitVec.ofNat 48 (profileSource s.reader.block), 192, [], [],
        true⟩ } := by
  have asks : takeProfile s = request (readTransfer .chain .profileRead (profileSource s.reader.block) 192)
      (s.setJob (some (.profileRead (profileSlot s.reader.block) (profileSource s.reader.block)))) :=
    (if_neg (Nat.not_lt_of_le slot)).trans (if_neg (by
      show ¬ (_ ∨ 2 ^ 48 < profileSource s.reader.block + 192)
      omega))
  rw [asks, ← addrOf_small (by omega)]
  rfl

/-- The store with an image in its buffer. -/
def Slots.buffered (x : Slots) (data : List Byte) : Slots := { x with buffer := data }

theorem Slots.get_buffered (x : Slots) (data : List Byte) (i : Nat) : (x.buffered data).get i = x.get i := by
  unfold Slots.get
  split <;> rfl

theorem Slots.set_buffer (x : Slots) (i : Nat) (new : Slot) : (x.set i new).buffer = x.buffer := by
  unfold Slots.set
  split <;> rfl

theorem Slots.get_set {x : Slots} {i : Nat} (new : Slot) (within : i ≤ 3) : (x.set i new).get i = some new := by
  have one : i = 0 ∨ i = 1 ∨ i = 2 ∨ i = 3 := by omega
  rcases one with rfl | rfl | rfl | rfl <;> rfl

section ReadDone

variable {slot src : Nat} {data : List Byte} (run : s.job = some (.profileRead slot src))
include run

theorem profileReadDone_fails {n : Nat} (bad : firstFailure (profileOf data).checks = some n) :
    profileReadDone data s = finishJob .profile ⟨.badParam, n, []⟩ (s.setSlots (s.slots.buffered data)) := by
  unfold profileReadDone
  rw [run, bad]
  rfl

theorem profileReadDone_loads (good : firstFailure (profileOf data).checks = none) :
    profileReadDone data s = finishJob .profile ⟨.none, 0, []⟩
      (s.setSlots ((s.slots.buffered data).set slot (profileOf data).load)) := by
  unfold profileReadDone
  rw [run, good]
  rfl

end ReadDone

/-- A PROFILE job that ends with the store in a new state. -/
theorem finishJob_setSlots (kind : JobKind) (r : JobResult) (x : Slots) (kept : s.reader.writeBackLost = false) :
    Finishes kind r s.seals s.staging.nextSeq (finishJob kind r (s.setSlots x)) ∧
    (finishJob kind r (s.setSlots x)).slots = x ∧
    OnlyIn (fields [.slots, .job, .reader, .port, .pages]) s (finishJob kind r (s.setSlots x)) := by
  have moved : OnlyIn (fields [.slots]) s (s.setSlots x) := (setSlots_acts x (Acts.refl _ s) rfl).only
  have ended : OnlyIn (fields [.job, .reader, .port, .pages]) (s.setSlots x) (finishJob kind r (s.setSlots x)) :=
    finishJob_onlyIn kept
  exact ⟨finishJob_finishes (s := s.setSlots x) kept, ended .slots rfl, (moved.widen (by decide)).trans (ended.widen (by decide))⟩

/-- Settles O31. -/
theorem profileLoaded : Obligations.ProfileLoaded := by
  unfold Obligations.ProfileLoaded
  refine ⟨?image, fun p n => ?checks, fun p least mem lowest small pos => ?bound, ?taken, ?read⟩
  case image =>
    rintro y _ rfl
    obtain ⟨offset, low, high⟩ := toSigned_of_lt (n := 4) (by decide) (field_lt y 0x14 4)
    refine ⟨rfl, rfl, rfl, rfl, rfl, rfl, rfl, rfl, rfl, rfl, rfl, rfl, offset, low, high, rfl, fun i within => ?_, rfl,
      fun i within => ?_⟩
    · exact getElem?_of_range (fun i => field y (0x30 + 2 * i) 2) within
    · obtain ⟨value, least, most⟩ := toSigned_of_lt (n := 2) (by decide) (field_lt y (0x50 + 2 * i) 2)
      exact ⟨_, getElem?_of_range (fun i => signedField y (0x50 + 2 * i) 2) within, value, least, most⟩
  case checks =>
    rw [firstFailure_some_iff (profileItems_numbered p)]
    exact and_congr_right fun _ => and_congr_left fun _ => Nat.lt_succ_iff
  case bound =>
    have smallest := minJitter_eq mem lowest small
    unfold Profile.inFlightBound
    rw [smallest]
    exact ceilDiv_bounds _ pos
  case taken =>
    rintro m s _ t rest _ _ awaits rfl rfl rfl
    have kept := awaits.kept m
    have event := exec_jobCommand_eq m t rest awaits
    refine ⟨fun n bad => ⟨_, event, ?_⟩, fun slot aligned within => event.trans (next_congr (congrArg advancePages ?_))⟩
    · rcases bad with ⟨rfl, bad⟩ | ⟨rfl, slot, bad⟩
      · rw [takeJob, takeProfile_badSlot (s := dispatched m t rest s) bad]
        exact handResult_refuses _ kept
      · rw [takeJob, takeProfile_badSource (s := dispatched m t rest s) slot bad]
        exact handResult_refuses _ kept
    · exact takeProfile_reads (s := dispatched m t rest s) slot aligned within
  case read =>
    rintro m s _ t rest data slot src run kept chain purpose awaits rfl
    have event : exec (.profileReadComplete m data) s = .next (advancePages (profileReadDone data (reported m t rest s))) := by
      have report := completeOldest_chain m.transfer m s t rest awaits chain (fun p => decide (p = .profileRead))
        (decide_eq_true purpose) data
      rw [purpose] at report
      exact next_congr report
    have keptThere : (reported m t rest s).reader.writeBackLost = false := by rw [reported_reader]; exact kept
    have running : (reported m t rest s).job = some (.profileRead slot src) := (reported_job m t rest s).trans run
    refine ⟨_, event, ?_⟩
    cases checked : firstFailure (profileOf data).checks with
    | some n =>
      obtain ⟨done, slots, only⟩ := finishJob_setSlots .profile ⟨.badParam, n, []⟩
        ((reported m t rest s).slots.buffered data) keptThere
      rw [← profileReadDone_fails running checked, reported_seals, reported_staging] at done
      rw [← profileReadDone_fails running checked] at slots only
      rw [reported_slots] at slots
      refine ⟨by rw [slots]; rfl, fun k same => ?_, nofun, only⟩
      cases same
      exact ⟨done, fun i => by rw [slots, Slots.get_buffered]⟩
    | none =>
      obtain ⟨done, slots, only⟩ := finishJob_setSlots .profile ⟨.none, 0, []⟩
        (((reported m t rest s).slots.buffered data).set slot (profileOf data).load) keptThere
      rw [← profileReadDone_loads running checked, reported_seals, reported_staging] at done
      rw [← profileReadDone_loads running checked] at slots only
      rw [reported_slots] at slots
      have bound : (profileOf data).inFlightBound ≤ 32 :=
        (firstFailure_none_iff (profileItems_numbered _)).1 checked 18 (by decide) (by show 18 < 19; decide)
      refine ⟨by rw [slots, Slots.set_buffer]; rfl, nofun, fun _ => ⟨done, fun i other => ?_, fun within => ?_, bound⟩, only⟩
      · rw [slots, Slots.get_set_of_ne _ _ other, Slots.get_buffered]
      · rw [slots, Slots.get_set _ within]
        rfl

end Sys2Proof.Machine


/-! PROOFS. REPORT (R157 to R159, R199): the snapshot's bytes, and the job that writes them. -/

namespace Sys2Proof.Machine

variable {s t u v : State}

/-! ## The snapshot (R158, R199) -/

theorem snapshotBytes_length (s : State) : (snapshotBytes s).length = 256 := by
  unfold snapshotBytes
  simp only [List.length_append, leBytes_length, zeros_length, slotBytes_length]

/-- What the snapshot says of a slot at place `i`. -/
theorem snapshot_slot (s : State) {i : Nat} (within : i < 4) :
    ∃ more, (snapshotBytes s).drop (0x20 + 8 * i) = slotBytes (s.slots.get i) ++ more := by
  have one : i = 0 ∨ i = 1 ∨ i = 2 ∨ i = 3 := by omega
  rcases one with rfl | rfl | rfl | rfl
  all_goals
    unfold snapshotBytes
    simp only [List.append_assoc, drop_le_past, drop_zeros_past, drop_slot_past, Nat.reduceMul, Nat.reduceAdd,
      Nat.reduceLeDiff, Nat.reduceSub, List.drop_zero]
    exact ⟨_, rfl⟩

theorem code_mod {c top n : Nat} (small : c ≤ top) (fits : top < n) : c % n = c := Nat.mod_eq_of_lt (by omega)

theorem presenceCode_le (x : Presence) : x.code ≤ 3 := by cases x <;> decide

/-- The snapshot's fields before the slots. -/
theorem snapshot_head (s : State) {y : List Byte} (same : y = snapshotBytes s) :
    field y 0x00 2 = 2401 ∧ field y 0x02 2 = 1 ∧ field y 0x04 4 = 0 ∧ field y 0x08 8 = s.now / 64000 ∧
    field y 0x10 1 = s.mirror.state.code ∧ field y 0x11 1 = s.turntable.state.code ∧
    field y 0x12 1 = (if s.emission.asserted then 1 else 0) ∧ field y 0x13 1 = s.camera.presence.code ∧
    field y 0x14 2 = s.mirror.target % 2 ^ 16 ∧ field y 0x16 2 = s.mirror.rate % 2 ^ 16 ∧
    field y 0x18 4 = s.azimuth.toNat ∧ field y 0x1C 4 = 0 := by
  rw [same]
  have time : s.now / 64000 < 2 ^ (8 * 8) := Nat.lt_of_le_of_lt (Nat.div_le_self ..) s.time.isLt
  have azimuth : s.azimuth.toNat < 2 ^ (8 * 4) := Nat.lt_trans s.azimuth.isLt (by decide)
  refine ⟨?_, ?_, ?_, ?_, ?_, ?_, ?_, ?_, ?_, ?_, ?_, ?_⟩
  all_goals
    unfold snapshotBytes
    simp only [List.append_assoc, field_le_past, field_zeros_past, field_le_here, field_zeros_here, Nat.reduceMul,
      Nat.reduceLeDiff, Nat.reduceSub, Nat.le_refl, Nat.sub_self]
  · rfl
  · rfl
  · exact Nat.mod_eq_of_lt time
  · exact code_mod (mirrorCode_le _) (by decide)
  · exact code_mod (turntableCode_le _) (by decide)
  · cases s.emission.asserted <;> rfl
  · exact code_mod (presenceCode_le _) (by decide)
  · exact Nat.mod_eq_of_lt azimuth

/-- The snapshot's fields behind the slots. -/
theorem snapshot_tail (s : State) {y : List Byte} (same : y = snapshotBytes s) :
    field y 0x40 2 = (match s.pages.table with | none => 0 | some t => t.2 % 2 ^ 16) ∧
    field y 0x42 2 = s.pages.nextExamine % 2 ^ 16 ∧
    field y 0x44 1 = (if s.pages.wait then 1 else 0) + (if s.pages.fault then 2 else 0) ∧ field y 0x45 3 = 0 ∧
    field y 0x48 4 = s.pages.sequence % 2 ^ 32 ∧ field y 0x4C 4 = 0 ∧
    field y 0x50 8 = s.counters.shots % 2 ^ 64 ∧ field y 0x58 8 = s.counters.echoes % 2 ^ 64 ∧
    field y 0x60 8 = s.counters.strays % 2 ^ 64 ∧ field y 0x68 8 = s.counters.outside % 2 ^ 64 ∧
    y.drop 0x70 = List.replicate 144 0 := by
  rw [same]
  refine ⟨?_, ?_, ?_, ?_, ?_, ?_, ?_, ?_, ?_, ?_, ?_⟩
  all_goals
    unfold snapshotBytes
    simp only [List.append_assoc, field_le_past, field_zeros_past, field_slot_past, field_le_here, field_zeros_here,
      drop_le_past, drop_zeros_past, drop_slot_past, List.drop_zero, Nat.reduceMul, Nat.reduceLeDiff, Nat.reduceSub,
      Nat.le_refl, Nat.sub_self]
  · cases s.pages.table <;> rfl
  · cases s.pages.wait <;> cases s.pages.fault <;> rfl
  · rfl

/-- The snapshot's fields of a slot. -/
theorem snapshot_slot_fields (s : State) {y : List Byte} (same : y = snapshotBytes s) {i : Nat} (within : i < 4) :
    (s.slots.get i = none → field y (0x20 + 8 * i) 8 = 0) ∧
    (∀ x, s.slots.get i = some x →
      field y (0x20 + 8 * i) 1 = 1 ∧ field y (0x20 + 8 * i + 1) 1 = x.bound % 2 ^ 8 ∧
      field y (0x20 + 8 * i + 2) 2 = 0 ∧ (field y (0x20 + 8 * i + 4) 4 : Int) = x.offset % 2 ^ 32) := by
  rw [same]
  obtain ⟨more, drops⟩ := snapshot_slot s within
  have at_ (o n : Nat) : field (snapshotBytes s) (0x20 + 8 * i + o) n = field (slotBytes (s.slots.get i) ++ more) o n := by
    rw [← drops, field_drop]
  have start (n : Nat) : field (snapshotBytes s) (0x20 + 8 * i) n = field (slotBytes (s.slots.get i) ++ more) 0 n := at_ 0 n
  refine ⟨fun invalid => ?_, fun x valid => ?_⟩
  · rw [start, invalid]
    exact field_slot_none
  · rw [start, at_, at_, at_, valid]
    exact field_slot_some x

/-! ## REPORT (R157, R159) -/

theorem takeReport_refused (bad : reportDest s.reader.block % 64 ≠ 0 ∨ 2 ^ 48 < reportDest s.reader.block + 256) :
    takeReport s = handResult ⟨.badParam, 1, []⟩ s := if_pos bad

theorem takeReport_writes (aligned : reportDest s.reader.block % 64 = 0) (within : reportDest s.reader.block + 256 ≤ 2 ^ 48) :
    takeReport s = { s with
      job := some .reportWrite,
      port := s.port.request ⟨.chain, .reportWrite, true, BitVec.ofNat 48 (reportDest s.reader.block), 256,
        snapshotBytes s, List.replicate 256 true, true⟩ } := by
  have asks : takeReport s = request (writeTransfer .chain .reportWrite (reportDest s.reader.block) (snapshotBytes s))
      (s.setJob (some .reportWrite)) := if_neg (by
    show ¬ (_ ∨ 2 ^ 48 < reportDest s.reader.block + 256)
    omega)
  rw [asks, ← addrOf_small (by omega)]
  unfold writeTransfer maskedTransfer
  rw [snapshotBytes_length]
  rfl

theorem reportWriteDone_of_running (run : s.job = some .reportWrite) :
    reportWriteDone s = finishJob .report ⟨.none, 0, []⟩ s := if_pos run

/-- A write that completes is in memory (R165). -/
theorem reported_out (m : Moment) {t : Transfer} (rest : List Outstanding) (s : State) (write : t.write = true) :
    (reported m t rest s).out = [.inMemory t] := by
  unfold reported landed
  rw [if_pos write]
  rfl

/-- Settles O32. -/
theorem reportWritten : Obligations.ReportWritten := by
  unfold Obligations.ReportWritten
  constructor
  · rintro m s _ t rest _ awaits rfl rfl
    have event := exec_jobCommand_eq m t rest awaits
    refine ⟨fun bad => ⟨_, event, ?_⟩, fun aligned within => ⟨event.trans (next_congr (congrArg advancePages
      (takeReport_writes (s := dispatched m t rest s) aligned within))), fun y same => ?_, rfl⟩⟩
    · rw [takeJob, takeReport_refused (s := dispatched m t rest s) bad]
      exact handResult_refuses _ (awaits.kept m)
    · have length : y.length = 256 := same ▸ snapshotBytes_length _
      have head := snapshot_head _ same
      have slots := fun i within => snapshot_slot_fields _ same (i := i) within
      have tail := snapshot_tail _ same
      simp only [dispatched_mirror, dispatched_turntable, dispatched_emission, dispatched_camera, dispatched_azimuth] at head
      simp only [dispatched_slots] at slots
      simp only [dispatched_pages, dispatched_counters] at tail
      have fields : y.length = 256 ∧ _ ∧ _ ∧ _ := ⟨length, head, slots, tail⟩
      simp only [and_assoc] at fields
      exact fields
  · rintro m s _ t rest run kept chain purpose write awaits rfl
    have report := completeOldest_chain m.transfer m s t rest awaits chain (fun p => decide (p = .reportWrite))
      (decide_eq_true purpose) []
    rw [purpose] at report
    refine ⟨reported_out m rest s write, _, next_congr report, ?_⟩
    rw [completed, reportWriteDone_of_running ((reported_job m t rest s).trans run)]
    have keptThere : (reported m t rest s).reader.writeBackLost = false := by rw [reported_reader]; exact kept
    have done := finishJob_finishes (kind := .report) (r := ⟨.none, 0, []⟩) keptThere
    rw [reported_seals, reported_staging] at done
    exact ⟨done, finishJob_onlyIn keptThere⟩

end Sys2Proof.Machine


/-! PROOFS. SCAN at its dispatch (R108 to R114): the checks, the values at take, and the way to the run-in point. -/

namespace Sys2Proof.Machine

variable {s t u v : State} {p : ScanParams} {longest : Nat}

/-! ## Stations out of range (R108, R139) -/

theorem outOfRange_iff (st : Station) (longest : Nat) : st.outOfRange longest = false ↔ st.inRange longest := by
  have top : st.azimuth < revolution ↔ st.azimuth ≤ 4194303 := Nat.lt_succ_iff
  unfold Station.outOfRange Station.inRange
  simp only [Bool.not_eq_false', Bool.and_eq_true, decide_eq_true_eq, top, and_assoc]

/-- The first bad station, counted from `k`. -/
theorem firstBadStation_some_iff {l : List Station} {k n : Nat} : firstBadStation longest k l = some n ↔
    k ≤ n ∧ (∃ st, l[n - k]? = some st ∧ ¬ st.inRange longest) ∧
      ∀ i st, i < n - k → l[i]? = some st → st.inRange longest := by
  induction l generalizing k with
  | nil => exact iff_of_false nofun fun ⟨_, ⟨_, at_, _⟩, _⟩ => by cases at_
  | cons x xs ih =>
    unfold firstBadStation
    cases bad : x.outOfRange longest with
    | true =>
      have out : ¬ x.inRange longest := fun good => by rw [(outOfRange_iff x longest).2 good] at bad; cases bad
      rw [if_pos rfl, Option.some_inj]
      constructor
      · rintro rfl
        exact ⟨Nat.le_refl _, ⟨x, by rw [Nat.sub_self]; rfl, out⟩, fun i _ low => absurd low (by omega)⟩
      · rintro ⟨low, -, before⟩
        rcases Nat.eq_or_lt_of_le low with same | later
        · exact same
        · exact absurd (before 0 x (by omega) rfl) out
    | false =>
      have good := (outOfRange_iff x longest).1 bad
      rw [if_neg (by decide), ih]
      constructor
      · rintro ⟨low, ⟨st, at_, out⟩, before⟩
        have shift : n - k = n - (k + 1) + 1 := by omega
        refine ⟨by omega, ⟨st, by rw [shift, List.getElem?_cons_succ]; exact at_, out⟩, fun i st low at_ => ?_⟩
        cases i with
        | zero => cases at_; exact good
        | succ i => exact before i st (by omega) at_
      · rintro ⟨low, ⟨st, at_, out⟩, before⟩
        have later : k ≠ n := fun same => by
          rw [same, Nat.sub_self] at at_
          cases at_
          exact out good
        have shift : n - k = n - (k + 1) + 1 := by omega
        rw [shift, List.getElem?_cons_succ] at at_
        exact ⟨by omega, ⟨st, at_, out⟩, fun i st low at_ => before (i + 1) st (by omega) at_⟩

theorem firstBadStation_none {l : List Station} (k : Nat) (good : ∀ st ∈ l, st.inRange longest) :
    firstBadStation longest k l = none := by
  refine Option.eq_none_iff_forall_ne_some.2 fun n found => ?_
  obtain ⟨-, ⟨st, at_, bad⟩, -⟩ := firstBadStation_some_iff.1 found
  exact bad (good st (List.mem_of_getElem? at_))

/-! ## The items of check 1 (R108, R109, R150) -/

theorem sectorMeetsBlind_iff {a b p q : Nat} (sector : a < b) : sectorMeetsBlind a b p q = false ↔
    ∀ x, a ≤ x → x < b → (p < q → x < p ∨ q ≤ x) ∧ (q < p → x < p ∧ q ≤ x) := by
  unfold sectorMeetsBlind
  rcases Nat.lt_trichotomy p q with lt | eq | gt
  · rw [if_pos lt, decide_eq_false_iff_not]
    constructor
    · exact fun apart x low high => ⟨fun _ => by omega, fun other => by omega⟩
    · rintro clear ⟨early, late⟩
      have := (clear (max a p) (by omega) (by omega)).1 lt
      omega
  · rw [if_neg (by omega), if_pos eq]
    exact iff_of_true rfl fun x _ _ => ⟨fun l => by omega, fun l => by omega⟩
  · rw [if_neg (by omega), if_neg (by omega), decide_eq_false_iff_not]
    constructor
    · exact fun apart x low high => ⟨fun other => by omega, fun _ => by omega⟩
    · intro clear meets
      have first := (clear a (by omega) sector).2 gt
      have last := (clear (b - 1) (by omega) (by omega)).2 gt
      omega

theorem sectorAllowed_iff (p : ScanParams) (slot : Option Slot) (target : Nat) :
    sectorAllowed p slot = true ↔ scanItem p slot target 5 := by
  have top : p.sectorStop < revolution ↔ p.sectorStop ≤ 4194303 := Nat.lt_succ_iff
  unfold sectorAllowed scanItem
  rw [Bool.and_eq_true, decide_eq_true_eq, top]
  simp only [and_assoc]
  refine and_congr_right fun _ => and_congr_right fun sector => and_congr_right fun _ => ?_
  cases slot with
  | none => simp
  | some x =>
    rw [Bool.not_eq_true', sectorMeetsBlind_iff sector]
    exact ⟨fun clear y same => (by cases same; exact clear), fun clear => clear x rfl⟩

theorem zoneAllowed_iff (p : ScanParams) (slot : Option Slot) (target : Nat) :
    zoneAllowed p slot = true ↔ scanItem p slot target 7 := by
  unfold zoneAllowed scanItem
  rw [Bool.and_eq_true, decide_eq_true_eq]
  refine and_congr_right fun _ => ?_
  cases slot <;> simp

theorem scanItems_numbered (p : ScanParams) (slot : Option Slot) (target : Nat) :
    Numbered (scanItem p slot target) 1 (scanItems p slot target) :=
  ⟨rfl, decide_eq_true_iff, rfl, decide_eq_true_iff.trans Nat.lt_succ_iff, rfl, decide_eq_true_iff, rfl, decide_eq_true_iff,
    rfl, sectorAllowed_iff p slot target, rfl, decide_eq_true_iff, rfl, zoneAllowed_iff p slot target, rfl,
    decide_eq_true_iff, rfl, decide_eq_true_iff, trivial⟩

theorem scanItems_pass {slot : Option Slot} {target : Nat} (all : ∀ k, scanItem p slot target k) :
    firstFailure (scanItems p slot target) = none :=
  (firstFailure_none_iff (scanItems_numbered p slot target)).2 fun i _ _ => all i

theorem firstBadItem_item {slot : Option Slot} {target n : Nat} (low : 1 ≤ n) (high : n ≤ 9)
    (fails : ¬ scanItem p slot target n) (before : ∀ k, 1 ≤ k → k < n → scanItem p slot target k) :
    firstBadItem p slot target = some n := by
  have found := (firstFailure_some_iff (scanItems_numbered p slot target)).2
    ⟨low, by show n < 10; omega, fails, before⟩
  unfold firstBadItem
  rw [found]

theorem firstBadItem_stations {slot : Option Slot} {target : Nat} (all : ∀ k, scanItem p slot target k) :
    firstBadItem p slot target = firstBadStation 2000 16 p.stations := by
  unfold firstBadItem
  rw [scanItems_pass all]
  rfl

/-! ## The checks (R109) -/

theorem scanRefusal_badItem {n : Nat} (bad : firstBadItem p (s.slots.get p.slot) s.mirror.target = some n) :
    scanRefusal p s = some ⟨.badParam, n, []⟩ := by
  unfold scanRefusal
  dsimp only
  rw [bad]
  rfl

section Later

variable (good : firstBadItem p (s.slots.get p.slot) s.mirror.target = none)
include good

theorem scanRefusal_noProfile (invalid : s.slots.get p.slot = none) : scanRefusal p s = some ⟨.noProfile, p.slot, []⟩ := by
  unfold scanRefusal
  dsimp only
  rw [good, invalid]
  rfl

theorem scanRefusal_emissionOff (valid : s.slots.get p.slot ≠ none) (off : s.emission.asserted = false) :
    scanRefusal p s = some ⟨.emissionOff, 0, []⟩ := by
  unfold scanRefusal
  dsimp only
  rw [good]
  dsimp only
  rw [if_neg (by simpa using valid), off]
  rfl

theorem scanRefusal_notSpinning (valid : s.slots.get p.slot ≠ none) (on : s.emission.asserted = true)
    (still : s.mirror.state.driveOn = false) : scanRefusal p s = some ⟨.notSpinning, 0, []⟩ := by
  unfold scanRefusal
  dsimp only
  rw [good]
  dsimp only
  rw [if_neg (by simpa using valid), on, still]
  rfl

theorem scanRefusal_none (valid : s.slots.get p.slot ≠ none) (on : s.emission.asserted = true)
    (driven : s.mirror.state.driveOn = true) : scanRefusal p s = none := by
  unfold scanRefusal
  dsimp only
  rw [good]
  dsimp only
  rw [if_neg (by simpa using valid), on, driven]
  rfl

end Later

theorem driveOn_iff (x : MirrorState) : x.driveOn = true ↔ x = .spinningUp ∨ x = .locked ∨ x = .unlocked := by
  cases x <;> decide

theorem takeScan_refused {r : JobResult} (bad : scanRefusal (scanParams s.reader.block) s = some r) :
    takeScan s = handResult r s := by
  unfold takeScan
  dsimp only
  rw [bad]

theorem takeScan_starts (good : scanRefusal (scanParams s.reader.block) s = none) : takeScan s =
    if s.mirror.state = .locked then
      enterPosition (newScan (scanParams s.reader.block)) (startScan (scanParams s.reader.block) s)
    else startScan (scanParams s.reader.block) s := by
  unfold takeScan
  dsimp only
  rw [good]

/-! ## The scan starts (R25, R53, R66, R110, R112) -/

/-- The values at take, which the way to the run-in point leaves. -/
structure ScanValuesSet (p : ScanParams) (sl : Slot) (s u : State) : Prop where
  sched   : u.sched = { s.sched with nextShot := 0, lastFire := none, jitterIndex := 0, firing := .noLine }
  line    : u.line = LineState.fresh
  tracker : u.tracker = ⟨p.startZone, none, 0, none⟩
  intake  : u.intake = { s.intake with pendingStrays := 0, jobStrays := 0 }
  list    : u.photo.stations = p.stations.map (fun st => ⟨st, .notReached⟩)
  inline  : u.photo.inlineBase = some ⟨p.startAz, p.step, sl.profile.cameraOffset⟩
  others  : OnlyIn (fields [.sched, .line, .tracker, .intake, .photo, .job, .turntable]) s u

theorem startScan_sets {sl : Slot} (valid : s.slots.get p.slot = some sl) : ScanValuesSet p sl s (startScan p s) := by
  refine ⟨rfl, rfl, rfl, rfl, rfl, ?_, Acts.only (by apply_rules [startScan_acts, Acts.refl])⟩
  show some (InlineBase.mk _ _ (match s.slots.get p.slot with | none => 0 | some x => x.profile.cameraOffset)) = _
  rw [valid]

theorem ScanValuesSet.congr {sl : Slot} (h : ScanValuesSet p sl s u) (moved : OnlyIn (fields [.job, .turntable]) u v) :
    ScanValuesSet p sl s v where
  sched := (moved .sched rfl).trans h.sched
  line := (moved .line rfl).trans h.line
  tracker := (moved .tracker rfl).trans h.tracker
  intake := (moved .intake rfl).trans h.intake
  list := (congrArg Photo.stations (moved .photo rfl)).trans h.list
  inline := (congrArg Photo.inlineBase (moved .photo rfl)).trans h.inline
  others := h.others.trans (moved.widen (by decide))

/-- With the mirror LOCKED the scan is sent to its run-in point at once. -/
theorem enterPosition_sends {j : ScanJob} {settle : Nat} (set : s.settleOf j = settle)
    (away : ¬ HeldAt (runInPointOf j.params) s) :
    (enterPosition j s).job = some (.scan { j with phase := .position, runInPoint := runInPointOf j.params }) ∧
    SentTo (runInPointOf j.params) settle s (enterPosition j s) ∧
    OnlyIn (fields [.job, .turntable]) s (enterPosition j s) := by
  rw [enterPosition_away away, set]
  exact ⟨rfl, moveRequest_sentTo settle away, Acts.only (by apply_rules [putScan_acts, moveRequest_acts, Acts.refl])⟩

theorem enterPosition_runs_in {j : ScanJob} (held : HeldAt (runInPointOf j.params) s) :
    (enterPosition j s).job = some (.scan { j with
      phase := .runIn, runInPoint := runInPointOf j.params, indexCount := (16384 + j.params.step - 1) / j.params.step,
      runInDelay := runInDelayOf j.params.step s.mirror.target, entryDistance := (32768 - j.params.step) / 2,
      runInStage := .index }) ∧
    AnsweredAtOnce s (enterPosition j s) ∧ OnlyIn (fields [.job, .turntable]) s (enterPosition j s) := by
  rw [enterPosition_arrived held]
  exact ⟨rfl, rfl, putScan_acts _ (setTurntable_acts _ (.refl _ s) rfl) rfl |>.only⟩

/-- Starting a scan leaves the mirror and the turntable as they are. -/
theorem startScan_place : (startScan p s).mirror = s.mirror ∧ (startScan p s).turntable = s.turntable ∧
    (startScan p s).now = s.now ∧ (startScan p s).jobSerial = s.jobSerial ∧ (startScan p s).slots = s.slots ∧
    ∀ a, HeldAt a (startScan p s) ↔ HeldAt a s := by
  have only : OnlyIn (fields [.sched, .line, .tracker, .intake, .photo, .job]) s (startScan p s) :=
    Acts.only (by apply_rules [startScan_acts, Acts.refl])
  have turntable := only .turntable rfl
  have azimuth := only .azimuth rfl
  refine ⟨only .mirror rfl, turntable, congrArg BitVec.toNat (only .time rfl), only .jobSerial rfl, only .slots rfl, fun a => ?_⟩
  unfold HeldAt
  rw [turntable, azimuth]

/-- A request is told by the turntable, the time and the serial number of the state it came from. -/
theorem SentTo.from_same {target : Angle} {settle : Nat} (turntable : t.turntable = s.turntable) (now : t.now = s.now)
    (serial : t.jobSerial = s.jobSerial) (h : SentTo target settle t u) : SentTo target settle s u := by
  unfold SentTo at h ⊢
  rw [h, turntable, now, serial]

theorem AnsweredAtOnce.from_same (turntable : t.turntable = s.turntable) (serial : t.jobSerial = s.jobSerial)
    (h : AnsweredAtOnce t u) : AnsweredAtOnce s u := by
  unfold AnsweredAtOnce at h ⊢
  rw [h, turntable, serial]

/-- What a scan that starts comes to, by the mirror's state and the place of the head. -/
def ScanStarts (p : ScanParams) (sl : Slot) (s u : State) : Prop :=
  ScanValuesSet p sl s u ∧
  (s.mirror.state ≠ .locked → u.job = some (.scan (newScan p)) ∧ u.turntable = s.turntable) ∧
  (s.mirror.state = .locked → ¬ HeldAt (runInPointOf p) s →
    u.job = some (.scan { newScan p with phase := .position, runInPoint := runInPointOf p }) ∧
    SentTo (runInPointOf p) sl.profile.settleMs s u) ∧
  (s.mirror.state = .locked → HeldAt (runInPointOf p) s →
    u.job = some (.scan { newScan p with
      phase := .runIn, runInPoint := runInPointOf p, indexCount := (16384 + p.step - 1) / p.step,
      runInDelay := runInDelayOf p.step s.mirror.target, entryDistance := (32768 - p.step) / 2,
      runInStage := .index }) ∧
    AnsweredAtOnce s u)

theorem takeScan_scanStarts {sl : Slot} (params : scanParams s.reader.block = p) (good : scanRefusal p s = none)
    (valid : s.slots.get p.slot = some sl) : ScanStarts p sl s (takeScan s) := by
  have sets := startScan_sets valid
  rw [takeScan_starts (by rw [params]; exact good), params]
  obtain ⟨mirror, turntable, now, serial, slots, place⟩ := startScan_place (p := p) (s := s)
  by_cases locked : s.mirror.state = .locked
  · rw [if_pos locked]
    by_cases held : HeldAt (runInPointOf p) s
    · obtain ⟨job, answered, only⟩ := enterPosition_runs_in (j := newScan p) ((place _).2 held)
      rw [mirror] at job
      exact ⟨sets.congr only, fun other => absurd locked other, fun _ away => absurd held away,
        fun _ _ => ⟨job, answered.from_same turntable serial⟩⟩
    · obtain ⟨job, sent, only⟩ := enterPosition_sends (j := newScan p) (s := startScan p s)
        (settleOf_of_slot (s := startScan p s) (by rw [slots]; exact valid)) (mt (place _).1 held)
      exact ⟨sets.congr only, fun other => absurd locked other,
        fun _ _ => ⟨job, sent.from_same turntable now serial⟩, fun _ there => absurd there held⟩
  · rw [if_neg locked]
    exact ⟨sets, fun _ => ⟨rfl, turntable⟩, fun there => absurd there locked, fun there => absurd there locked⟩

/-- Settles O33: the checks in their order, the values at take, and with the mirror LOCKED the way to the run-in point. -/
theorem scanTaken : Obligations.ScanTaken := by
  unfold Obligations.ScanTaken
  rintro m s _ t rest _ _ awaits rfl rfl rfl
  have event := exec_jobCommand_eq m t rest awaits
  have kept := awaits.kept m
  have slots := dispatched_slots m t rest s
  have mirror := dispatched_mirror m t rest s
  have emission := dispatched_emission m t rest s
  have checked (n : Option Nat)
      (h : firstBadItem (scanParams s.reader.block) (s.slots.get (scanParams s.reader.block).slot) s.mirror.target = n) :
      firstBadItem (scanParams s.reader.block) ((dispatched m t rest s).slots.get (scanParams s.reader.block).slot)
        (dispatched m t rest s).mirror.target = n := by
    rw [slots, mirror]
    exact h
  have passes (all : ∀ k, scanItem (scanParams s.reader.block) (s.slots.get (scanParams s.reader.block).slot)
      s.mirror.target k) (stations : ∀ st ∈ (scanParams s.reader.block).stations, st.inRange 2000) :=
    checked none ((firstBadItem_stations all).trans (firstBadStation_none 16 stations))
  constructor
  · intro code n bad
    have refusal : scanRefusal (scanParams s.reader.block) (dispatched m t rest s) = some ⟨code, n, []⟩ := by
      rcases bad with ⟨rfl, low, high, fails, before⟩ | ⟨rfl, all, low, station, before⟩ | ⟨rfl, rfl, all, stations, invalid⟩ |
        ⟨rfl, rfl, all, stations, valid, off⟩ | ⟨rfl, rfl, all, stations, valid, on, up, locked, unlocked⟩
      · exact scanRefusal_badItem (checked _ (firstBadItem_item low high fails before))
      · exact scanRefusal_badItem (checked _ ((firstBadItem_stations all).trans
          (firstBadStation_some_iff.2 ⟨low, station, before⟩)))
      · exact scanRefusal_noProfile (passes all stations) (by rw [slots]; exact invalid)
      · exact scanRefusal_emissionOff (passes all stations) (by rw [slots]; exact valid) (by rw [emission]; exact off)
      · refine scanRefusal_notSpinning (passes all stations) (by rw [slots]; exact valid) (by rw [emission]; exact on) ?_
        rw [mirror]
        exact Bool.eq_false_iff.2 fun drives => ((driveOn_iff _).1 drives).elim up (·.elim locked unlocked)
    refine ⟨_, event, ?_⟩
    rw [takeJob, takeScan_refused (s := dispatched m t rest s) refusal]
    exact handResult_refuses _ kept
  · intro sl all stations valid on driven
    have validThere : (dispatched m t rest s).slots.get (scanParams s.reader.block).slot = some sl := by
      rw [slots]
      exact valid
    have refusal := scanRefusal_none (passes all stations) (by rw [validThere]; simp) (by rw [emission]; exact on)
      (by rw [mirror]; exact (driveOn_iff _).2 driven)
    obtain ⟨h, waits, sends, runsIn⟩ := takeScan_scanStarts (congrArg scanParams (dispatched_block m t rest s)) refusal validThere
    refine ⟨_, event, ?_⟩
    rw [takeJob]
    have sched := h.sched
    have intake := h.intake
    rw [dispatched_sched] at sched
    rw [dispatched_intake] at intake
    rw [mirror] at waits sends runsIn
    rw [dispatched_turntable] at waits
    exact ⟨sched, h.line, h.tracker, intake, h.list, h.inline, waits, sends, runsIn, h.others⟩

end Sys2Proof.Machine


/-! PROOFS. PHOTO at its dispatch (R139, R140): the checks, and the way to the first station. -/

namespace Sys2Proof.Machine

variable {s t u b : State} {p : PhotoJob} {x : StationSlot} {sl : Slot}

/-! ## The checks (R139) -/

section Checks

/-- The numbered checks of R139. -/
def photoItem (s : State) (n : Nat) : Prop :=
  (n = 1 → photoSlot s.reader.block ≤ 3) ∧ (n = 2 → 1 ≤ photoCount s.reader.block ∧ photoCount s.reader.block ≤ 16)

theorem photoItems_numbered (s : State) : Numbered (photoItem s) 1
    [(1, decide (photoSlot s.reader.block ≤ 3)),
     (2, decide (1 ≤ photoCount s.reader.block ∧ photoCount s.reader.block ≤ 16))] := by
  refine ⟨rfl, decide_eq_true_iff.trans ?_, rfl, decide_eq_true_iff.trans ?_, trivial⟩ <;> simp [photoItem]

theorem photoRefusal_badItem {n : Nat} (low : 1 ≤ n) (high : n ≤ 2) (fails : ¬ photoItem s n)
    (before : ∀ i, 1 ≤ i → i < n → photoItem s i) : photoRefusal s = some ⟨.badParam, n, []⟩ := by
  have found := (firstFailure_some_iff (photoItems_numbered s)).2 ⟨low, Nat.lt_succ_of_le high, fails, before⟩
  unfold photoRefusal
  dsimp only
  rw [found]
  rfl

variable (slot : photoSlot s.reader.block ≤ 3)
include slot

theorem photoRefusal_badCount (bad : photoCount s.reader.block = 0 ∨ 16 < photoCount s.reader.block) :
    photoRefusal s = some ⟨.badParam, 2, []⟩ := by
  refine photoRefusal_badItem (by decide) (by decide) (fun good => ?_) fun i low high => ?_
  · have := good.2 rfl
    omega
  · exact ⟨fun _ => slot, fun same => absurd same (by omega)⟩

variable (low : 1 ≤ photoCount s.reader.block) (high : photoCount s.reader.block ≤ 16)
include low high

/-- Past the numbered checks the stations, the slot and the camera decide. -/
theorem photoRefusal_eq : photoRefusal s =
    match firstBadStation 1000000 16 (stationsOf s.reader.block (photoCount s.reader.block)) with
    | some n => some ⟨.badParam, n, []⟩
    | none =>
      if (s.slots.get (photoSlot s.reader.block)).isNone then some ⟨.noProfile, photoSlot s.reader.block, []⟩
      else if s.photo.state ≠ .idle then some ⟨.noCamera, s.camera.presence.code, []⟩
      else none := by
  have pass := (firstFailure_none_iff (photoItems_numbered s)).2 fun _ _ _ => ⟨fun _ => slot, fun _ => ⟨low, high⟩⟩
  unfold photoRefusal
  dsimp only
  rw [pass]
  rfl

theorem photoRefusal_badStation {n : Nat}
    (bad : firstBadStation 1000000 16 (stationsOf s.reader.block (photoCount s.reader.block)) = some n) :
    photoRefusal s = some ⟨.badParam, n, []⟩ := by
  rw [photoRefusal_eq slot low high, bad]

variable (good : firstBadStation 1000000 16 (stationsOf s.reader.block (photoCount s.reader.block)) = none)
include good

theorem photoRefusal_noProfile (invalid : s.slots.get (photoSlot s.reader.block) = none) :
    photoRefusal s = some ⟨.noProfile, photoSlot s.reader.block, []⟩ := by
  rw [photoRefusal_eq slot low high, good, invalid]
  rfl

theorem photoRefusal_noCamera (valid : s.slots.get (photoSlot s.reader.block) ≠ none) (busy : s.photo.state ≠ .idle) :
    photoRefusal s = some ⟨.noCamera, s.camera.presence.code, []⟩ := by
  rw [photoRefusal_eq slot low high, good]
  dsimp only
  rw [if_neg (by simpa using valid), if_pos busy]

theorem photoRefusal_none (valid : s.slots.get (photoSlot s.reader.block) ≠ none) (idle : s.photo.state = .idle) :
    photoRefusal s = none := by
  rw [photoRefusal_eq slot low high, good]
  dsimp only
  rw [if_neg (by simpa using valid), if_neg (not_not_intro idle)]

end Checks

theorem takePhoto_refused {r : JobResult} (bad : photoRefusal s = some r) : takePhoto s = handResult r s := by
  unfold takePhoto
  rw [bad]

theorem takePhoto_begins (good : photoRefusal s = none) : takePhoto s =
    beginStation ⟨photoSlot s.reader.block, 0, 0, none, false, false, false⟩ (s.setPhoto { s.photo with
      stations := (stationsOf s.reader.block (photoCount s.reader.block)).map (fun y => ⟨y, .notReached⟩),
      inlineBase := none }) := by
  unfold takePhoto
  rw [good]
  rfl

/-! ## A station begins (R140) -/

theorem cameraValues_of_slot (slot : s.slots.get p.slot = some sl) :
    s.cameraValues p.slot = (sl.profile.cameraOffset, sl.profile.settleMs) := by
  unfold State.cameraValues
  rw [slot]

/-- An Expose makes the photograph of the station, and its timers run. -/
theorem expose_exposes (index : Nat) (st : Station) (line : Option Nat) (s : State) :
    StationExposed index st line s (expose index st line line.isSome s) := ⟨rfl, rfl, rfl⟩

theorem exposeStation_at (at_ : s.photo.stations[p.index]? = some x) :
    exposeStation p s = expose p.index x.station none false s := by
  unfold exposeStation
  rw [at_]

/-- What is read of a state where a station is exposed. -/
theorem StationExposed.from_same {index : Nat} {st : Station} {line : Option Nat} (out : t.out = s.out)
    (reader : t.reader = s.reader) (now : t.now = s.now) (h : StationExposed index st line t u) :
    StationExposed index st line s u where
  state := h.state
  sent := h.sent.trans (by rw [out])
  fresh := by
    have fresh := h.fresh
    unfold State.tag at fresh ⊢
    rw [reader, now] at fresh
    exact fresh

/-- The state in which a station's move request is made. -/
def stationArmed (p : PhotoJob) (s : State) : State := putPhoto p (s.setPhoto { s.photo with state := .armed })

section Begin

variable (present : s.camera.presence = .present) (at_ : s.photo.stations[p.index]? = some x)
  {offset settle : Nat} (values : s.cameraValues p.slot = (offset, settle)) {target : Angle}
  (aim : target = BitVec.ofNat 22 (x.station.azimuth + offset))
include present at_ values aim

theorem beginStation_eq : beginStation p s =
    match (moveRequest target settle (stationArmed p s)).2 with
    | .arrived => exposeStation p
        (moveRequest target settle (stationArmed p s)).1
    | .nothing | .fault =>
        (moveRequest target settle (stationArmed p s)).1 := by
  unfold beginStation
  rw [if_neg (not_not_intro present), at_]
  dsimp only
  rw [values, ← aim]
  rfl

/-- With the head elsewhere the photo machine is ARMED and the head sent to the station. -/
theorem beginStation_away (away : ¬ HeldAt target s) :
    (beginStation p s).job = some (.photo p) ∧ (beginStation p s).photo = { s.photo with state := .armed } ∧
    SentTo target settle s (beginStation p s) ∧
    OnlyIn (fields [.job, .photo, .turntable]) s (beginStation p s) := by
  have elsewhere : ¬ HeldAt target (stationArmed p s) := away
  rw [beginStation_eq present at_ values aim, moveRequest_away _ elsewhere]
  exact ⟨rfl, rfl, rfl, Acts.only (by
    apply_rules [beginSlew_acts, Acts.refl]
    exact setJob_acts _ (setPhoto_acts _ (.refl _ s) rfl (.inl (Nat.le_refl _))) rfl)⟩

/-- With the head HELD there the station is exposed at once. -/
theorem beginStation_held (held : HeldAt target s) :
    (beginStation p s).job = some (.photo p) ∧
    (beginStation p s).photo.stations = s.photo.stations ∧ (beginStation p s).photo.inlineBase = s.photo.inlineBase ∧
    (beginStation p s).photo.rows = s.photo.rows ∧
    StationExposed p.index x.station none s (beginStation p s) ∧ AnsweredAtOnce s (beginStation p s) ∧
    OnlyIn (fields [.job, .photo, .turntable, .out]) s (beginStation p s) := by
  have there : HeldAt target (stationArmed p s) := held
  rw [beginStation_eq present at_ values aim, moveRequest_arrived _ there]
  dsimp only
  rw [exposeStation_at (s := (stationArmed p s).setTurntable _) at_]
  refine ⟨rfl, rfl, rfl, rfl, StationExposed.from_same (t := (stationArmed p s).setTurntable _) rfl rfl rfl
    (expose_exposes p.index x.station none _), rfl, Acts.only ?_⟩
  apply_rules [expose_acts]
  exact setTurntable_acts _ (setJob_acts _ (setPhoto_acts _ (.refl _ s) rfl (.inl (Nat.le_refl _))) rfl) rfl

end Begin

/-- What a PHOTO job that starts comes to, by the place of the head. -/
def PhotoStarts (slot : Nat) (stations : List Station) (st : Station) (target : Angle) (settle : Nat) (s u : State) : Prop :=
  u.job = some (.photo ⟨slot, 0, 0, none, false, false, false⟩) ∧
  u.photo.stations = stations.map (fun y => ⟨y, .notReached⟩) ∧ u.photo.inlineBase = none ∧
  u.photo.rows = s.photo.rows ∧
  (¬ HeldAt target s → u.photo.state = .armed ∧ u.photo.current = s.photo.current ∧ u.out = s.out ∧
    SentTo target settle s u) ∧
  (HeldAt target s → StationExposed 0 st none s u ∧ AnsweredAtOnce s u) ∧
  OnlyIn (fields [.job, .photo, .turntable, .out]) s u

theorem takePhoto_starts {slot count : Nat} {stations : List Station} {st : Station} {target : Angle}
    (block : slot = photoSlot s.reader.block ∧ count = photoCount s.reader.block ∧ stations = stationsOf s.reader.block count)
    (good : photoRefusal s = none) (valid : s.slots.get slot = some sl) (present : s.camera.presence = .present)
    (first : stations.head? = some st) (aim : target = BitVec.ofNat 22 (st.azimuth + sl.profile.cameraOffset)) :
    PhotoStarts slot stations st target sl.profile.settleMs s (takePhoto s) := by
  obtain ⟨hslot, hcount, hstations⟩ := block
  rw [takePhoto_begins good, ← hslot, ← hcount, ← hstations]
  generalize handed : s.setPhoto { s.photo with
    stations := stations.map (fun y => ⟨y, .notReached⟩), inlineBase := none } = t
  have photo : t.photo = { s.photo with stations := stations.map (fun y => ⟨y, .notReached⟩), inlineBase := none } := by
    rw [← handed]; rfl
  have turntable : t.turntable = s.turntable := by rw [← handed]; rfl
  have azimuth : t.azimuth = s.azimuth := by rw [← handed]; rfl
  have now : t.now = s.now := by rw [← handed]; rfl
  have serial : t.jobSerial = s.jobSerial := by rw [← handed]; rfl
  have out : t.out = s.out := by rw [← handed]; rfl
  have reader : t.reader = s.reader := by rw [← handed]; rfl
  have only : OnlyIn (fields [.job, .photo, .turntable, .out]) s t := by
    rw [← handed]
    exact Acts.only (setPhoto_acts _ (.refl (fields [.job, .photo, .turntable, .out]) s) rfl (.inl (Nat.le_refl _)))
  have place : HeldAt target t ↔ HeldAt target s := by
    unfold HeldAt
    rw [turntable, azimuth]
  have at_ : t.photo.stations[0]? = some ⟨st, .notReached⟩ := by
    rw [photo]
    dsimp only
    rw [List.getElem?_map, ← List.head?_eq_getElem?, first]
    rfl
  have camera : t.camera.presence = .present := by rw [← handed]; exact present
  have slots : t.slots.get slot = some sl := by rw [← handed]; exact valid
  have list : t.photo.stations = stations.map (fun y => ⟨y, .notReached⟩) := by rw [photo]
  have inline : t.photo.inlineBase = none := by rw [photo]
  have rows : t.photo.rows = s.photo.rows := by rw [photo]
  have current : t.photo.current = s.photo.current := by rw [photo]
  by_cases held : HeldAt target s
  · obtain ⟨job, list', inline', rows', exposed, answered, moved⟩ :=
      beginStation_held (p := ⟨slot, 0, 0, none, false, false, false⟩) camera at_ (cameraValues_of_slot slots) aim (place.2 held)
    exact ⟨job, list'.trans list, inline'.trans inline, rows'.trans rows, fun away => absurd held away,
      fun _ => ⟨exposed.from_same out reader now, answered.from_same turntable serial⟩, only.trans moved⟩
  · obtain ⟨job, armed, sent, moved⟩ :=
      beginStation_away (p := ⟨slot, 0, 0, none, false, false, false⟩) camera at_ (cameraValues_of_slot slots) aim (mt place.1 held)
    refine ⟨job, ?_, ?_, ?_, fun _ => ⟨?_, ?_, (moved .out rfl).trans out, sent.from_same turntable now serial⟩,
      fun there => absurd there held, only.trans (moved.widen (by decide))⟩
    all_goals rw [armed]
    · exact list
    · exact inline
    · exact rows
    · exact current

/-- Settles O34: the checks in their order, and otherwise the first station. -/
theorem photoTaken : Obligations.PhotoTaken := by
  unfold Obligations.PhotoTaken
  rintro m s _ t rest _ _ _ awaits rfl rfl rfl rfl
  have event := exec_jobCommand_eq m t rest awaits
  have kept := awaits.kept m
  have slots := dispatched_slots m t rest s
  have camera := dispatched_camera m t rest s
  have photo := dispatched_photo m t rest s
  have block := dispatched_block m t rest s
  constructor
  · intro code n bad
    have refusal : photoRefusal (dispatched m t rest s) = some ⟨code, n, []⟩ := by
      rw [← block, ← slots, ← camera, ← photo] at bad
      rcases bad with ⟨rfl, rfl, bad⟩ | ⟨rfl, rfl, slot, bad⟩ | ⟨rfl, slot, low, high, bad⟩ |
        ⟨rfl, rfl, slot, low, high, good, invalid⟩ | ⟨rfl, rfl, slot, low, high, good, valid, busy⟩
      · exact photoRefusal_badItem (Nat.le_refl _) (by decide) (fun good => Nat.not_le_of_lt bad (good.1 rfl))
          fun i low high => absurd low (by omega)
      · exact photoRefusal_badCount slot bad
      · exact photoRefusal_badStation slot low high bad
      · exact photoRefusal_noProfile slot low high good invalid
      · exact photoRefusal_noCamera slot low high good valid busy
    refine ⟨_, event, ?_⟩
    rw [takeJob, takePhoto_refused (s := dispatched m t rest s) refusal]
    exact handResult_refuses _ kept
  · intro sl st target slot low high good valid idle present first aim
    rw [← block] at slot low high good first ⊢
    rw [← slots, ← block] at valid
    rw [← photo] at idle
    rw [← camera] at present
    have refusal := photoRefusal_none slot low high good (by rw [valid]; simp) idle
    have starts := takePhoto_starts ⟨rfl, rfl, rfl⟩ refusal valid present first aim
    rw [PhotoStarts, photo] at starts
    exact ⟨_, event, starts⟩

end Sys2Proof.Machine


/-! PROOFS. The Emission Permit indication and the sector start (R20 to R22, R28). -/

namespace Sys2Proof.Machine

variable {s t : State}

/-! ## The indication (R20) -/

theorem scanning_of_dark (dark : s.scanJob = none) : s.scanning = false := by
  unfold State.scanning
  rw [dark]

/-- Outside a scan the recomputation of a permit that is off moves nothing. -/
theorem recomputePermit_of_dark (dark : s.scanJob = none) (off : s.sched.permit = false) : recomputePermit s = s :=
  recomputePermit_of_off (permitHolds_of_not_scanning (scanning_of_dark dark)) off

theorem permitDeasserted_stays (low : s.emission.asserted = false) :
    permitDeasserted s = s.setEmission ⟨false, false, none⟩ := if_neg (by rw [low]; decide)

theorem permitDeasserted_of_dark (high : s.emission.asserted = true) (dark : s.scanJob = none)
    (off : s.sched.permit = false) : permitDeasserted s = advancePages (s.setEmission ⟨false, false, none⟩) := by
  have same : recomputePermit (s.setEmission ⟨false, false, none⟩) = s.setEmission ⟨false, false, none⟩ :=
    recomputePermit_of_dark dark off
  have stays : scanFail .emissionOff .emission (s.setEmission ⟨false, false, none⟩) = s.setEmission ⟨false, false, none⟩ :=
    scanFail_of_no_scan _ _ dark
  rw [permitDeasserted_falls high, permitFalls, same, stays]

/-- The indication is deasserted at once with the input, whatever falls with it. -/
theorem permitDeasserted_emission (s : State) : (permitDeasserted s).emission = ⟨false, false, none⟩ := by
  cases high : s.emission.asserted with
  | false => rw [permitDeasserted_stays high]; rfl
  | true =>
    rw [permitDeasserted_falls high]
    have only : OnlyIn (fun f => decide (f ≠ .emission)) (s.setEmission ⟨false, false, none⟩)
        (advancePages (permitFalls (s.setEmission ⟨false, false, none⟩))) :=
      Acts.only (by apply_rules [advancePages_acts, permitFalls_acts, Acts.refl])
    exact only .emission rfl

theorem permitAsserted_counts (low : s.emission.input = false) : permitAsserted s =
    s.setEmission { s.emission with input := true, countEnd := some (s.now + 50 * fineMs) } := if_neg (by rw [low]; decide)

theorem permitAsserted_again (high : s.emission.input = true) : permitAsserted s = s := if_pos high

theorem permitCounted_due {e : Nat} (high : s.emission.input = true) (count : s.emission.countEnd = some e)
    (due : e ≤ s.now) : permitCounted s = recomputePermit (s.setEmission ⟨true, true, none⟩) := by
  unfold permitCounted
  rw [if_pos ⟨high, by rw [count]; exact ended_of_le due⟩]
  dsimp only
  rw [high]

theorem permitCounted_waits {e : Nat}
    (h : s.emission.input = false ∨ s.emission.countEnd = none ∨ (s.emission.countEnd = some e ∧ s.now < e)) :
    permitCounted s = s := by
  refine if_neg fun ⟨high, due⟩ => ?_
  rcases h with low | stands | ⟨count, early⟩
  · rw [low] at high; cases high
  · rw [stands] at due; cases due
  · rw [not_ended (Or.inr ⟨e, count, early⟩)] at due; cases due

/-- Settles O37, input by input: only a change of the indication reaches the permit. -/
theorem emitPermitIndication : Obligations.EmitPermitIndication := by
  unfold Obligations.EmitPermitIndication
  rintro m s _ rfl
  refine ⟨⟨_, rfl, permitDeasserted_emission _, fun low => ?_, fun high dark off => ?_⟩, fun low => ?_, fun high => ?_,
    fun e high count due => ⟨_, rfl, ?_, fun dark off => ?_⟩, fun e h => ?_⟩
  · rw [permitDeasserted_stays (s := observe m s) low]
    exact Acts.only (setEmission_acts _ (.refl _ _) rfl)
  · exact permitDeasserted_of_dark (s := observe m s) high dark off
  · exact next_congr (permitAsserted_counts (s := observe m s) low)
  · exact next_congr (permitAsserted_again (s := observe m s) high)
  · rw [permitCounted_due (s := observe m s) high count due]
    have only : OnlyIn (fun f => decide (f ≠ .emission)) ((observe m s).setEmission ⟨true, true, none⟩)
        (recomputePermit ((observe m s).setEmission ⟨true, true, none⟩)) :=
      Acts.only (by apply_rules [recomputePermit_acts, Acts.refl])
    exact only .emission rfl
  · rw [permitCounted_due (s := observe m s) high count due,
      recomputePermit_of_dark (s := (observe m s).setEmission ⟨true, true, none⟩) dark off]
    exact Acts.only (setEmission_acts _ (.refl _ _) rfl)
  · exact next_congr (permitCounted_waits (s := observe m s) h)

/-! ## The sector start (R21, R22, R28) -/

theorem sectorEntered_here {stop : Angle} (bounds : s.sector.bounds = some (s.angle, stop)) :
    sectorEntered s = recomputePermit (s.setSector ⟨some (s.angle, stop), true⟩) := by
  unfold sectorEntered
  rw [bounds]
  dsimp only
  rw [if_pos rfl, bounds]

theorem sectorEntered_elsewhere
    (h : s.sector.bounds = none ∨ ∃ a stop, s.sector.bounds = some (a, stop) ∧ a ≠ s.angle) : sectorEntered s = s := by
  unfold sectorEntered
  rcases h with none_ | ⟨a, stop, bounds, other⟩
  · rw [none_]
  · rw [bounds]
    exact if_neg (Ne.symm other)

theorem recomputePermit_rises {sl : Slot} (holds : s.permitHolds = true) (waiting : s.sched.firing = .waiting)
    (slot : s.scanSlot = some sl) : recomputePermit s = s.setSched { s.sched with
      permit := true, firing := .firing,
      scheduled := some (firstFireTime sl.profile s.sched.nextShot s.now s.sched.lastFire) } := by
  unfold recomputePermit
  rw [if_pos holds, if_pos waiting, permitRises, slot]

/-- Settles O38: with every other condition true the permit rises; with one false it is off and stays off. -/
theorem sectorEntryRaisesPermit : Obligations.SectorEntryRaisesPermit := by
  unfold Obligations.SectorEntryRaisesPermit
  rintro m s _ rfl
  refine ⟨fun stop sl bounds waiting slot locked asserted scanning => ?_, fun stop bounds off lacks => ?_, fun h => ?_⟩
  · refine next_congr ((sectorEntered_here (s := observe m s) bounds).trans ?_)
    have live : s.sched.firing.live = true := by rw [waiting]; rfl
    rw [recomputePermit_rises (s := (observe m s).setSector ⟨some ((observe m s).angle, stop), true⟩)
      ((permitHolds_iff _).2 ⟨locked, asserted, scanning, live, rfl⟩) waiting slot]
    refine congrArg (fun first => (observe m s).setSector ⟨some ((observe m s).angle, stop), true⟩ |>.setSched { s.sched with
      permit := true, firing := .firing, scheduled := some first }) ?_
    show firstFireTime sl.profile s.sched.nextShot (observe m s).now s.sched.lastFire = _
    cases s.sched.lastFire <;> rfl
  · refine next_congr ((sectorEntered_here (s := observe m s) bounds).trans ?_)
    refine recomputePermit_of_off (s := (observe m s).setSector _) (Bool.eq_false_iff.2 fun holds => ?_) off
    obtain ⟨locked, asserted, scanning, live, -⟩ := (permitHolds_iff _).1 holds
    rcases lacks with no | ended | unlocked | dark | dark
    · exact absurd (no.symm.trans rfl ▸ live) (by decide)
    · exact absurd (ended.symm.trans rfl ▸ live) (by decide)
    · exact unlocked locked
    · exact absurd (dark.symm.trans asserted) (by decide)
    · exact absurd (dark.symm.trans scanning) (by decide)
  · exact next_congr (sectorEntered_elsewhere (s := observe m s) h)

end Sys2Proof.Machine


/-! PROOFS. The sector stop: a line's firing ends with cause SECTOR-EXIT (R21, R30, R37, R70 to R73, R118, R122). -/

namespace Sys2Proof.Machine

variable {s t w : State} {n : Nat} {e : EndReport} {j : ScanJob}

/-! ## A permit that is off stays off where a line closes -/

theorem enterEnding_off (j : ScanJob) (s : State) : (enterEnding j s).sched.permit = false := by
  unfold enterEnding
  dsimp only
  split
  · rfl
  · rw [beginDrain_sched]
    rfl

theorem pushProgress_sched (fs : Fields) (s : State) : (pushProgress fs s).sched = s.sched :=
  Acts.only (p := fields [.reader, .port]) (by apply_rules [pushProgress_acts, Acts.refl]) .sched rfl

theorem scanLineClosed_off (r : LineReport) (off : s.sched.permit = false) : (scanLineClosed r s).sched.permit = false := by
  unfold scanLineClosed
  split
  · dsimp only
    split
    · exact enterEnding_off _ _
    · rw [pushProgress_sched]
      exact off
  · exact off

theorem closeLine_off (n : Nat) (e : EndReport) (off : s.sched.permit = false) :
    (closeLine n e s).sched.permit = false ∧ (closeLine n e s).sched.firing.live = false := by
  have offered : (if s.line.lost then s else (offerReserve (.trailer (trailerOf n e s)) s).1).sched = s.sched := by
    split
    · rfl
    · exact (offerReserve_spec _ s rfl).1 .sched rfl
  exact ⟨scanLineClosed_off _ ((congrArg Scheduler.permit offered).trans off), rfl⟩

theorem closeCheck_off (off : s.sched.permit = false) (done : s.sched.firing.live = false) :
    (closeCheck s).sched.permit = false ∧ (closeCheck s).sched.firing.live = false := by
  rcases closeCheck_cases s with same | ⟨-, n, e, closes⟩
  · rw [same]
    exact ⟨off, done⟩
  · rw [closes]
    exact closeLine_off n e off

theorem permitHolds_of_over (done : s.sched.firing.live = false) : s.permitHolds = false :=
  Bool.eq_false_iff.2 fun holds => by rw [live_of_permitHolds holds] at done; cases done

/-! ## The sector stop -/

theorem sectorLeft_elsewhere {a x : Angle} (bounds : s.sector.bounds = some (a, x)) (other : x ≠ s.angle) : sectorLeft s = s := by
  unfold sectorLeft
  rw [bounds]
  exact if_neg (Ne.symm other)

/-- The line whose firing the sector stop ends, with the report of it. -/
def sectorStopped (s : State) (n : Nat) : State := { s with
  sector := ⟨s.sector.bounds, false⟩,
  sched := { s.sched with firing := .ended, scheduled := none, shotWaits := false, permit := false },
  line := { s.line with
    phase := .draining,
    report := some ⟨n, s.sched.lineShots, s.sched.lineTargets, s.sched.lineFirst, s.sched.lineLast, .sectorExit⟩ } }

/-- At the sector stop the line that fired drains or closes, and the permit has nothing more to lose. -/
theorem sectorLeft_here {start : Angle} (bounds : s.sector.bounds = some (start, s.angle)) (live : s.sched.firing.live = true)
    (number : s.line.number = some n) : sectorLeft s = advancePages (closeCheck (sectorStopped s n)) := by
  have ends : endFiring .sectorExit (s.setSector { s.sector with inside := false }) = closeCheck (sectorStopped s n) :=
    endFiring_live .sectorExit live number
  obtain ⟨off, done⟩ := closeCheck_off (s := sectorStopped s n) rfl rfl
  unfold sectorLeft
  rw [bounds]
  dsimp only
  rw [if_pos rfl, ends, recomputePermit_of_off (permitHolds_of_over done) off]

theorem closeCheck_inFlight (number : s.line.number = some n) (shots : s.lineHasShots n = true) : closeCheck s = s := by
  unfold closeCheck
  rw [number]
  split
  next k r same _ =>
    cases same
    exact if_neg fun due => due.2.1 shots
  · rfl

/-- The summary is the first of its reasons that holds (R72). -/
theorem summaryOf_first (x : LineMarks) (g : DetailFlags) :
    (x.aborted = true → summaryOf x g = .aborted) ∧
    (x.aborted = false → x.mirrorLost = true → summaryOf x g = .mirrorLost) ∧
    (x.aborted = false → x.mirrorLost = false → x.emissionOff = true → summaryOf x g = .emissionOff) ∧
    (x.aborted = false → x.mirrorLost = false → x.emissionOff = false → x.turntable = true →
      summaryOf x g = .turntable) ∧
    (x = .clear → g.loss = true → summaryOf x g = .loss) ∧
    (x = .clear → g.loss = false → g ≠ .clear → summaryOf x g = .flawed) ∧
    (x = .clear → g = .clear → summaryOf x g = .ok) := by
  unfold summaryOf
  refine ⟨fun a => ?_, fun a b => ?_, fun a b c => ?_, fun a b c d => ?_, ?_, ?_, ?_⟩
  · rw [a]; rfl
  · rw [a, b]; rfl
  · rw [a, b, c]; rfl
  · rw [a, b, c, d]; rfl
  · rintro rfl loss
    rw [loss]; rfl
  · rintro rfl loss flawed
    have any : g.any = true := by
      obtain ⟨a, b, c, d, e, f, g⟩ := g
      revert a b c d e f g
      decide
    rw [loss, any]; rfl
  · rintro rfl rfl
    rfl

/-- Settles O39: the firing's end is handed over, and the line drains or closes. -/
theorem sectorExitEndsFiring : Obligations.SectorExitEndsFiring := by
  unfold Obligations.SectorExitEndsFiring
  rintro m s _ start n rfl bounds phase number firing
  have live : s.sched.firing.live = true := by rcases firing with h | h <;> (rw [h]; rfl)
  have here := next_congr (sectorLeft_here (s := observe m s) bounds live number)
  have stopped : sectorStopped (observe m s) n = { observe m s with
      sector := ⟨some (start, (observe m s).angle), false⟩,
      sched := { s.sched with firing := .ended, scheduled := none, shotWaits := false, permit := false },
      line := { s.line with
        phase := .draining,
        report := some ⟨n, s.sched.lineShots, s.sched.lineTargets, s.sched.lineFirst, s.sched.lineLast,
          .sectorExit⟩ } } := by
    rw [← bounds]
    rfl
  refine ⟨fun shots => here.trans ?_, ?_, summaryOf_first, fun a x other away => ?_⟩
  · rw [closeCheck_inFlight (s := sectorStopped (observe m s) n) number shots, stopped]
  · rintro j _ _ shots run scanning rfl rfl
    rw [← stopped]
    obtain ⟨v, closes, goesOn⟩ := (closeCheck_drains (w := sectorStopped (observe m s) n) n _ run scanning rfl number rfl
      nofun).closes shots
    exact ⟨v, _, here, closes, goesOn⟩
  · exact next_congr (sectorLeft_elsewhere (s := observe m s) other away)

end Sys2Proof.Machine


/-! PROOFS. FIRE_TIME (R29, R31 to R34, R38), the echo events (R46 to R52, R58, R59) and the zone tracker (R54 to R57). -/

namespace Sys2Proof.Machine

variable {s t : State} {sl : Slot} {j : ScanJob} {e : Echo}

/-! ## The fire time (R31, R34) -/

/-- A shot fires: its entry, the Scheduler's values and the count, the numbers that depend on its kind given. -/
theorem fireShot_eq {f n line expiry targets : Nat} {first : Option Nat} {waits : Bool} {kind : ShotKind} (slot : s.scanSlot = some sl)
    (next : n = s.sched.nextShot) (number : s.line.number = some line)
    (shot : kind = shotKind sl.profile.refInterval n) (till : expiry = listening sl.profile.window kind)
    (target : kind = .target → targets = satAdd 32 s.sched.lineTargets 1)
    (reference : kind = .reference → targets = s.sched.lineTargets)
    (fresh : s.sched.lineFirst = none → first = some n) (kept : s.sched.lineFirst ≠ none → first = s.sched.lineFirst)
    (cleared : waits = false) :
    fireShot f s = { s with
      shots := s.shots ++ [{
        number := n, kind := kind, fire := f, expiry := f + expiry, angle := s.angle, azimuth := s.azimuth, line := line,
        echoes := [], overflow := false, zoneSwitch := false, attachZone := none }],
      sched := { s.sched with
        nextShot := n + 1, lastFire := some f, jitterIndex := (n + 1) % 16,
        scheduled := some (f + (sl.profile.base + sl.profile.jitter.getD ((n + 1) % 16) 0)),
        shotWaits := waits, lineShots := satAdd 32 s.sched.lineShots 1, lineTargets := targets, lineFirst := first,
        lineLast := some n, path := kind },
      counters := { s.counters with shots := satAdd 64 s.counters.shots 1 },
      out := s.out ++ [.laserTrig kind] } := by
  have counted : (s.sched.afterFire sl.profile f).lineTargets = targets := by
    unfold Scheduler.afterFire
    dsimp only
    rw [← next, ← shot]
    cases kind with
    | target => exact (target rfl).symm
    | reference => exact (reference rfl).symm
  have begun : (s.sched.afterFire sl.profile f).lineFirst = first := by
    unfold Scheduler.afterFire
    dsimp only
    cases old : s.sched.lineFirst with
    | none => exact (congrArg some next.symm).trans (fresh old).symm
    | some k => exact old.symm.trans (kept (by rw [old]; simp)).symm
  have sched : s.sched.afterFire sl.profile f = { s.sched with
      nextShot := n + 1, lastFire := some f, jitterIndex := (n + 1) % 16,
      scheduled := some (f + (sl.profile.base + sl.profile.jitter.getD ((n + 1) % 16) 0)),
      shotWaits := waits, lineShots := satAdd 32 s.sched.lineShots 1, lineTargets := targets, lineFirst := first,
      lineLast := some n, path := kind } := by
    rw [← counted, ← begun, shot, next, cleared]
    rfl
  unfold fireShot
  rw [slot]
  dsimp only
  rw [sched, number, ← next]
  unfold firedShot
  rw [← shot, ← till]
  rfl

theorem fireTimeComes_fires {f : Nat} (scheduled : s.sched.scheduled = some f) (due : f ≤ s.now)
    (permit : s.sched.permit = true) (firing : s.sched.firing = .firing) (first : s.sched.shotWaits = false)
    (room : s.shots.length < 32) : fireTimeComes s = fireShot f s := by
  unfold fireTimeComes State.mayFire
  rw [scheduled, permit, firing]
  exact (if_pos ⟨rfl, first, due⟩).trans (if_pos room)

theorem fireTimeComes_waits {f : Nat} (scheduled : s.sched.scheduled = some f) (due : f ≤ s.now)
    (permit : s.sched.permit = true) (firing : s.sched.firing = .firing) (first : s.sched.shotWaits = false)
    (full : 32 ≤ s.shots.length) : fireTimeComes s = s.setSched { s.sched with shotWaits := true } := by
  unfold fireTimeComes State.mayFire
  rw [scheduled, permit, firing]
  dsimp only
  exact (if_pos ⟨rfl, first, due⟩).trans (if_neg (Nat.not_lt.2 full))

theorem fireTimeComes_same (h : s.sched.permit = false ∨ s.sched.firing ≠ .firing ∨ s.sched.scheduled = none ∨
    (∃ f, s.sched.scheduled = some f ∧ s.now < f)) : fireTimeComes s = s := by
  unfold fireTimeComes
  split
  next f scheduled =>
    refine if_neg fun ⟨may, _, due⟩ => ?_
    unfold State.mayFire at may
    rw [Bool.and_eq_true, decide_eq_true_iff] at may
    rcases h with off | idle | stands | ⟨k, later, early⟩
    · rw [off] at may; cases may.1
    · exact idle may.2
    · rw [stands] at scheduled; cases scheduled
    · rw [scheduled] at later
      cases later
      exact Nat.not_le_of_lt early due
  · rfl

/-- Settles O40: a scheduled shot fires at its time where there is a place for it, and otherwise waits. -/
theorem fireTimeFires : Obligations.FireTimeFires := by
  unfold Obligations.FireTimeFires
  rintro m s _ rfl
  refine ⟨fun sl f n line kind slot scheduled due permit firing first next number shot =>
    ⟨fun room => ?_, fun full => ?_⟩, fun h => ?_⟩
  · refine next_congr ((fireTimeComes_fires (s := observe m s) scheduled due permit firing first room).trans ?_)
    refine fireShot_eq (s := observe m s) slot next number (by rw [shot]; rfl) ?_ (fun same => ?_) (fun same => ?_)
      (fun none_ => ?_) (fun some_ => ?_) first
    · cases kind <;> rfl
    · rw [same]; rfl
    · rw [same]; rfl
    · rw [show s.sched.lineFirst = none from none_]
    · cases old : s.sched.lineFirst with
      | none => exact absurd old some_
      | some k => exact old.symm
  · exact next_congr (fireTimeComes_waits (s := observe m s) scheduled due permit firing first full)
  · exact next_congr (fireTimeComes_same (s := observe m s) h)

/-! ## Events that reach no line's matching (R46, R47, R49) -/

theorem echoArrives_outside (ch : Channel) (e : Echo) (dark : s.scanning = false) : echoArrives ch e s = countOutside s := by
  unfold State.scanning at dark
  unfold echoArrives
  split
  next j sl run _ =>
    rw [run] at dark
    exact if_neg (of_decide_eq_false dark)
  · rfl

/-- An event stamped before the last one taken (R46). -/
theorem echoArrives_late (ch : Channel) (job : s.scanJob = some j) (slot : s.scanSlot = some sl)
    (phase : j.phase = .scanning) (late : e.stamp < s.intake.lastStamp) : echoArrives ch e s = lateEcho ch s := by
  unfold echoArrives
  rw [job, slot]
  dsimp only
  rw [if_pos phase, if_pos late]

theorem targetEcho_between (j : ScanJob) (clear : ∀ o ∈ s.shots, o.blanks sl.profile.blanking e.stamp = false)
    (between : s.line.phase = .none) : targetEcho j sl e s = strayBefore s := by
  unfold targetEcho
  rw [if_neg, if_pos between]
  rintro some_
  obtain ⟨o, mem, blanks⟩ := List.any_eq_true.1 some_
  rw [clear o mem] at blanks
  cases blanks

theorem not_blanks {o : OpenShot} {blanking stamp : Nat} (h : ¬ (o.fire ≤ stamp ∧ stamp < o.fire + blanking)) :
    o.blanks blanking stamp = false := Bool.eq_false_iff.2 fun blanks => h ((blanks_iff o _ _).1 blanks)

/-- Settles O41: outside SCANNING, out of order, or between lines. -/
theorem unmatchedEchoesAreCounted : Obligations.UnmatchedEchoesAreCounted := by
  unfold Obligations.UnmatchedEchoesAreCounted
  rintro m stamp amp width sat s _ rfl
  refine ⟨fun ch dark => next_congr (echoArrives_outside (s := observe m s) ch _ dark),
    fun sl scanning slot late => ?_, fun sl scanning slot between h => ?_⟩
  all_goals obtain ⟨j, job, phase⟩ := scanJob_of_scanning scanning
  · have arrives (ch : Channel) := echoArrives_late (s := observe m s) (e := echoOf stamp amp width sat) ch job slot phase late
    refine ⟨next_congr (arrives .reference), fun opened => next_congr ((arrives .target).trans ?_)⟩
    exact if_neg opened
  · by_cases late : stamp.toNat < s.intake.lastStamp
    · rw [Nat.max_eq_left (Nat.le_of_lt late)]
      exact next_congr ((echoArrives_late (s := observe m s) (e := echoOf stamp amp width sat) .target job slot phase
        late).trans (if_pos between))
    · have order := Nat.le_of_not_lt late
      rw [Nat.max_eq_right order, exec_echoEvent_inOrder m .target stamp amp width sat job slot phase order]
      exact next_congr (targetEcho_between (s := (observe m s).setIntake { s.intake with lastStamp := stamp.toNat })
        j (fun o mem => not_blanks ((h.resolve_left late) o mem)) between)

/-! ## The reference channel (R47) -/

theorem hearsReference_iff (o : OpenShot) (stamp : Nat) :
    o.hearsReference stamp = true ↔ o.kind = .reference ∧ o.fire ≤ stamp ∧ stamp ≤ o.fire + 32000 := by
  unfold OpenShot.hearsReference referenceWindow
  simp [and_assoc]

theorem not_hearsReference {o : OpenShot} {stamp : Nat}
    (h : o.kind = .reference → stamp < o.fire ∨ o.fire + 32000 < stamp) : o.hearsReference stamp = false :=
  Bool.eq_false_iff.2 fun hears => by
    obtain ⟨kind, low, high⟩ := (hearsReference_iff o stamp).1 hears
    have := h kind
    omega

theorem referenceEcho_stray (deaf : ∀ o ∈ s.shots, o.hearsReference e.stamp = false) : referenceEcho e s = countStray s := by
  have none_ : s.shots.find? (fun o => o.hearsReference e.stamp) = none :=
    List.find?_eq_none.2 fun o mem hears => by rw [deaf o mem] at hears; cases hears
  unfold referenceEcho
  rw [none_]

/-- The entry of a number that stands once is changed, and the others keep their place. -/
theorem map_at_shot {before after : List OpenShot} {o : OpenShot} (f : OpenShot → OpenShot)
    (unique : ∀ x ∈ before ++ after, x.number ≠ o.number) :
    (before ++ o :: after).map (fun x => if x.number = o.number then f x else x) = before ++ f o :: after := by
  have others {l : List OpenShot} (mem : ∀ x ∈ l, x.number ≠ o.number) :
      l.map (fun x => if x.number = o.number then f x else x) = l :=
    (List.map_congr_left fun x h => if_neg (mem x h)).trans (List.map_id l)
  rw [List.map_append, List.map_cons, if_pos rfl, others fun x h => unique x (List.mem_append_left _ h),
    others fun x h => unique x (List.mem_append_right _ h)]

section Heard

variable {before after : List OpenShot} {o : OpenShot} (shots : s.shots = before ++ o :: after)
  (hears : o.hearsReference e.stamp = true) (first : ∀ x ∈ before, x.hearsReference e.stamp = false)
include shots hears first

theorem find_hears : s.shots.find? (fun x => x.hearsReference e.stamp) = some o := by
  have passed : before.find? (fun x => x.hearsReference e.stamp) = none :=
    List.find?_eq_none.2 fun x mem h => by rw [first x mem] at h; cases h
  rw [shots, List.find?_append, passed, Option.none_or]
  exact List.find?_cons_of_pos hears

theorem referenceEcho_attaches (unique : ∀ x ∈ before ++ after, x.number ≠ o.number) (empty : o.echoes = []) :
    referenceEcho e s = s.setShots (before ++ { o with echoes := [e] } :: after) := by
  unfold referenceEcho modifyShot
  rw [find_hears shots hears first]
  dsimp only
  rw [if_pos empty, shots, map_at_shot (fun x => { x with echoes := [e] }) unique]

theorem referenceEcho_second (held : o.echoes ≠ []) : referenceEcho e s = countStray s := by
  unfold referenceEcho
  rw [find_hears shots hears first]
  exact if_neg held

end Heard

/-- Settles O43: the one reference shot that hears the event takes it as its only echo. -/
theorem referenceEchoAttaches : Obligations.ReferenceEchoAttaches := by
  unfold Obligations.ReferenceEchoAttaches
  rintro m stamp amp width sat s _ sl rfl scanning slot order
  obtain ⟨j, job, phase⟩ := scanJob_of_scanning scanning
  rw [exec_echoEvent_inOrder m .reference stamp amp width sat job slot phase order]
  refine ⟨fun before after o shots kind low high unique deaf => ?_, fun deaf => next_congr
    (referenceEcho_stray (s := (observe m s).setIntake _) fun x mem => not_hearsReference (deaf x mem))⟩
  have hears : o.hearsReference (echoOf stamp amp width sat).stamp = true := (hearsReference_iff o _).2 ⟨kind, low, high⟩
  have first : ∀ x ∈ before, x.hearsReference (echoOf stamp amp width sat).stamp = false := fun x mem =>
    not_hearsReference (deaf x mem)
  exact ⟨fun empty => next_congr (referenceEcho_attaches (s := (observe m s).setIntake _) shots hears first unique empty),
    fun held => next_congr (referenceEcho_second (s := (observe m s).setIntake _) shots hears first held)⟩

/-! ## The target channel (R51, R52, R58, R59) -/

theorem targetEcho_matches (j : ScanJob) (clear : ∀ o ∈ s.shots, o.blanks sl.profile.blanking e.stamp = false)
    (opened : s.line.phase ≠ .none) : targetEcho j sl e s = matchEcho sl j.params.echoLimit e s := by
  unfold targetEcho
  rw [if_neg, if_neg opened]
  rintro some_
  obtain ⟨o, mem, blanks⟩ := List.any_eq_true.1 some_
  rw [clear o mem] at blanks
  cases blanks

section Match

variable {cs : List OpenShot} {ranges : List Nat} {limit : Nat}
  (found : cs = candidates sl.profile e.stamp s.shots)
  (ranged : ranges = cs.map (trackingRange sl e.stamp e.amplitude))
include found ranged

/-- With no candidate, or no zone for it, a target event is a stray of the line. -/
theorem matchEcho_stray
    (h : cs = [] ∨ chooseZone sl.profile.gate sl.profile.switchCount ranges s.tracker = none) :
    matchEcho sl limit e s = strayInLine s := by
  unfold matchEcho
  dsimp only
  rw [← found, ← ranged]
  split
  · rfl
  next some_ =>
    rw [h.resolve_left some_]

/-- The zone chosen names a candidate and its range. -/
theorem matchEcho_attaches {c : Choice} {o : OpenShot} {r : Nat} (some_ : cs ≠ [])
    (chosen : chooseZone sl.profile.gate sl.profile.switchCount ranges s.tracker = some c) (at_ : cs[c.zone]? = some o)
    (range : ranges[c.zone]? = some r) : matchEcho sl limit e s = attachEcho limit c o r e s := by
  have same : trackingRange sl e.stamp e.amplitude o = r := by
    rw [ranged, List.getElem?_map, at_] at range
    exact Option.some_inj.1 range
  unfold matchEcho
  dsimp only
  rw [← found, ← ranged, if_neg some_, chosen]
  dsimp only
  rw [at_]
  dsimp only
  rw [same]

end Match

theorem lastRangeAfter_eq (before : Option Nat) (c : Choice) (o : OpenShot) (r : Nat) :
    lastRangeAfter before c o r = if c.uncertain = false ∧ (before = none ∨ o.echoes = []) then some r else before := by
  unfold lastRangeAfter
  cases c.uncertain with
  | true => rfl
  | false =>
    cases before with
    | none => rfl
    | some x =>
      by_cases empty : o.echoes = []
      · simp [empty]
      · simp [empty]

/-- A target event that is not blanked, with a line open, is matched. -/
theorem exec_targetEcho {m : Moment} {stamp : Word} {amp width : BitVec 16} {sat : Bool} (run : s.job = some (.scan j))
    (phase : j.phase = .scanning) (slot : s.scanSlot = some sl) (order : s.intake.lastStamp ≤ stamp.toNat)
    (opened : s.line.phase ≠ .none)
    (clear : ∀ o ∈ s.shots, ¬ (o.fire ≤ stamp.toNat ∧ stamp.toNat < o.fire + sl.profile.blanking)) :
    exec (.echoEvent m .target stamp amp width sat) s = .next (matchEcho sl j.params.echoLimit
      (echoOf stamp amp width sat) ((observe m s).setIntake { s.intake with lastStamp := stamp.toNat })) :=
  (exec_echoEvent_inOrder m .target stamp amp width sat (scanJob_of_job run) slot phase order).trans (next_congr
    (targetEcho_matches (s := (observe m s).setIntake { s.intake with lastStamp := stamp.toNat }) j
      (fun o mem => not_blanks (clear o mem)) opened))

/-- What an event attached leaves, below the echo limit and at it. -/
theorem attachEcho_room {limit r : Nat} {c : Choice} {o : OpenShot} (room : o.echoes.length < limit) :
    attachEcho limit c o r e s = { s with
      intake := { s.intake with attached := satAdd 32 s.intake.attached 1 },
      counters := { s.counters with echoes := satAdd 64 s.counters.echoes 1 },
      tracker := { c.tracker with lastRange :=
        (if c.uncertain = false ∧ (c.tracker.lastRange = none ∨ o.echoes = []) then some r else c.tracker.lastRange) },
      shots := s.shots.map (fun x => if x.number = o.number then
        { x with
          zoneSwitch := x.zoneSwitch || c.switches, echoes := x.echoes ++ [{ e with uncertain := c.uncertain }],
          attachZone := (if x.echoes = [] then some c.zone else x.attachZone) } else x) } := by
  unfold attachEcho
  rw [if_pos room, lastRangeAfter_eq]
  rfl

theorem attachEcho_full {limit r : Nat} {c : Choice} {o : OpenShot} (full : limit ≤ o.echoes.length) :
    attachEcho limit c o r e s = { s with
      intake := { s.intake with dropped := satAdd 32 s.intake.dropped 1 },
      tracker := c.tracker,
      shots := s.shots.map (fun x => if x.number = o.number then
        { x with zoneSwitch := x.zoneSwitch || c.switches, overflow := true } else x) } := by
  unfold attachEcho
  rw [if_neg (Nat.not_lt.2 full)]
  rfl

/-- Settles O44: the tracker's choice names the candidate; the echo limit decides between attaching and dropping. -/
theorem targetEchoGoesWhereTheTrackerSays : Obligations.TargetEchoGoesWhereTheTrackerSays := by
  unfold Obligations.TargetEchoGoesWhereTheTrackerSays
  rintro m stamp amp width sat s _ sl j cs ranges rfl run phase slot order opened clear found ranged
  have found : cs = candidates sl.profile (echoOf stamp amp width sat).stamp s.shots := found
  have ranged : ranges = cs.map (trackingRange sl (echoOf stamp amp width sat).stamp
      (echoOf stamp amp width sat).amplitude) := ranged
  rw [exec_targetEcho run phase slot order opened clear]
  refine ⟨fun h => next_congr (matchEcho_stray (s := (observe m s).setIntake _) found ranged h),
    fun c o r some_ chosen at_ range => ?_⟩
  rw [matchEcho_attaches (s := (observe m s).setIntake _) found ranged some_ chosen at_ range]
  exact ⟨fun room => next_congr (attachEcho_room room), fun full => next_congr (attachEcho_full full)⟩

/-! ## The zone tracker (R54 to R57) -/

section Tracker

variable {gate count last k r : Nat} {ranges : List Nat} {x : Tracker}

theorem chooseZone_first (h : x.lastRange = none) : chooseZone gate count ranges x =
    some ⟨if x.zone < ranges.length then x.zone else ranges.length - 1, false, false, x⟩ := by
  unfold chooseZone
  rw [h]
  rfl

theorem zoneFits_iff : zoneFits gate last k ranges = true ↔ ∃ r, ranges[k]? = some r ∧ rangeGap r last ≤ gate := by
  unfold zoneFits
  cases ranges[k]? with
  | none => simp
  | some r => simp

theorem chooseZone_keeps (h : x.lastRange = some last) (here : ranges[x.zone]? = some r) (fits : rangeGap r last ≤ gate) :
    chooseZone gate count ranges x = some ⟨x.zone, false, false, { x with candidate := none, agree := 0 }⟩ := by
  unfold chooseZone
  rw [h]
  exact if_pos (zoneFits_iff.2 ⟨r, here, fits⟩)

theorem chooseZone_misfit (h : x.lastRange = some last) (misfit : zoneFits gate last x.zone ranges = false) :
    chooseZone gate count ranges x =
      match nearestZone gate last 0 ranges with
      | some (k, _) => some (favourZone count k ranges.length x)
      | none =>
        if x.zone < ranges.length then some { zone := x.zone, uncertain := true, switches := false, tracker := x } else none := by
  unfold chooseZone
  rw [h]
  exact if_neg (by rw [misfit]; decide)

/-- No zone fits. -/
theorem nearestZone_none {l : List Nat} (far : ∀ r ∈ l, gate < rangeGap r last) (k : Nat) : nearestZone gate last k l = none := by
  induction l generalizing k with
  | nil => rfl
  | cons r rest ih =>
    unfold nearestZone
    rw [ih (fun x mem => far x (List.mem_cons_of_mem r mem))]
    exact if_neg (Nat.not_le_of_lt (far r List.mem_cons_self))

/-- The nearest zone, counted from `k`, is one of those given, and fits. -/
theorem nearestZone_some {l : List Nat} {i g : Nat} (h : nearestZone gate last k l = some (i, g)) :
    ∃ r ∈ l, rangeGap r last = g ∧ g ≤ gate := by
  induction l generalizing k with
  | nil => cases h
  | cons r rest ih =>
    unfold nearestZone at h
    dsimp only at h
    split at h
    next =>
      split at h
      next fits => cases h; exact ⟨r, List.mem_cons_self, rfl, fits⟩
      next => cases h
    next i' g' behind =>
      split at h
      next near => cases h; exact ⟨r, List.mem_cons_self, rfl, near.1⟩
      next =>
        cases h
        obtain ⟨x, mem, same, fits⟩ := ih behind
        exact ⟨x, List.mem_cons_of_mem r mem, same, fits⟩

/-- The zone nearest of all, the first of its distance, is the one found. -/
theorem nearestZone_nearest {l : List Nat} {i : Nat} (at_ : l[i]? = some r) (fits : rangeGap r last ≤ gate)
    (nearest : ∀ (n r' : Nat), l[n]? = some r' → rangeGap r last ≤ rangeGap r' last)
    (first : ∀ (n r' : Nat), n < i → l[n]? = some r' → rangeGap r last < rangeGap r' last) (k : Nat) :
    nearestZone gate last k l = some (k + i, rangeGap r last) := by
  induction l generalizing k i with
  | nil => cases at_
  | cons y rest ih =>
    unfold nearestZone
    dsimp only
    cases i with
    | zero =>
      cases at_
      split
      next => exact if_pos fits
      next i' g' behind =>
        obtain ⟨x, mem, rfl, -⟩ := nearestZone_some behind
        obtain ⟨n, at_⟩ := List.mem_iff_getElem?.1 mem
        exact if_pos ⟨fits, nearest (n + 1) x at_⟩
    | succ i =>
      rw [ih at_ (fun n r' h => nearest (n + 1) r' h) (fun n r' low h => first (n + 1) r' (by omega) h)]
      dsimp only
      rw [if_neg fun near => Nat.not_le_of_lt (first 0 y (by omega) rfl) near.2, Nat.add_right_comm, Nat.add_assoc]

end Tracker

/-- Settles O45, by the cases of R54 to R57. -/
theorem zoneTrackerChooses : Obligations.ZoneTrackerChooses := by
  unfold Obligations.ZoneTrackerChooses
  intro gate count ranges x _
  refine ⟨chooseZone_first, fun last known => ⟨fun r here fits => chooseZone_keeps known here fits, fun far => ?_,
    fun k r n misfits at_ fits nearest first count_ => ?_⟩⟩
  · have misfit : zoneFits gate last x.zone ranges = false := Bool.eq_false_iff.2 fun fits => by
      obtain ⟨r, here, near⟩ := zoneFits_iff.1 fits
      exact Nat.not_le_of_lt (far r (List.mem_of_getElem? here)) near
    rw [chooseZone_misfit known misfit, nearestZone_none far 0]
    exact ⟨fun inside => if_pos inside, fun beyond => if_neg (Nat.not_lt.2 beyond)⟩
  · have misfit : zoneFits gate last x.zone ranges = false := Bool.eq_false_iff.2 fun fits => by
      obtain ⟨r, here, near⟩ := zoneFits_iff.1 fits
      exact Nat.not_le_of_lt (misfits r here) near
    rw [chooseZone_misfit known misfit, nearestZone_nearest at_ fits nearest first 0, Nat.zero_add]
    dsimp only
    unfold favourZone
    dsimp only
    rw [← count_]
    refine ⟨fun wins => ?_, fun stays inside => ?_, fun stays beyond => ?_⟩
    · rw [if_pos wins]
    · rw [if_neg (Nat.not_le_of_lt stays), if_pos inside]
    · rw [if_neg (Nat.not_le_of_lt stays), if_neg (Nat.not_lt.2 beyond)]

end Sys2Proof.Machine


/-! PROOFS. SHOT_EXPIRY (R42, R52, R68 to R78, R81, R84): a TARGET shot's record, a reference miss, and what waits for the
shot. -/

namespace Sys2Proof.Machine

variable {s t u : State} {j : ScanJob} {sl : Slot} {o : OpenShot} {r : ShotRec} {before after : List OpenShot} {n : Nat}
  {e : EndReport}

/-! ## Ranges (R52, R74, R149) -/

theorem range_rounds {flight correction exact : Int} {amplitude : Nat}
    (band : correction = sl.profile.correction.getD (amplitude / 2048) 0)
    (product : exact = (flight - sl.offset) * sl.profile.factor + 10000 * correction) :
    (-5000 ≤ exact → 10000 * (sl.range flight amplitude : Int) ≤ exact + 5000 ∧
      exact + 5000 < 10000 * ((sl.range flight amplitude : Int) + 1)) ∧
    (exact < -5000 → sl.range flight amplitude = 0) := by
  have range : sl.range flight amplitude = ((2 * exact + 10000) / 20000).toNat := by
    unfold Slot.range amplitudeBand
    dsimp only
    rw [← band, product]
    congr 2
    omega
  rw [range]
  omega

/-! ## A TARGET shot that closes (R68, R71, R77, R78, R81) -/

/-- The line with the flags that the shot brings to it. -/
def LineState.withShot (x : LineState) (o : OpenShot) : LineState := { x with flags := x.flags.withShot o }

theorem offerShot_lost (lost : s.line.lost = true) : offerShot r s = s := if_pos lost

section Kept

variable (kept : s.line.lost = false)
include kept

theorem offerShot_full (h : s.line.truncated = true ∨
      32512 < s.occupancy + ((Rec.shot r).size + if s.loss = Loss.zero then 0 else 32)) :
    offerShot r s = { s with
      line := { s.line with
        truncated := true, flags := { s.line.flags with loss := true }, shotsLost := satAdd 32 s.line.shotsLost 1 },
      loss := { s.loss with shots := satAdd 32 s.loss.shots 1 } } := by
  unfold offerShot
  rw [if_neg (by rw [kept]; decide)]
  by_cases cut : s.line.truncated = true
  · exact if_pos cut
  · rw [if_neg cut, offer_refused (r := .shot r) (h.resolve_left cut)]
    rfl

variable (whole : s.line.truncated = false)
include whole

theorem offerShot_offered (offered : offer (.shot r) s = (u, true)) :
    offerShot r s = u.setLine { u.line with stored := satAdd 32 u.line.stored 1 } := by
  unfold offerShot
  rw [if_neg (by rw [kept]; decide), if_neg (by rw [whole]; decide), offered]
  rfl

theorem offerShot_admitted (zero : s.loss = .zero) (room : s.occupancy + (Rec.shot r).size ≤ 32512) :
    offerShot r s = { s with
      line := { s.line with stored := satAdd 32 s.line.stored 1 },
      staging := ⟨s.staging.entries ++ [⟨s.staging.nextSeq, s.jobSerial, .shot r, false⟩], s.staging.nextSeq + 1⟩ } :=
  offerShot_offered kept whole (offer_admitted (r := .shot r) zero room)

theorem offerShot_behindGap (loss : s.loss ≠ .zero) (room : s.occupancy + ((Rec.shot r).size + 32) ≤ 32512) :
    offerShot r s = { s with
      line := { s.line with stored := satAdd 32 s.line.stored 1 }, loss := .zero,
      staging := ⟨s.staging.entries ++ [⟨s.staging.nextSeq, s.jobSerial, .gap s.loss, false⟩] ++
        [⟨s.staging.nextSeq + 1, s.jobSerial, .shot r, false⟩], s.staging.nextSeq + 1 + 1⟩ } :=
  offerShot_offered kept whole (offer_behindGap (r := .shot r) loss room)

end Kept

section Target

variable (job : s.job = some (.scan j)) (slot : s.scanSlot = some sl) (kind : o.kind = .target)
include job slot kind

theorem shotClosed_target : shotClosed o s = targetClosed sl o s := by
  unfold shotClosed
  rw [scanJob_of_job job, slot, kind]

/-- An empty shot of a scan that keeps none, and any shot of a LOST line, brings its flags and no record. -/
theorem shotClosed_silent (h : (o.echoes = [] ∧ j.params.keepEmpties = false) ∨ s.line.lost = true) :
    shotClosed o s = s.setLine (s.line.withShot o) := by
  rw [shotClosed_target job slot kind]
  unfold targetClosed State.keepsEmpties
  dsimp only
  rw [scanJob_of_job job]
  by_cases offers : o.echoes ≠ [] ∨ j.params.keepEmpties = true
  · refine (if_pos offers).trans (offerShot_lost (h.resolve_left ?_))
    rintro ⟨empty, drops⟩
    rcases offers with echo | keeps
    · exact echo empty
    · exact absurd (drops.symm.trans keeps) (by decide)
  · exact if_neg offers

theorem shotClosed_offers (h : o.echoes ≠ [] ∨ j.params.keepEmpties = true) :
    shotClosed o s = offerShot (shotRecord sl o) (s.setLine (s.line.withShot o)) := by
  rw [shotClosed_target job slot kind]
  unfold targetClosed State.keepsEmpties
  dsimp only
  rw [scanJob_of_job job]
  exact if_pos h

end Target

theorem shotRecord_size (sl : Slot) (o : OpenShot) : (Rec.shot (shotRecord sl o)).size = 32 + 16 * o.echoes.length := by
  show 32 + 16 * (o.echoes.map _).length = _
  rw [List.length_map]

/-! ## A reference miss (R76) -/

theorem shotClosed_missed (job : s.job = some (.scan j)) (slot : s.scanSlot = some sl) (kind : o.kind = .reference)
    (empty : o.echoes = []) : shotClosed o s = referenceMissed s := by
  unfold shotClosed
  rw [scanJob_of_job job, slot, kind, empty]

theorem referenceMissed_eq {k : Nat} (run : min 8 (s.line.missRun + 1) = k) : referenceMissed s = { s with
    line := { s.line with
      flags := { s.line.flags with refMissed := true }, refMisses := satAdd 32 s.line.refMisses 1, missRun := k } } := by
  rw [← run]
  rfl

/-! ## What is handed over, and what follows it (R34, R70, R76) -/

section Handed

variable (shots : s.shots = before ++ o :: after) (unique : ∀ x ∈ before ++ after, x.number ≠ o.number)
  (closed : shotClosed o (s.setShots (before ++ after)) = t)
include shots unique closed

theorem handShot_eq : handShot o s =
    if referenceLostAt (s.setShots (before ++ after)) t then scanFail .referenceLost .referenceLost t else t := by
  unfold handShot
  dsimp only
  rw [shots, filter_out_shot unique, closed]

/-- The reference is lost only where the run of misses comes to 8. -/
theorem handShot_kept (run : t.line.missRun = s.line.missRun ∨ t.line.missRun ≠ 8 ∨ 8 ≤ s.line.missRun) :
    handShot o s = t := by
  rw [handShot_eq shots unique closed, if_neg]
  unfold referenceLostAt missLimit
  rw [Bool.and_eq_true, decide_eq_true_iff, decide_eq_true_iff]
  rintro ⟨low, lost⟩
  have low : s.line.missRun < 8 := low
  omega

theorem handShot_loses (low : s.line.missRun < 8) (lost : t.line.missRun = 8) :
    handShot o s = scanFail .referenceLost .referenceLost t := by
  rw [handShot_eq shots unique closed, if_pos]
  unfold referenceLostAt missLimit
  rw [Bool.and_eq_true, decide_eq_true_iff, decide_eq_true_iff]
  exact ⟨low, lost⟩

end Handed

theorem exec_shotExpiry_due {m : Moment} (shots : s.shots = before ++ o :: after)
    (unique : ∀ x ∈ before ++ after, x.number ≠ o.number) (due : o.expiry ≤ (observe m s).now)
    (handed : handShot o (observe m s) = t) :
    exec (.shotExpiry m o.number) s = .next (advancePages (placeFree (closeCheck t))) := by
  rw [← handed]
  exact next_congr (shotExpires_due (s := observe m s) shots unique due)

theorem shotExpires_same {k : Nat} (h : ∀ o ∈ s.shots, o.number = k → s.now < o.expiry) : shotExpires k s = s := by
  have none_ : s.shots.find? (fun o => decide (o.number = k) && decide (o.expiry ≤ s.now)) = none := by
    refine List.find?_eq_none.2 fun o mem found => ?_
    rw [Bool.and_eq_true, decide_eq_true_iff, decide_eq_true_iff] at found
    exact Nat.not_le_of_lt (h o mem found.1) found.2
  unfold shotExpires
  rw [none_]

theorem closeCheck_same (h : s.line.phase ≠ .draining ∨ s.line.number = none ∨ s.line.report = none ∨
    (∃ n, s.line.number = some n ∧ s.lineHasShots n = true)) : closeCheck s = s := by
  unfold closeCheck
  split
  next n r number report =>
    refine if_neg fun ⟨draining, shots, _⟩ => ?_
    rcases h with other | none_ | none_ | ⟨k, same, inFlight⟩
    · exact other draining
    · rw [number] at none_; cases none_
    · rw [report] at none_; cases none_
    · rw [number] at same
      cases same
      exact shots inFlight
  · rfl

theorem closeCheck_due (draining : s.line.phase = .draining) (number : s.line.number = some n)
    (report : s.line.report = some e) (none_left : s.lineHasShots n = false)
    (stopped : e.cause ≠ .permit ∨ s.line.stopTaken = true) : closeCheck s = closeLine n e s := by
  unfold closeCheck
  rw [number, report]
  exact if_pos ⟨draining, by rw [none_left]; decide, fun lost => stopped.resolve_left (not_not_intro lost)⟩

theorem placeFree_same (h : s.sched.shotWaits = false ∨ s.sched.permit = false ∨ 32 ≤ s.shots.length) : placeFree s = s := by
  refine if_neg fun ⟨waits, may, room⟩ => ?_
  rcases h with idle | off | full
  · rw [idle] at waits; cases waits
  · unfold State.mayFire at may
    rw [off] at may; cases may
  · exact Nat.not_lt.2 full room

theorem placeFree_fires (waits : s.sched.shotWaits = true) (permit : s.sched.permit = true)
    (firing : s.sched.firing = .firing) (room : s.shots.length < 32) : placeFree s = fireShot s.now s := by
  refine if_pos ⟨waits, ?_, room⟩
  unfold State.mayFire
  rw [permit, firing]
  rfl

/-- Settles O46: the due shot leaves the list, closes by its kind and echoes, and what waited for it goes on. -/
theorem shotExpiryClosesShot : Obligations.ShotExpiryClosesShot := by
  unfold Obligations.ShotExpiryClosesShot
  refine ⟨fun sl flight correction exact_ amplitude band product => range_rounds band product, ?target, ?miss, ?lost,
    ?early, fun v h => closeCheck_same h, fun v n e draining number report none_left stopped => ?closes,
    fun v h => placeFree_same h, fun v waits permit firing room => placeFree_fires waits permit firing room⟩
  case target =>
    rintro m s _ j sl o before after _ _ rfl shots unique due job slot kind rfl rfl
    have size := shotRecord_size sl o
    have job' : ((observe m s).setShots (before ++ after)).job = some (.scan j) := job
    refine ⟨fun h => ?_, fun offers kept => ?_⟩
    · exact exec_shotExpiry_due shots unique due (handShot_kept (s := observe m s) shots unique
        (shotClosed_silent (s := (observe m s).setShots _) job slot kind h) (.inl rfl))
    · have closed := shotClosed_offers (s := (observe m s).setShots (before ++ after)) job slot kind offers
      have line : ((observe m s).setShots (before ++ after)).line.withShot o = s.line.withShot o := rfl
      rw [line] at closed
      rw [← size]
      refine ⟨fun whole zero room => ?_, fun whole loss room => ?_, fun full => ?_⟩
      · exact exec_shotExpiry_due shots unique due (handShot_kept (s := observe m s) shots unique
          (closed.trans (offerShot_admitted (s := ((observe m s).setShots _).setLine _) kept whole zero room)) (.inl rfl))
      · exact exec_shotExpiry_due shots unique due (handShot_kept (s := observe m s) shots unique
          (closed.trans (offerShot_behindGap (s := ((observe m s).setShots _).setLine _) kept whole loss room)) (.inl rfl))
      · exact exec_shotExpiry_due shots unique due (handShot_kept (s := observe m s) shots unique
          (closed.trans (offerShot_full (s := ((observe m s).setShots _).setLine _) kept full)) (.inl rfl))
  case miss =>
    rintro m s _ j sl o before after rfl shots unique due job slot kind empty few
    have closed := (shotClosed_missed (s := (observe m s).setShots (before ++ after)) job slot kind empty).trans
      (referenceMissed_eq (k := s.line.missRun + 1) (Nat.min_eq_right (Nat.le_of_lt (Nat.succ_lt_succ few))))
    exact exec_shotExpiry_due shots unique due (handShot_kept (s := observe m s) shots unique closed
      (.inr (.inl (Nat.ne_of_lt (Nat.succ_lt_succ few)))))
  case lost =>
    rintro m s _ j sl o before after _ rfl shots unique due job slot kind empty rfl
    have closed (many : 7 ≤ s.line.missRun) :=
      (shotClosed_missed (s := (observe m s).setShots (before ++ after)) job slot kind empty).trans
        (referenceMissed_eq (k := 8) (Nat.min_eq_left (Nat.succ_le_succ many)))
    refine ⟨fun lost => ?_, fun eighth scanning => ?_⟩
    · exact exec_shotExpiry_due shots unique due (handShot_kept (s := observe m s) shots unique
        (closed (Nat.le_of_succ_le lost)) (.inr (.inr lost)))
    · have handed := handShot_loses (s := observe m s) shots unique (closed (Nat.le_of_eq eighth.symm))
        (show s.line.missRun < 8 by omega) rfl
      exact ⟨_, exec_shotExpiry_due shots unique due (handed.trans (scanFail_scanning _ _ job scanning)), failScanning_stops _ _ scanning _⟩
  case early =>
    rintro m s _ k rfl h
    exact next_congr (shotExpires_same (s := observe m s) h)
  case closes =>
    have closes := closeCheck_due draining number report none_left stopped
    refine ⟨closes, fun j run scanning => ?_⟩
    rw [closes]
    exact closeLine_closes n e run scanning

end Sys2Proof.Machine


/-! PROOFS. The inline stations crossed at an index (R144), and the shorter way round (R16). -/

namespace Sys2Proof.Machine

variable {s t u v : State} {base : InlineBase} {line i : Nat} {travel : Int} {hand : Option Nat}

/-! ## The shorter way round -/

theorem circleError_near (a b : Angle) :
    (circleError a b - ((a.toNat : Int) - b.toNat)) % 4194304 = 0 ∧ (circleError a b).natAbs ≤ 2097152 := by
  have ha := a.isLt
  have hb := b.isLt
  unfold circleError revolution
  dsimp only
  rw [BitVec.toNat_sub]
  cases Config.antipodeNegative
  all_goals
    split
    · omega
    split
    · simp only [if_true, Bool.false_eq_true, if_false]
      omega
    · omega

theorem stationDistance_eq (base : InlineBase) (st : Station) :
    (stationDistance base st : Int) = ((st.azimuth : Int) + base.offset - base.startAz) % 4194304 := by
  unfold stationDistance
  rw [BitVec.toNat_sub, BitVec.toNat_ofNat, BitVec.toNat_ofNat]
  omega

/-! ## The stations crossed, in list order (R144) -/

/-- Station `x`, entry `k` of the list, is crossed. -/
def CrossedAt (base : InlineBase) (travel : Int) (hand : Option Nat) (k : Nat) (x : StationSlot) : Prop :=
  x.status = .notReached ∧ hand ≠ some k ∧ (stationDistance base x.station : Int) ≤ travel

/-- What the stations from entry `i` on come to: the first crossed is exposed if the machine is IDLE, every other is
MISSED, and the others stand. -/
structure Crosses (C : Nat → StationSlot → Prop) (line i : Nat) (s t : State) : Prop where
  stands  : ∀ k, (∀ x, i ≤ k → s.photo.stations[k]? = some x → ¬ C k x) → t.photo.stations[k]? = s.photo.stations[k]?
  missed  : ∀ k x, i ≤ k → s.photo.stations[k]? = some x → C k x →
    (s.photo.state ≠ .idle ∨ ∃ m y, i ≤ m ∧ m < k ∧ s.photo.stations[m]? = some y ∧ C m y) →
    t.photo.stations[k]? = some { x with status := .missed }
  exposed : ∀ k x, i ≤ k → s.photo.stations[k]? = some x → C k x → s.photo.state = .idle →
    (∀ m y, i ≤ m → m < k → s.photo.stations[m]? = some y → ¬ C m y) →
    t.photo.stations[k]? = some x ∧ StationExposed k x.station (some line) s t
  quiet   : s.photo.state ≠ .idle ∨ (∀ k x, i ≤ k → s.photo.stations[k]? = some x → ¬ C k x) →
    t.photo.state = s.photo.state ∧ t.photo.current = s.photo.current ∧ t.out = s.out
  rows    : t.photo.rows = s.photo.rows
  inline  : t.photo.inlineBase = s.photo.inlineBase

section Step

variable {C : Nat → StationSlot → Prop} {x : StationSlot}

/-- An entry that is not crossed is passed over. -/
theorem Crosses.passes (at_ : s.photo.stations[i]? = some x) (no : ¬ C i x) (h : Crosses C line (i + 1) s t) :
    Crosses C line i s t := by
  have later {k : Nat} {y : StationSlot} (low : i ≤ k) (there : s.photo.stations[k]? = some y) (crossed : C k y) : i + 1 ≤ k := by
    refine Nat.lt_of_le_of_ne low fun same => no ?_
    subst same
    rw [at_] at there
    cases there
    exact crossed
  refine ⟨fun k free => h.stands k fun y low => free y (Nat.le_of_succ_le low), fun k y low there crossed why => ?_,
    fun k y low there crossed idle first => ?_, fun why => h.quiet (why.imp_right fun free k y low => free k y
      (Nat.le_of_succ_le low)), h.rows, h.inline⟩
  · refine h.missed k y (later low there crossed) there crossed (why.imp_right ?_)
    rintro ⟨m, z, lowm, before, therem, crossedm⟩
    exact ⟨m, z, later lowm therem crossedm, before, therem, crossedm⟩
  · exact h.exposed k y (later low there crossed) there crossed idle fun m z lowm => first m z (Nat.le_of_succ_le lowm)

/-- An entry crossed with the machine not IDLE is MISSED. -/
theorem Crosses.misses (at_ : s.photo.stations[i]? = some x) (yes : C i x) (busy : s.photo.state ≠ .idle)
    (h : Crosses C line (i + 1) (s.setPhoto { s.photo with stations := setStatus i .missed s.photo.stations }) t) :
    Crosses C line i s t := by
  have other {k : Nat} (ne : k ≠ i) : (setStatus i .missed s.photo.stations)[k]? = s.photo.stations[k]? := by
    unfold setStatus
    rw [List.getElem?_modify_ne _ _ (Ne.symm ne)]
  have same : (setStatus i .missed s.photo.stations)[i]? = some { x with status := .missed } := by
    unfold setStatus
    rw [List.getElem?_modify_eq, at_]
    rfl
  refine ⟨fun k free => ?_, fun k y low there crossed _ => ?_, fun k y _ _ _ idle => absurd idle busy,
    fun _ => h.quiet (.inl busy), h.rows, h.inline⟩
  · have ne : k ≠ i := fun e => free x (Nat.le_of_eq e.symm) (by rw [e]; exact at_) (by rw [e]; exact yes)
    rw [h.stands k fun y low there => free y (Nat.le_of_succ_le low) ((other ne).symm.trans there)]
    exact other ne
  · rcases Nat.eq_or_lt_of_le low with rfl | later
    · rw [at_] at there
      cases there
      rw [h.stands _ fun _ low => absurd low (Nat.not_succ_le_self _)]
      exact same
    · exact h.missed k y later ((other (Nat.ne_of_gt later)).trans there) crossed (.inl busy)

/-- The first entry crossed with the machine IDLE is exposed. -/
theorem Crosses.exposes (at_ : s.photo.stations[i]? = some x) (yes : C i x) (idle : s.photo.state = .idle)
    (h : Crosses C line (i + 1) (expose i x.station (some line) true s) t) : Crosses C line i s t := by
  have busy : (expose i x.station (some line) true s).photo.state ≠ .idle := nofun
  obtain ⟨state, current, out⟩ := h.quiet (.inl busy)
  refine ⟨fun k free => ?_, fun k y low there crossed why => ?_, fun k y low there crossed _ first => ?_,
    fun why => ?_, h.rows, h.inline⟩
  · exact h.stands k fun y low => free y (Nat.le_of_succ_le low)
  · rcases why with other | ⟨m, z, lowm, before, -⟩
    · exact absurd idle other
    · exact h.missed k y (by omega) there crossed (.inl busy)
  · rcases Nat.eq_or_lt_of_le low with rfl | later
    · rw [at_] at there
      cases there
      refine ⟨(h.stands _ fun _ low => absurd low (Nat.not_succ_le_self _)).trans at_, state, out, current⟩
    · exact absurd yes (first i x (Nat.le_refl _) later at_)
  · rcases why with other | free
    · exact absurd idle other
    · exact absurd yes (free i x (Nat.le_refl _) at_)

end Step

theorem crossStations_crosses (rest : List StationSlot) (i : Nat) (s : State)
    (list : ∀ k, s.photo.stations[i + k]? = rest[k]?) :
    Crosses (CrossedAt base travel hand) line i s (crossStations base line travel hand i rest s) := by
  induction rest generalizing i s with
  | nil =>
    have none_ {k : Nat} {x : StationSlot} (low : i ≤ k) (there : s.photo.stations[k]? = some x) : False := by
      have := list (k - i)
      rw [Nat.add_sub_cancel' low, there] at this
      cases this
    exact ⟨fun _ _ => rfl, fun _ _ low there => (none_ low there).elim, fun _ _ low there => (none_ low there).elim,
      fun _ => ⟨rfl, rfl, rfl⟩, rfl, rfl⟩
  | cons x rest ih =>
    have at_ : s.photo.stations[i]? = some x := list 0
    have tail (k : Nat) : s.photo.stations[i + 1 + k]? = rest[k]? := by
      rw [Nat.add_assoc, Nat.add_comm 1 k]
      exact list (k + 1)
    unfold crossStations
    dsimp only
    by_cases crossed : x.status = .notReached ∧ hand ≠ some i ∧ (stationDistance base x.station : Int) ≤ travel
    · rw [if_pos (decide_eq_true crossed)]
      by_cases idle : s.photo.state = .idle
      · rw [if_pos idle]
        exact .exposes at_ crossed idle (ih (i + 1) _ tail)
      · rw [if_neg idle]
        refine .misses at_ crossed idle (ih (i + 1) _ fun k => ?_)
        refine Eq.trans ?_ (tail k)
        show (setStatus i .missed s.photo.stations)[i + 1 + k]? = _
        unfold setStatus
        rw [List.getElem?_modify_ne _ _ (by omega)]
    · rw [if_neg (by rw [decide_eq_true_iff]; exact crossed)]
      exact .passes at_ crossed (ih (i + 1) s tail)

/-- A station is crossed as the statements say it. -/
theorem crossed_iff : Crossed v base travel i ↔
    ∃ x, v.photo.stations[i]? = some x ∧ CrossedAt base travel v.stationInHand i x := by
  have inHand : v.stationInHand ≠ some i ↔ ∀ p, v.photo.current = some p → p.station ≠ i := by
    unfold State.stationInHand
    cases v.photo.current with
    | none => simp
    | some p => simp
  unfold Crossed CrossedAt
  simp only [inHand, stationDistance_eq]

theorem crossings_none (line : Nat) (error : Int) (outside : v.photo.inlineBase = none) : crossings line error v = v := by
  unfold crossings
  rw [outside]

theorem crossings_crosses {error : Int} (inline : v.photo.inlineBase = some base)
    (way : travel = (line : Int) * base.step + error) :
    Crosses (CrossedAt base travel v.stationInHand) line 0 v (crossings line error v) := by
  unfold crossings
  rw [inline]
  dsimp only
  unfold lineTravel
  rw [Int.natCast_mul, ← way]
  exact crossStations_crosses _ 0 v fun k => by rw [Nat.zero_add]

/-- The stations crossed at an index, told by list entry. -/
theorem crossings_told {w : State} {error : Int} (inline : v.photo.inlineBase = some base)
    (way : travel = (line : Int) * base.step + error) (after : w = crossings line error v) :
    (∀ i, ¬ Crossed v base travel i → w.photo.stations[i]? = v.photo.stations[i]?) ∧
    (∀ i x, Crossed v base travel i → v.photo.stations[i]? = some x → v.photo.state = .idle →
      (∀ k, k < i → ¬ Crossed v base travel k) →
      w.photo.stations[i]? = some x ∧ StationExposed i x.station (some line) v w) ∧
    (∀ i x, Crossed v base travel i → v.photo.stations[i]? = some x →
      v.photo.state ≠ .idle ∨ (∃ k, k < i ∧ Crossed v base travel k) →
      w.photo.stations[i]? = some { x with status := .missed }) ∧
    (v.photo.state ≠ .idle ∨ (∀ i, ¬ Crossed v base travel i) →
      w.photo.state = v.photo.state ∧ w.photo.current = v.photo.current ∧ w.out = v.out) ∧
    w.photo.rows = v.photo.rows ∧ w.photo.inlineBase = v.photo.inlineBase ∧ OnlyIn (fields [.photo, .out]) v w := by
  subst after
  have h := crossings_crosses inline way
  have here {i : Nat} {x : StationSlot} (there : v.photo.stations[i]? = some x) (crossed : Crossed v base travel i) :
      CrossedAt base travel v.stationInHand i x := by
    obtain ⟨y, same, crossed⟩ := crossed_iff.1 crossed
    rw [there] at same
    cases same
    exact crossed
  refine ⟨fun i no => h.stands i fun x _ there crossed => no (crossed_iff.2 ⟨x, there, crossed⟩),
    fun i x crossed there idle first => h.exposed i x (Nat.zero_le i) there (here there crossed) idle
      fun m y _ before therem crossedm => first m before (crossed_iff.2 ⟨y, therem, crossedm⟩),
    fun i x crossed there why => h.missed i x (Nat.zero_le i) there (here there crossed) (why.imp_right ?_),
    fun why => h.quiet (why.imp_right fun free k x _ there crossed => free k (crossed_iff.2 ⟨x, there, crossed⟩)),
    h.rows, h.inline, Acts.only (by apply_rules [crossings_acts, Acts.refl])⟩
  rintro ⟨m, before, crossedm⟩
  obtain ⟨y, therem, crossedm⟩ := crossed_iff.1 crossedm
  exact ⟨m, y, Nat.zero_le m, before, therem, crossedm⟩

end Sys2Proof.Machine


/-! PROOFS. A line opens at an index (R16, R17, R67 to R69, R79, R84, R94). -/

namespace Sys2Proof.Machine

variable {s t u v w : State} {j : ScanJob} {p : ScanParams} {n : Nat} {error : Int}

/-! ## What the tracking check and the header leave of a line -/

/-- The line's values that neither the tracking check nor its header moves. -/
structure SameLine (x y : LineState) : Prop where
  phase     : y.phase = x.phase
  started   : y.started = x.started
  number    : y.number = x.number
  truncated : y.truncated = x.truncated
  stored    : y.stored = x.stored
  shotsLost : y.shotsLost = x.shotsLost
  refMisses : y.refMisses = x.refMisses
  report    : y.report = x.report
  stopTaken : y.stopTaken = x.stopTaken
  missRun   : y.missRun = x.missRun

theorem SameLine.refl (x : LineState) : SameLine x x := ⟨rfl, rfl, rfl, rfl, rfl, rfl, rfl, rfl, rfl, rfl⟩

theorem SameLine.trans {x y z : LineState} (h : SameLine x y) (g : SameLine y z) : SameLine x z :=
  ⟨g.phase.trans h.phase, g.started.trans h.started, g.number.trans h.number, g.truncated.trans h.truncated,
    g.stored.trans h.stored, g.shotsLost.trans h.shotsLost, g.refMisses.trans h.refMisses, g.report.trans h.report,
    g.stopTaken.trans h.stopTaken, g.missRun.trans h.missRun⟩

/-! ## The tracking check (R16, R17, R69) -/

section Track

theorem trackingCheck_within (h : s.turntable.state ≠ .tracking ∨ (trackError p n s).natAbs ≤ 600) :
    trackingCheck p n s = s.setTurntable
      (if s.turntable.state = .tracking then { s.turntable with errorCount := 0 } else s.turntable) := by
  unfold trackingCheck
  by_cases tracking : s.turntable.state = .tracking
  · rw [if_neg (not_not_intro tracking), if_pos tracking]
    exact if_pos (h.resolve_left (not_not_intro tracking))
  · rw [if_pos tracking, if_neg tracking]
    rfl

/-- The line that is out of tolerance. -/
def LineState.strayed (x : LineState) : LineState := { x with flags := { x.flags with azError := true } }

/-- The line that makes the turntable fault. -/
def LineState.faulted (x : LineState) : LineState :=
  { x.strayed with marks := { x.marks with turntable := true } }

variable (tracking : s.turntable.state = .tracking) (far : 600 < (trackError p n s).natAbs)
include tracking far

theorem trackingCheck_out (few : s.turntable.errorCount + 1 < 3) : trackingCheck p n s =
    (s.setTurntable { s.turntable with errorCount := s.turntable.errorCount + 1 }).setLine s.line.strayed := by
  unfold trackingCheck
  rw [if_neg (not_not_intro tracking), if_neg (show ¬ _ ≤ trackTolerance from Nat.not_le_of_lt far)]
  exact if_pos few

theorem trackingCheck_third (many : 3 ≤ s.turntable.errorCount + 1) : trackingCheck p n s =
    scanTrackFault (enterTurntableFault
      ((s.setTurntable { s.turntable with errorCount := s.turntable.errorCount + 1 }).setLine s.line.faulted)) := by
  unfold trackingCheck
  rw [if_neg (not_not_intro tracking), if_neg (show ¬ _ ≤ trackTolerance from Nat.not_le_of_lt far)]
  exact if_neg (Nat.not_lt.2 many)

end Track

theorem scanTrackFault_ours (run : s.job = some (.scan j)) (ours : s.turntable.requester = some s.jobSerial) :
    scanTrackFault s =
      putScan { j with cause := (match j.cause with | none => some .turntableFault | some c => some c) } s := by
  unfold scanTrackFault State.requestIsOurs
  rw [run]
  exact if_pos (decide_eq_true ours)

theorem scanTrackFault_others (other : s.turntable.requester ≠ some s.jobSerial) : scanTrackFault s = s := by
  unfold scanTrackFault State.requestIsOurs
  split
  · exact if_neg (by rw [decide_eq_true_iff]; exact other)
  · rfl

/-- What the tracking check of scan `j` makes of a line, by the turntable's state and the error. -/
structure TrackChecked (error : Int) (j : ScanJob) (s u : State) : Prop where
  same   : SameLine s.line u.line
  lost   : u.line.lost = s.line.lost ∧ u.line.flags.loss = s.line.flags.loss
  within : s.turntable.state ≠ .tracking ∨ error.natAbs ≤ 600 →
    u.line.flags.azError = s.line.flags.azError ∧ u.line.marks = s.line.marks ∧ u.job = s.job ∧ u.notices = s.notices ∧
    u.turntable = (if s.turntable.state = .tracking then { s.turntable with errorCount := 0 } else s.turntable)
  out    : s.turntable.state = .tracking → 600 < error.natAbs → s.turntable.errorCount + 1 < 3 →
    u.line.flags.azError = true ∧ u.line.marks = s.line.marks ∧ u.job = s.job ∧ u.notices = s.notices ∧
    u.turntable = { s.turntable with errorCount := s.turntable.errorCount + 1 }
  third  : s.turntable.state = .tracking → 600 < error.natAbs → 3 ≤ s.turntable.errorCount + 1 →
    u.line.flags.azError = true ∧ u.line.marks = { s.line.marks with turntable := true } ∧
    u.turntable.state = .fault ∧ u.turntable.target = none ∧ u.notices.pending = s.notices.pending ||| 32 ∧
    (s.turntable.requester = some s.jobSerial →
      u.job = some (.scan { j with cause := (match j.cause with | none => some .turntableFault | some c => some c) }))
  scans  : ∃ k, u.job = some (.scan k)
  only   : OnlyIn (fields [.turntable, .line, .job, .notices]) s u

theorem trackingCheck_checked (run : s.job = some (.scan j)) (err : error = trackError p n s) :
    TrackChecked error j s (trackingCheck p n s) := by
  have only : OnlyIn (fields [.turntable, .line, .job, .notices]) s (trackingCheck p n s) :=
    Acts.only (by apply_rules [trackingCheck_acts, Acts.refl])
  subst err
  by_cases near : s.turntable.state ≠ .tracking ∨ (trackError p n s).natAbs ≤ 600
  · have eq := trackingCheck_within near
    refine ⟨?_, ?_, fun _ => ?_, fun tracking far => ?_, fun tracking far => ?_, ?_, only⟩
    rotate_left 3
    · exact absurd near (by rw [not_or, Decidable.not_not]; exact ⟨tracking, Nat.not_le_of_lt far⟩)
    · exact absurd near (by rw [not_or, Decidable.not_not]; exact ⟨tracking, Nat.not_le_of_lt far⟩)
    all_goals rw [eq]
    · exact ⟨j, run⟩
    · exact .refl s.line
    · exact ⟨rfl, rfl⟩
    · exact ⟨rfl, rfl, rfl, rfl, rfl⟩
  · rw [not_or, Decidable.not_not] at near
    obtain ⟨tracking, far⟩ := near
    have far := Nat.lt_of_not_le far
    have away (h : s.turntable.state ≠ .tracking ∨ (trackError p n s).natAbs ≤ 600) : False :=
      h.elim (fun no => no tracking) (Nat.not_le_of_lt far)
    by_cases few : s.turntable.errorCount + 1 < 3
    · have eq := trackingCheck_out tracking far few
      refine ⟨?_, ?_, fun h => (away h).elim, fun _ _ _ => ?_, fun _ _ many => absurd few (Nat.not_lt.2 many), ?_, only⟩
      all_goals rw [eq]
      · exact ⟨rfl, rfl, rfl, rfl, rfl, rfl, rfl, rfl, rfl, rfl⟩
      · exact ⟨rfl, rfl⟩
      · exact ⟨rfl, rfl, rfl, rfl, rfl⟩
      · exact ⟨j, run⟩
    · have eq := trackingCheck_third tracking far (Nat.not_lt.1 few)
      generalize faulted : enterTurntableFault ((s.setTurntable { s.turntable with
        errorCount := s.turntable.errorCount + 1 }).setLine s.line.faulted) = f at eq
      have line : f.line = s.line.faulted := by rw [← faulted]; rfl
      have turntable : f.turntable = { s.turntable with
          errorCount := s.turntable.errorCount + 1, state := .fault, target := none, settleEnd := none, slewEnd := none } := by
        rw [← faulted]; rfl
      have pending : f.notices.pending = s.notices.pending ||| 32 := by
        rw [← faulted]
        exact raise_pending .fault _
      have job : f.job = some (.scan j) := by rw [← faulted]; exact run
      have serial : f.jobSerial = s.jobSerial := by rw [← faulted]; rfl
      have kept : OnlyIn (fields [.job]) f (scanTrackFault f) := Acts.only (by apply_rules [scanTrackFault_acts, Acts.refl])
      have line' := (kept .line rfl).trans line
      have turntable' := (kept .turntable rfl).trans turntable
      have pending' := (congrArg Notices.pending (kept .notices rfl)).trans pending
      refine ⟨?_, ?_, fun h => (away h).elim, fun _ _ less => absurd less few, fun _ _ _ => ?_, ?_, only⟩
      all_goals rw [eq]
      · rw [line']
        exact ⟨rfl, rfl, rfl, rfl, rfl, rfl, rfl, rfl, rfl, rfl⟩
      · rw [line']
        exact ⟨rfl, rfl⟩
      · rw [line', turntable']
        refine ⟨rfl, rfl, rfl, rfl, pending', fun ours => ?_⟩
        rw [scanTrackFault_ours job (by rw [turntable, serial]; exact ours)]
        rfl
      · by_cases ours : f.turntable.requester = some f.jobSerial
        · rw [scanTrackFault_ours job ours]
          exact ⟨_, rfl⟩
        · rw [scanTrackFault_others ours]
          exact ⟨j, job⟩

/-! ## The LINE HEADER (R68, R79, R84) -/

/-- The header of line `n` is offered: queued, behind the GAP that is due, or the line is LOST. -/
structure HeaderOffered (n : Nat) (s v : State) : Prop where
  same     : SameLine s.line v.line
  checked  : v.line.flags.azError = s.line.flags.azError ∧ v.line.marks = s.line.marks
  admitted : s.loss = Loss.zero → s.occupancy + 48 ≤ 32512 →
    v.line.lost = s.line.lost ∧ v.line.flags.loss = s.line.flags.loss ∧ v.loss = Loss.zero ∧
    v.staging.entries = s.staging.entries ++ [⟨s.staging.nextSeq, s.jobSerial, .header (headerOf n s), false⟩]
  gap      : s.loss ≠ Loss.zero → s.occupancy + 80 ≤ 32512 →
    v.line.lost = s.line.lost ∧ v.line.flags.loss = s.line.flags.loss ∧ v.loss = Loss.zero ∧
    v.staging.entries = s.staging.entries ++ [⟨s.staging.nextSeq, s.jobSerial, .gap s.loss, false⟩] ++
      [⟨s.staging.nextSeq + 1, s.jobSerial, .header (headerOf n s), false⟩]
  full     : 32512 < s.occupancy + (if s.loss = Loss.zero then 48 else 80) →
    v.line.lost = true ∧ v.line.flags.loss = true ∧ v.loss = s.loss.addLine n s.tag ∧ v.staging = s.staging
  only     : OnlyIn (fields [.line, .staging, .loss]) s v

theorem offerHeader_offered (n : Nat) (s : State) : HeaderOffered n s (offerHeader n s) := by
  have only : OnlyIn (fields [.line, .staging, .loss]) s (offerHeader n s) :=
    Acts.only (by apply_rules [offerHeader_acts, Acts.refl])
  by_cases full : 32512 < s.occupancy + (48 + if s.loss = Loss.zero then 0 else 32)
  · have eq : offerHeader n s = (s.setLine { s.line with lost := true, flags := { s.line.flags with loss := true } }).setLoss
        (s.loss.addLine n s.tag) := by
      unfold offerHeader
      dsimp only
      rw [offer_refused (r := .header (headerOf n s)) full]
      rfl
    refine ⟨?_, ?_, fun zero room => ?_, fun loss room => ?_, fun _ => ?_, only⟩
    · rw [eq]
      exact ⟨rfl, rfl, rfl, rfl, rfl, rfl, rfl, rfl, rfl, rfl⟩
    · rw [eq]
      exact ⟨rfl, rfl⟩
    · rw [if_pos zero] at full
      omega
    · rw [if_neg loss] at full
      omega
    · rw [eq]
      exact ⟨rfl, rfl, rfl, rfl⟩
  · have late (h : 32512 < s.occupancy + (if s.loss = Loss.zero then 48 else 80)) : False := by
      by_cases zero : s.loss = Loss.zero
      · rw [if_pos zero] at h full
        omega
      · rw [if_neg zero] at h full
        omega
    by_cases zero : s.loss = Loss.zero
    · have eq : offerHeader n s = s.setStaging (s.staging.append s.jobSerial (.header (headerOf n s))) := by
        unfold offerHeader
        dsimp only
        rw [if_pos zero] at full
        rw [offer_admitted (r := .header (headerOf n s)) zero (Nat.not_lt.1 full)]
        rfl
      refine ⟨?_, ?_, fun _ _ => ?_, fun loss _ => absurd zero loss, fun h => (late h).elim, only⟩
      all_goals rw [eq]
      · exact .refl s.line
      · exact ⟨rfl, rfl⟩
      · exact ⟨rfl, rfl, zero, rfl⟩
    · have eq : offerHeader n s = (s.setStaging ((s.staging.append s.jobSerial (.gap s.loss)).append s.jobSerial
          (.header (headerOf n s)))).setLoss .zero := by
        unfold offerHeader
        dsimp only
        rw [if_neg zero] at full
        rw [offer_behindGap (r := .header (headerOf n s)) zero (Nat.not_lt.1 full)]
        rfl
      refine ⟨?_, ?_, fun yes _ => absurd yes zero, fun _ _ => ?_, fun h => (late h).elim, only⟩
      all_goals rw [eq]
      · exact .refl s.line
      · exact ⟨rfl, rfl⟩
      · exact ⟨rfl, rfl, rfl, rfl⟩

/-- The header says nothing of what the tracking check moves. -/
theorem headerOf_congr (n : Nat) (moved : OnlyIn (fields [.turntable, .line, .job, .notices]) s t) :
    headerOf n t = headerOf n s := by
  have tag : t.tag = s.tag := congrArg (fun x : Reader => blockTag x.block) (moved .reader rfl)
  have now : t.now = s.now := congrArg BitVec.toNat (moved .time rfl)
  have azimuth : t.azimuth = s.azimuth := moved .azimuth rfl
  have mirror : t.mirror = s.mirror := moved .mirror rfl
  have tracker : t.tracker = s.tracker := moved .tracker rfl
  have sched : t.sched = s.sched := moved .sched rfl
  unfold headerOf
  rw [tag, now, azimuth, mirror, tracker, sched]

/-! ## The line opens (R67) -/

/-- The state in which the tracking check of a line is made. -/
def lineOpened (s : State) : State := ((s.setLine s.line.atOpen).setIntake s.intake.atOpen).setSched s.sched.atOpen

/-- With no line open and none of its conditions lacking an index opens the next line. -/
theorem indexAtScan_opens (run : s.job = some (.scan j)) (scanning : j.phase = .scanning) (going : j.stop = none)
    (noLine : s.line.phase = .none) (more : s.line.started < j.params.lines) : indexAtScan s =
      crossings s.line.started (trackError j.params s.line.started s) (recomputePermit (openLine j.params s)) := by
  unfold indexAtScan
  rw [scanJob_of_job run]
  exact if_pos ((lineMayOpen_iff j s).2 ⟨scanning, going, noLine, more⟩)

/-- A line that waits for its permit has none to lose: the recomputation leaves the running job. -/
theorem recomputePermit_job (waiting : s.sched.firing = .waiting) : (recomputePermit s).job = s.job := by
  unfold recomputePermit
  split
  · unfold permitRises
    split <;> rfl
  · rw [if_neg (by rw [waiting]; exact fun h => nomatch h.2)]
    rfl

theorem indexAtPages_wakes (run : s.job = some (.scan j)) : indexAtPages s = wakePages s := by
  unfold indexAtPages
  rw [scanJob_of_job run]
  rfl

/-- What an index that opens line `n` of scan `j` comes to in state `s`, its permit and stations left out. -/
structure LineOpens (n : Nat) (error : Int) (h : HeaderRec) (j : ScanJob) (s v : State) : Prop where
  line     : SameLine s.line.atOpen v.line
  sched    : v.sched = s.sched.atOpen
  intake   : v.intake = s.intake.atOpen
  within   : s.turntable.state ≠ .tracking ∨ error.natAbs ≤ 600 →
    v.line.flags.azError = false ∧ v.line.marks = .clear ∧ v.job = s.job ∧ v.notices = s.notices ∧
    v.turntable = (if s.turntable.state = .tracking then { s.turntable with errorCount := 0 } else s.turntable)
  out      : s.turntable.state = .tracking → 600 < error.natAbs → s.turntable.errorCount + 1 < 3 →
    v.line.flags.azError = true ∧ v.line.marks = .clear ∧ v.job = s.job ∧ v.notices = s.notices ∧
    v.turntable = { s.turntable with errorCount := s.turntable.errorCount + 1 }
  third    : s.turntable.state = .tracking → 600 < error.natAbs → 3 ≤ s.turntable.errorCount + 1 →
    v.line.flags.azError = true ∧ v.line.marks = { LineMarks.clear with turntable := true } ∧
    v.turntable.state = .fault ∧ v.turntable.target = none ∧ v.notices.pending = s.notices.pending ||| 32 ∧
    (s.turntable.requester = some s.jobSerial →
      v.job = some (.scan { j with cause := (match j.cause with | none => some .turntableFault | some c => some c) }))
  scans    : ∃ k, v.job = some (.scan k)
  admitted : s.loss = Loss.zero → s.occupancy + 48 ≤ 32512 →
    v.line.lost = false ∧ v.line.flags.loss = false ∧ v.loss = Loss.zero ∧
    v.staging.entries = s.staging.entries ++ [⟨s.staging.nextSeq, s.jobSerial, .header h, false⟩]
  gap      : s.loss ≠ Loss.zero → s.occupancy + 80 ≤ 32512 →
    v.line.lost = false ∧ v.line.flags.loss = false ∧ v.loss = Loss.zero ∧
    v.staging.entries = s.staging.entries ++ [⟨s.staging.nextSeq, s.jobSerial, .gap s.loss, false⟩] ++
      [⟨s.staging.nextSeq + 1, s.jobSerial, .header h, false⟩]
  full     : 32512 < s.occupancy + (if s.loss = Loss.zero then 48 else 80) →
    v.line.lost = true ∧ v.line.flags.loss = true ∧ v.loss = s.loss.addLine n s.tag ∧ v.staging = s.staging
  only     : OnlyIn (fields [.line, .intake, .sched, .turntable, .job, .notices, .staging, .loss]) s v

theorem openLine_opens {h : HeaderRec} (run : s.job = some (.scan j)) (number : n = s.line.started)
    (err : error = trackError j.params n s) (told : h = headerOf n (lineOpened s)) :
    LineOpens n error h j s (openLine j.params s) := by
  have only : OnlyIn (fields [.line, .intake, .sched, .turntable, .job, .notices, .staging, .loss]) s
      (openLine j.params s) := Acts.only (by apply_rules [openLine_acts, Acts.refl])
  have checked := trackingCheck_checked (s := lineOpened s) (j := j) (p := j.params) (n := n) (error := error) run err
  have same : openLine j.params s = offerHeader n (trackingCheck j.params n (lineOpened s)) := by rw [number]; rfl
  have header := offerHeader_offered n (trackingCheck j.params n (lineOpened s))
  rw [same] at only ⊢
  generalize trackingCheck j.params n (lineOpened s) = u at checked header only
  generalize offerHeader n u = v at header only
  have headerEq := (headerOf_congr n checked.only).trans told.symm
  have loss : u.loss = s.loss := checked.only .loss rfl
  have staging : u.staging = s.staging := checked.only .staging rfl
  have serial : u.jobSerial = s.jobSerial := checked.only .jobSerial rfl
  have tag : u.tag = s.tag := congrArg (fun x : Reader => blockTag x.block) (checked.only .reader rfl)
  have occupancy : u.occupancy = s.occupancy := by
    unfold State.occupancy
    rw [staging]
  have job := header.only .job rfl
  have notices := header.only .notices rfl
  have turntable := header.only .turntable rfl
  have sched := (header.only .sched rfl).trans (checked.only .sched rfl)
  have intake := (header.only .intake rfl).trans (checked.only .intake rfl)
  obtain ⟨sameHeader, ⟨azError, marks⟩, admitted, gap, full, -⟩ := header
  obtain ⟨sameLine, ⟨lost, lossFlag⟩, within, out, third, scans, -⟩ := checked
  rw [loss, staging, serial, occupancy, headerEq, lost, lossFlag] at admitted gap
  rw [loss, staging, tag, occupancy] at full
  rw [← job] at scans
  refine ⟨sameLine.trans sameHeader, sched, intake, fun h => ?_, fun tracking far few => ?_, fun tracking far many => ?_,
    scans, admitted, gap, full, only⟩
  all_goals rw [azError, marks, job, notices, turntable]
  · exact within h
  · exact out tracking far few
  · exact third tracking far many

/-- Settles O48: the opening with its tracking check and header, then permit, stations and pages. -/
theorem indexOpensLine : Obligations.IndexOpensLine := by
  unfold Obligations.IndexOpensLine
  refine ⟨?opens, circleError_near, fun v n err outside => crossings_none n err outside,
    fun v w base n err travel inline way after => crossings_told inline way after⟩
  rintro m s _ j n err h rfl run scanning going noLine more number same hErr hHeader
  have run' : (indexSeen (observe m s)).job = some (.scan j) := run
  have opens := openLine_opens (s := indexSeen (observe m s)) (h := h) run' number hErr hHeader
  have seen : OnlyIn (fields [.angle, .mirror]) (observe m s) (indexSeen (observe m s)) :=
    Acts.only (setMirror_acts _ (setAngle_acts _ (.refl _ _) rfl) rfl)
  obtain ⟨line, sched, intake, within, out, third, ⟨k, scans⟩, admitted, gap, full, only⟩ := opens
  refine ⟨openLine j.params (indexSeen (observe m s)), ?event, only .angle rfl, only .mirror rfl, line.phase,
    line.number.trans (congrArg some number.symm), line.started.trans (congrArg (· + 1) number.symm), line.truncated,
    line.stored, line.shotsLost, line.refMisses, line.report, line.stopTaken, line.missRun, sched, intake, within, out,
    third, admitted, gap, full, (seen.widen (by decide)).trans (only.widen (by decide))⟩
  have waiting : (openLine j.params (indexSeen (observe m s))).sched.firing = .waiting := congrArg Scheduler.firing sched
  have kept : (crossings n err (recomputePermit (openLine j.params (indexSeen (observe m s))))).job = some (.scan k) :=
    (Acts.only (p := fields [.photo, .out]) (by apply_rules [crossings_acts, Acts.refl]) .job rfl).trans
      ((recomputePermit_job waiting).trans scans)
  refine next_congr ((indexMark_eq _).trans ?_)
  rw [indexTold_same (s := observe m s) same, indexAtScan_opens run' scanning going noLine more]
  subst number hErr
  rw [← indexAtPages_wakes kept]
  rfl

end Sys2Proof.Machine


/-! PROOFS. RUN-IN, from its first index to SCANNING (R15, R21, R114, R115, R120, R122). -/

namespace Sys2Proof.Machine

variable {s u : State} {j : ScanJob} {till : Nat}

/-! ## The run-in values (R114) -/

theorem leadOf_bounds {step target : Nat} (pos : 1 ≤ step) (driven : 1 ≤ target) :
    leadOf step = indexCountOf step * step - 16384 ∧ 16384 ≤ indexCountOf step * step ∧ leadOf step < step ∧
    2 * (runInDelayOf step target * (step * target)) ≤ 2 * (leadOf step * 6400000000000) + step * target ∧
    2 * (leadOf step * 6400000000000) ≤ 2 * (runInDelayOf step target * (step * target)) + step * target := by
  obtain ⟨low, high⟩ := ceilDiv_bounds 16384 pos
  have lead : leadOf step = ceilDiv 16384 step * step - 16384 := rfl
  have near := roundDiv_near (leadOf step * 6400000000000) (Config.delayTieUp (leadOf step) step target)
    (Nat.mul_pos pos driven)
  exact ⟨lead, low, by omega, near⟩

/-! ## The index and the delay (R114) -/

/-- An index that leaves the mirror's state goes to the scan in RUN-IN. -/
theorem indexMark_runIn (same : (markMirror s.now s.mirror).state = s.mirror.state) (run : s.job = some (.scan j))
    (phase : j.phase = .runIn) (waits : j.endWait = .none) :
    indexMark s = advancePages (indexAtPages (runInIndex j (indexSeen s))) := by
  rw [indexMark_eq, indexTold_same same, indexAtScan_runIn (s := indexSeen s) run phase waits]

theorem issueTrack_onlyIn (sound : s.turntable.state ≠ .fault) : OnlyIn (fields [.job, .turntable]) s (issueTrack j s) := by
  rw [issueTrack_issued sound, trackRequest_issued _ sound]
  exact Acts.only (setJob_acts _ (setTurntable_acts _ (.refl _ s) rfl) rfl)

section Delay

variable (run : s.job = some (.scan j)) (phase : j.phase = .runIn) (waits : j.endWait = .none)
  (stage : j.runInStage = .delay till)
include run phase waits stage

theorem runInDelayOver_eq : runInDelayOver s = if till ≤ s.now then advancePages (issueTrack j s) else s := by
  unfold runInDelayOver
  rw [scanJob_of_job run]
  dsimp only
  rw [phase, waits, stage]

end Delay

/-- A track request to a turntable in FAULT ends the run-in behind its seal. -/
theorem issueTrack_seals (fault : s.turntable.state = .fault) (seals : s.seals = true) : issueTrack j s =
    (s.setJob (some (.scan { j with cause := some .turntableFault, endWait := .mark }))).setPages
      { s.pages with mark := some ⟨s.staging.nextSeq, .abort, false⟩ } := by
  have rests : decelerate s = s := by
    unfold decelerate
    rw [fault]
  rw [issueTrack_faulted fault, failPre_of_seals _ _ seals, rests]
  rfl

/-! ## The entry distance (R115) -/

section Travel

variable (run : s.job = some (.scan j)) (phase : j.phase = .runIn) (waits : j.endWait = .none)
  (stage : j.runInStage = .travel)
include run

theorem runInCompletes_eq : runInCompletes s =
    if j.phase = .runIn ∧ j.endWait = .none ∧ j.runInStage = .travel ∧ runInDone j s.azimuth = true then
      advancePages (enterScanning j s)
    else s := by
  unfold runInCompletes
  rw [scanJob_of_job run]

theorem runInCompletes_early (h : (s.azimuth - j.runInPoint).toNat < j.entryDistance ∨
    2097152 ≤ (s.azimuth - j.runInPoint).toNat) : runInCompletes s = s := by
  rw [runInCompletes_eq run, if_neg]
  rintro ⟨-, -, -, done⟩
  unfold runInDone travelOf at done
  rw [Bool.and_eq_true, decide_eq_true_iff, decide_eq_true_iff] at done
  omega

include phase waits stage

theorem runInCompletes_due (low : j.entryDistance ≤ (s.azimuth - j.runInPoint).toNat)
    (high : (s.azimuth - j.runInPoint).toNat < 2097152) : runInCompletes s = advancePages (enterScanning j s) := by
  rw [runInCompletes_eq run, if_pos]
  refine ⟨phase, waits, stage, ?_⟩
  unfold runInDone travelOf
  rw [Bool.and_eq_true, decide_eq_true_iff, decide_eq_true_iff]
  exact ⟨low, high⟩

end Travel

/-- The scan as it enters SCANNING, its sector handed over. -/
def scanEntered (j : ScanJob) (s : State) : State :=
  (putScan { j with phase := .scanning } s).setSector
    ⟨some (BitVec.ofNat 22 j.params.sectorStart, BitVec.ofNat 22 j.params.sectorStop), false⟩

theorem enterScanning_asserted (high : s.emission.asserted = true) : enterScanning j s = scanEntered j s := if_pos high

/-- With the indication deasserted the scan is stopped as it enters. -/
theorem enterScanning_stops (low : s.emission.asserted = false) :
    ScanStops .emissionOff .emission .stop { j with phase := .scanning } (scanEntered j s) (enterScanning j s) := by
  have eq : enterScanning j s = scanFail .emissionOff .emission (scanEntered j s) := if_neg (by rw [low]; decide)
  rw [eq, scanFail_scanning (j := { j with phase := .scanning }) _ _ rfl rfl]
  exact failScanning_stops _ _ rfl _

/-- Settles O49, stage by stage. -/
theorem runInLeadsToScanning : Obligations.RunInLeadsToScanning := by
  unfold Obligations.RunInLeadsToScanning
  rintro m s _ j rfl run phase waits
  refine ⟨fun same stage => ⟨fun lead => ?_, fun lead sound => ?_⟩, fun till stage => ⟨fun due sound => ?_,
    fun due fault seals => ?_, fun early => ?_⟩, fun stage => ⟨fun low high => ?_, fun early => ?_⟩,
    fun step target pos driven => leadOf_bounds pos driven⟩
  · refine next_congr ((indexMark_runIn (s := observe m s) same run phase waits).trans ?_)
    rw [runInIndex_delays stage lead, indexAtPages_wakes (s := putScan _ (indexSeen (observe m s))) rfl]
    rfl
  · have sound' : (indexSeen (observe m s)).turntable.state ≠ .fault := sound
    have issued := issueTrack_trackIssued (s := indexSeen (observe m s)) (j := j) sound'
    have only := issueTrack_onlyIn (s := indexSeen (observe m s)) (j := j) sound'
    refine ⟨issueTrack j (indexSeen (observe m s)), ?_, ?_, ?_⟩
    · refine next_congr ((indexMark_runIn (s := observe m s) same run phase waits).trans ?_)
      rw [runInIndex_tracks stage lead, indexAtPages_wakes issued.job]
    · have target : (indexSeen (observe m s)).mirror.target = s.mirror.target := (markMirror_keeps _ s.mirror).2.2
      have turntable := issued.turntable
      rw [target] at turntable
      exact ⟨turntable, issued.job⟩
    · have seen : OnlyIn (fields [.angle, .mirror]) (observe m s) (indexSeen (observe m s)) :=
        Acts.only (setMirror_acts _ (setAngle_acts _ (.refl _ _) rfl) rfl)
      exact (seen.widen (by decide)).trans (only.widen (by decide))
  · refine ⟨issueTrack j (observe m s), ?_, issueTrack_trackIssued (s := observe m s) sound,
      issueTrack_onlyIn (s := observe m s) sound⟩
    exact next_congr ((runInDelayOver_eq (s := observe m s) run phase waits stage).trans (if_pos due))
  · refine ⟨issueTrack j (observe m s), next_congr ((runInDelayOver_eq (s := observe m s) run phase waits stage).trans
      (if_pos due)), ?_⟩
    rw [issueTrack_seals (s := observe m s) fault seals]
    exact ⟨rfl, rfl, Acts.only (setPages_acts _ (setJob_acts _ (.refl _ _) rfl) rfl)⟩
  · exact next_congr ((runInDelayOver_eq (s := observe m s) run phase waits stage).trans (if_neg (Nat.not_le_of_lt early)))
  · have enters := next_congr (runInCompletes_due (s := observe m s) run phase waits stage low high)
    exact ⟨scanEntered j (observe m s), rfl,
      fun asserted => enters.trans (next_congr (congrArg advancePages (enterScanning_asserted (s := observe m s) asserted))),
      fun deasserted => ⟨_, enters, enterScanning_stops (s := observe m s) deasserted⟩⟩
  · exact next_congr (runInCompletes_early (s := observe m s) run early)

end Sys2Proof.Machine


/-! PROOFS. A descriptor read in a pass (R90 to R94, R124, R196). -/

namespace Sys2Proof.Machine

variable {s r u : State} {d : List Byte} {k i : Nat} {table : Nat × Nat} {p : Page}

/-! ## What is read (R92, R196) -/

theorem descValid_iff (d : List Byte) : descValid d = true ↔ 65536 ≤ descSize d ∧ descSize d ≤ 16777216 ∧
    descSize d % 4096 = 0 ∧ descBase d % 8 = 0 ∧ descBase d + descSize d ≤ 2 ^ 48 := by
  unfold descValid
  simp only [Bool.and_eq_true, decide_eq_true_iff, and_assoc]

/-- The pass with a descriptor read that is not taken. -/
def descriptorPassed (d : List Byte) (s : State) : State :=
  s.setPages { s.pages with bad := s.pages.bad || decide (descState d = 1 ∨ 3 < descState d) }

theorem descriptorPassed_eq (d : List Byte) (s : State) : descriptorPassed d s =
    if descState d = 1 ∨ 3 < descState d then s.setPages { s.pages with bad := true } else s := by
  unfold descriptorPassed
  by_cases bad : descState d = 1 ∨ 3 < descState d
  · rw [if_pos bad, decide_eq_true bad, Bool.or_true]
  · rw [if_neg bad, decide_eq_false bad, Bool.or_false]
    rfl

/-- A descriptor read is taken, or the next one is read, or the pass ends. -/
theorem descriptorRead_eq (d : List Byte) (pass : s.pages.pass = some k) (known : s.pages.table = some table) :
    descriptorRead d s =
      if descState d = 1 ∧ descValid d = true then takePage (passIndex s.pages table.2 k) d table.2 s
      else if k + 1 < table.2 then readDescriptor table (k + 1) (descriptorPassed d s)
      else passEnds (descriptorPassed d s) := by
  unfold descriptorRead
  rw [pass, known, descriptorPassed_eq]

section Read

variable (pass : s.pages.pass = some k) (known : s.pages.table = some table)
include pass known

theorem descriptorRead_takes (free : descState d = 1) (valid : descValid d = true) :
    descriptorRead d s = takePage (passIndex s.pages table.2 k) d table.2 s := by
  rw [descriptorRead_eq d pass known, if_pos ⟨free, valid⟩]

variable (skips : descState d ≠ 1 ∨ descValid d = false)
include skips

theorem descriptorRead_skips (more : k + 1 < table.2) :
    descriptorRead d s = readDescriptor table (k + 1) (descriptorPassed d s) := by
  rw [descriptorRead_eq d pass known, if_neg, if_pos more]
  exact fun ⟨free, valid⟩ => skips.elim (fun no => no free) fun no => by rw [valid] at no; cases no

theorem descriptorRead_ends (last : table.2 ≤ k + 1) : descriptorRead d s = passEnds (descriptorPassed d s) := by
  rw [descriptorRead_eq d pass known, if_neg, if_neg (Nat.not_lt.2 last)]
  exact fun ⟨free, valid⟩ => skips.elim (fun no => no free) fun no => by rw [valid] at no; cases no

end Read

/-! ## The take (R91) -/

/-- The page is current, and its fields are to be written. -/
theorem takePage_takes (i : Nat) (d : List Byte) (known : s.pages.table = some table) (p : Page) (h : p = takenPage i d s) :
    ∃ w, (takePage i d table.2 s).pages = { s.pages with
        sequence := p.sequence, current := some p, nextExamine := (if i + 1 = table.2 then 0 else i + 1), wait := false,
        pass := none, lookAgain := false } ∧
      (takePage i d table.2 s).port = s.port.request w ∧ FieldWrite .takeField p 0 (table.1 + 64 * i) w ∧
      OnlyIn (fields [.pages, .port]) s (takePage i d table.2 s) := by
  subst h
  have write := fieldWrite_of_pageFields .takeField (takenPage i d s) (table.1 + 64 * i)
  refine ⟨_, rfl, descriptorWrite_port .., ?_, Acts.only (by apply_rules [takePage_acts, Acts.refl])⟩
  show FieldWrite .takeField _ 0 _ (maskedTransfer .descriptor .takeField (descriptorAddr (s.pages.table.getD (0, 0)) i + _) _ _)
  rw [known]
  exact write

/-! ## The end of a pass (R93, R94, R124) -/

theorem setPageWait_wait (s : State) : (setPageWait s).pages = { s.pages with wait := true } := by
  cases w : s.pages.wait with
  | true => rw [setPageWait_again w, ← w]
  | false => rw [setPageWait_first w]; rfl

theorem setPageWait_job (s : State) : (setPageWait s).job = s.job :=
  Acts.only (p := fields [.pages, .notices]) (by apply_rules [setPageWait_acts, Acts.refl]) .job rfl

theorem discardOnPageWait_pass (s : State) : (discardOnPageWait s).pages.pass = s.pages.pass := by
  unfold discardOnPageWait
  split
  · split
    · exact (congrArg Pages.pass ((discardScan_discarded _ s).others .pages rfl)).trans rfl
    · rfl
  · rfl

/-- The Page Manager with no pass in progress. -/
def passClosed (s : State) : State := s.setPages { s.pages with pass := none, lookAgain := false }

/-- A pass ends in exhaustion, and pages are looked at again where a wake came during it. -/
theorem passEnds_eq (s : State) : passEnds s =
    if s.pages.lookAgain = true then wakePages (exhaust (passClosed s))
    else exhaust (passClosed s) := by
  have over_ : (exhaust (passClosed s)).pages.pass = none := by
    unfold exhaust
    rw [discardOnPageWait_pass, setPageWait_wait]
    rfl
  unfold passEnds
  rw [wakePages_of_no_pass over_]
  rfl

theorem discardOnPageWait_discards {j : ScanJob} (run : s.job = some (.scan j)) (phase : j.phase = .ending)
    (drains : j.endWait ≠ .none) (abort : j.abortTaken = true) (wait : s.pages.wait = true) :
    ScanDiscarded j s (discardOnPageWait s) := by
  unfold discardOnPageWait
  rw [run]
  dsimp only
  rw [if_pos ⟨phase, drains, abort, wait⟩]
  exact discardScan_discarded j s

theorem discardOnPageWait_waits
    (h : ∀ j, s.job = some (.scan j) → j.phase = .ending → j.endWait ≠ .none → j.abortTaken = false) :
    discardOnPageWait s = s := by
  unfold discardOnPageWait
  split
  next j run =>
    refine if_neg fun ⟨phase, drains, abort, _⟩ => ?_
    rw [h j run phase drains] at abort
    cases abort
  · rfl

theorem exec_descriptorRead {m : Moment} {x : Transfer} {rest : List Outstanding} (awaits : OldestAwaits m.transfer s x rest)
    (who : x.requester = .descriptor) (purpose : x.purpose = .descriptorRead) (after : r = reported m x rest s) :
    exec (.descriptorReadComplete m d) s = .next (advancePages (descriptorRead d r)) := by
  refine next_congr ((completeOldest_descriptor m.transfer m s x rest awaits who _ (decide_eq_true purpose) d).trans ?_)
  rw [purpose, after]
  rfl

theorem firstUnissued_congr (h : u.staging = s.staging) : u.firstUnissued = s.firstUnissued := by
  unfold State.firstUnissued
  rw [h]

/-- Settles O50: the descriptor is classified, and its page taken, the next one read, or the pass ended. -/
theorem descriptorReadTakesOrSkips : Obligations.DescriptorReadTakesOrSkips := by
  unfold Obligations.DescriptorReadTakesOrSkips
  refine ⟨fun d => ⟨rfl, rfl, rfl, rfl, rfl, rfl⟩, by decide, ?_⟩
  rintro m s r x rest d k i table awaits who purpose after pass known rfl
  have event := exec_descriptorRead (d := d) awaits who purpose after
  have pages : r.pages = s.pages := by rw [after, reported_pages]
  have first : r.firstUnissued = s.firstUnissued := firstUnissued_congr (by rw [after, reported_staging])
  have job : r.job = s.job := by rw [after, reported_job]
  have notices : r.notices = s.notices := by rw [after, reported_notices]
  rw [← pages] at pass known
  rw [← pages, ← first, ← job, ← notices]
  refine ⟨fun free valid => ?_, fun skips more => ?_, fun skips last => ?_, descValid_iff d⟩
  · rw [event, descriptorRead_takes pass known free valid]
    obtain ⟨w, taken, port, write, only⟩ := takePage_takes ((r.pages.nextExamine + k) % table.2) d known _ rfl
    exact ⟨_, w, _, rfl, rfl, taken, port, write, only⟩
  · rw [event, descriptorRead_skips pass known skips more]
    rfl
  · rw [event, descriptorRead_ends pass known skips last, passEnds_eq]
    refine ⟨setPageWait (passClosed (descriptorPassed d r)),
      _, rfl, ?_, fun quiet => ?_, fun waits => ?_, ?_, fun j run phase drains abort => ?_, fun waits => ?_⟩
    · rw [setPageWait_wait]
      rfl
    · rw [setPageWait_first (by exact quiet)]
      exact raise_pending .pageWait _
    · rw [setPageWait_again (by exact waits)]
      rfl
    · exact Acts.only (by
        apply_rules [setPageWait_acts]
        exact setPages_acts _ (setPages_acts _ (.refl _ _) rfl) rfl)
    · exact discardOnPageWait_discards ((setPageWait_job (passClosed (descriptorPassed d r))).trans run) phase drains abort (congrArg Pages.wait (setPageWait_wait _))
    · exact discardOnPageWait_waits fun j run => waits j ((setPageWait_job (passClosed (descriptorPassed d r))).symm.trans run)

end Sys2Proof.Machine


/-! PROOFS. The writes of a page's descriptor (R91, R98, R101, R126, R143). -/

namespace Sys2Proof.Machine

variable {s r u : State} {p : Page}

/-! ## A write of a descriptor's state (R91, R98) -/

/-- The write of a state field spans the first 8 bytes and carries the state alone. -/
theorem descriptorState_request (purpose : Purpose) (p : Page) (s : State) {code : Nat} {byte : Byte}
    (h : Fields.toWrite [(0, leBytes 1 code)] = ⟨0, [byte, 0, 0, 0, 0, 0, 0, 0],
      [true, false, false, false, false, false, false, false]⟩) : descriptorState purpose p code s = request
      ⟨.descriptor, purpose, true, addrOf (descriptorAddr (s.pages.table.getD (0, 0)) p.index), 8,
        [byte, 0, 0, 0, 0, 0, 0, 0], [true, false, false, false, false, false, false, false], true⟩ s := by
  unfold descriptorState descriptorWrite
  rw [h]
  rfl

theorem openState_write : Fields.toWrite [(0, leBytes 1 2)] = ⟨0, [2, 0, 0, 0, 0, 0, 0, 0],
    [true, false, false, false, false, false, false, false]⟩ := by decide

theorem sealedState_write : Fields.toWrite [(0, leBytes 1 3)] = ⟨0, [3, 0, 0, 0, 0, 0, 0, 0],
    [true, false, false, false, false, false, false, false]⟩ := by decide

theorem takeFieldWritten_eq (current : s.pages.current = some p) : takeFieldWritten s =
    descriptorState .takeState p 2 (putPage { p with stage := .takeState } s) := by
  unfold takeFieldWritten
  rw [current]

theorem takeStateWritten_eq (current : s.pages.current = some p) :
    takeStateWritten s = putPage { p with stage := .ready } s := by
  unfold takeStateWritten
  rw [current]

theorem sealFieldWritten_eq (current : s.pages.current = some p) : sealFieldWritten s =
    descriptorState .sealState p 3 (putPage { p with stage := .sealState } s) := by
  unfold sealFieldWritten
  rw [current]

/-! ## The page is sealed (R98, R101) -/

/-- The page is no longer current, and PAGE-SEALED is raised if it asks for it. -/
def pageClosed (p : Page) (s : State) : State :=
  if p.notify = true then raise .pageSealed (s.setPages { s.pages with current := none })
  else s.setPages { s.pages with current := none }

theorem pageClosed_pages (p : Page) (s : State) : (pageClosed p s).pages = { s.pages with current := none } := by
  unfold pageClosed
  split <;> rfl

theorem pageClosed_onlyIn (p : Page) (s : State) : OnlyIn (fields [.pages, .notices]) s (pageClosed p s) := by
  unfold pageClosed
  have closed := setPages_acts { s.pages with current := none } (.refl (fields [.pages, .notices]) s) rfl
  split
  · exact (raise_acts _ closed rfl).only
  · exact closed.only

theorem sealStateWritten_plain (current : s.pages.current = some p) (quiet : s.sealBegun = false) :
    sealStateWritten s = pageClosed p s := by
  unfold sealStateWritten
  rw [current]
  exact if_neg (by rw [quiet]; decide)

theorem sealStateWritten_tells (current : s.pages.current = some p) (begun : s.sealBegun = true) :
    sealStateWritten s = jobTold (clearMark (pageClosed p s)) := by
  unfold sealStateWritten
  rw [current]
  exact if_pos begun

theorem jobTold_pages (s : State) : (jobTold s).pages = s.pages := by
  unfold jobTold
  split
  · exact handResult_pages _ _
  · split
    · rfl
    · exact endScan_pages _ _
  · split
    · exact (handPhoto_keeps _ _).1
    · rfl
  · rfl

theorem sealStateWritten_pages (current : s.pages.current = some p) :
    (sealStateWritten s).pages.current = none ∧ (s.sealBegun = true → (sealStateWritten s).pages.mark = none) := by
  cases begun : s.sealBegun with
  | false =>
    rw [sealStateWritten_plain current begun, pageClosed_pages]
    exact ⟨rfl, nofun⟩
  | true =>
    rw [sealStateWritten_tells current begun, jobTold_pages]
    exact ⟨congrArg Pages.current (pageClosed_pages p s), fun _ => rfl⟩

/-- The job that waits on the seal is told in the state in which its page is closed. -/
theorem sealStateWritten_handsBack (current : s.pages.current = some p) (begun : s.sealBegun = true)
    (kept : s.reader.writeBackLost = false) :
    (∀ kind res, s.job = some (.sealWait kind res) → HandsBack res (sealStateWritten s)) ∧
    (∀ j, s.job = some (.scan j) → j.endWait ≠ .none →
      HandsBack (scanResult j s.azimuth s.photo.stations) (sealStateWritten s)) ∧
    (∀ a, s.job = some (.photo a) → a.sealWait = true →
      (∃ detail, (a.lateCause = false → detail = a.index) ∧
        HandsBack (photoResult a detail s.photo.stations) (sealStateWritten s)) ∧
      (sealStateWritten s).photo.stations = []) := by
  rw [sealStateWritten_tells current begun]
  have only := pageClosed_onlyIn p s
  generalize pageClosed p s = t at only
  have job : (clearMark t).job = s.job := only .job rfl
  have azimuth : (clearMark t).azimuth = s.azimuth := only .azimuth rfl
  have photo : (clearMark t).photo = s.photo := only .photo rfl
  have kept' : (clearMark t).reader.writeBackLost = false := (congrArg Reader.writeBackLost (only .reader rfl)).trans kept
  rw [← job, ← azimuth, ← photo]
  refine ⟨fun kind res run => ?_, fun j run waits => ?_, fun a run waits => ?_⟩
  · rw [jobTold_sealWait run]
    exact handResult_handsBack kept'
  · rw [jobTold_scan run waits]
    exact scanEnd_handsBack kept'
  · rw [jobTold_photo run waits]
    obtain ⟨-, -, list, -⟩ := handPhoto_keeps a (clearMark t)
    have ends := (handPhoto_jobEnds (s := clearMark t) (v := clearMark t) a rfl rfl rfl).result kept'
    exact ⟨⟨_, fun early => photoDetail_index early _, ends.1⟩, by rw [list]⟩

/-- Settles O51: each write of the descriptor after the one before it, and the job told at the last. -/
theorem descriptorWritesInOrder : Obligations.DescriptorWritesInOrder := by
  unfold Obligations.DescriptorWritesInOrder
  rintro m s r x rest p awaits who after current
  have event (which : Purpose → Bool) (purpose : which x.purpose = true) :
      completeOldest .descriptor m.transfer which [] (observe m s) = advancePages (completed x.purpose x.len [] r) := by
    rw [after]
    exact completeOldest_descriptor m.transfer m s x rest awaits who which purpose []
  have pages : r.pages = s.pages := by rw [after, reported_pages]
  have notices : r.notices = s.notices := by rw [after, reported_notices]
  have reader : r.reader = s.reader := by rw [after, reported_reader]
  have job : r.job = s.job := by rw [after, reported_job]
  have photo : r.photo = s.photo := by rw [after, reported_photo]
  have azimuth : r.azimuth = m.azimuth := by rw [after, reported_azimuth]
  have begun : r.sealBegun = s.sealBegun := by
    unfold State.sealBegun
    rw [pages]
  rw [← pages] at current ⊢
  rw [← begun, ← notices, ← job, ← reader, ← photo, ← azimuth]
  refine ⟨fun purpose => ⟨_, next_congr ((event _ (decide_eq_true purpose)).trans ?_), rfl⟩,
    fun purpose => next_congr ((event _ (decide_eq_true purpose)).trans ?_),
    fun purpose => ⟨_, next_congr ((event _ (decide_eq_true purpose)).trans ?_), rfl⟩,
    fun purpose => ⟨sealStateWritten r, next_congr ((event _ (decide_eq_true purpose)).trans ?_),
      (sealStateWritten_pages current).1, fun plain quiet => ?_, fun notify quiet => ?_, fun kind res told run kept => ?_,
      fun j told run waits kept => ?_, fun a told run waits kept => ?_⟩⟩
  · rw [purpose]
    show advancePages (takeFieldWritten r) = _
    rw [takeFieldWritten_eq current, descriptorState_request _ _ _ openState_write]
    rfl
  · rw [purpose]
    show advancePages (takeStateWritten r) = _
    rw [takeStateWritten_eq current]
    rfl
  · rw [purpose]
    show advancePages (sealFieldWritten r) = _
    rw [sealFieldWritten_eq current, descriptorState_request _ _ _ sealedState_write]
    rfl
  · rw [purpose]
    rfl
  · rw [sealStateWritten_plain current quiet]
    exact if_neg (by rw [plain]; decide)
  · rw [sealStateWritten_plain current quiet]
    refine ⟨?_, pageClosed_onlyIn p r⟩
    unfold pageClosed
    rw [if_pos notify]
    exact raise_pending .pageSealed _
  · exact ⟨(sealStateWritten_handsBack current told kept).1 kind res run, (sealStateWritten_pages current).2 told⟩
  · exact ⟨(sealStateWritten_handsBack current told kept).2.1 j run waits, (sealStateWritten_pages current).2 told⟩
  · obtain ⟨back, list⟩ := (sealStateWritten_handsBack current told kept).2.2 a run waits
    exact ⟨back, list, (sealStateWritten_pages current).2 told⟩

end Sys2Proof.Machine


/-! PROOFS. The bytes of the stream's records as they come into a page (R79, R192, R198). -/

namespace Sys2Proof.Machine

variable {y : List Byte}

/-! ## Headers, trailers, gaps, photographs and marks -/

theorem headerBytes_fields (continued : Bool) (h : HeaderRec) (same : y = headerBytes continued h) :
    y.length = 48 ∧ field y 0x00 1 = 1 ∧ field y 0x01 1 = (if continued then 1 else 0) ∧ field y 0x02 2 = 48 ∧
    field y 0x04 4 = h.tag % 2 ^ 32 ∧ field y 0x08 4 = h.line % 2 ^ 32 ∧ field y 0x0C 4 = h.azimuth % 2 ^ 32 ∧
    field y 0x10 8 = h.firstShot % 2 ^ 64 ∧ field y 0x18 8 = h.lineTime % 2 ^ 64 ∧ field y 0x20 2 = h.rate % 2 ^ 16 ∧
    field y 0x22 1 = h.zone % 2 ^ 8 ∧ y.drop 0x23 = List.replicate 13 0 := by
  rw [same]
  refine ⟨by simp [headerBytes, leBytes_length, zeros_length], show field _ 0 1 = 1 % 2 ^ 8 from ?_, ?_,
    show field _ 2 2 = 48 % 2 ^ 16 from ?_, ?_, ?_, ?_, ?_, ?_, ?_, ?_, ?_⟩
  all_goals
    unfold headerBytes
    simp only [List.append_assoc, field_le_past, field_le_here, drop_le_past, List.drop_zero, Nat.reduceMul, Nat.reduceLeDiff, Nat.reduceSub, Nat.le_refl, Nat.sub_self]
  · cases continued <;> rfl
  · rfl

theorem toByte_lt (f : DetailFlags) : f.toByte < 256 := by
  have := flagBit_le f.refMissed 0
  have := flagBit_le f.gapEcho 1
  have := flagBit_le f.azError 2
  have := flagBit_le f.echoOverflow 3
  have := flagBit_le f.zoneSwitch 4
  have := flagBit_le f.uncertain 5
  have := flagBit_le f.loss 6
  unfold DetailFlags.toByte
  omega

theorem trailerBytes_fields (r : TrailerRec) (same : y = Rec.bytes (.trailer r)) :
    y.length = 64 ∧ field y 0x00 1 = 3 ∧ field y 0x01 1 = r.summary.code ∧ field y 0x02 2 = 64 ∧
    field y 0x04 1 = r.flags.toByte ∧ field y 0x05 1 = r.zone % 2 ^ 8 ∧ field y 0x06 2 = 0 ∧
    field y 0x08 4 = r.line % 2 ^ 32 ∧ field y 0x0C 4 = r.shots % 2 ^ 32 ∧ field y 0x10 4 = r.targets % 2 ^ 32 ∧
    field y 0x14 4 = r.stored % 2 ^ 32 ∧ field y 0x18 4 = r.shotsLost % 2 ^ 32 ∧
    field y 0x1C 4 = r.attached % 2 ^ 32 ∧ field y 0x20 4 = r.dropped % 2 ^ 32 ∧ field y 0x24 4 = r.blanked % 2 ^ 32 ∧
    field y 0x28 4 = r.strays % 2 ^ 32 ∧ field y 0x2C 4 = r.straysBefore % 2 ^ 32 ∧
    field y 0x30 4 = r.refMisses % 2 ^ 32 ∧ y.drop 0x34 = List.replicate 12 0 := by
  rw [same, show Rec.bytes (.trailer r) = trailerBytes r from rfl]
  refine ⟨by simp [trailerBytes, leBytes_length, zeros_length], show field _ 0 1 = 3 % 2 ^ 8 from ?_, ?_,
    show field _ 2 2 = 64 % 2 ^ 16 from ?_, ?_, ?_, ?_, ?_, ?_, ?_, ?_, ?_, ?_, ?_, ?_, ?_,
    ?_, ?_, ?_⟩
  all_goals
    unfold trailerBytes
    simp only [List.append_assoc, field_le_past, field_zeros_past, field_le_here, field_zeros_here, drop_le_past,
      drop_zeros_past, List.drop_zero, Nat.reduceMul, Nat.reduceLeDiff, Nat.reduceSub, Nat.le_refl, Nat.sub_self]
  · cases r.summary <;> rfl
  · exact Nat.mod_eq_of_lt (toByte_lt r.flags)
  · rfl

theorem gapBytes_fields (l : Loss) (same : y = Rec.bytes (.gap l)) :
    y.length = 32 ∧ field y 0x00 1 = 4 ∧ field y 0x01 1 = 0 ∧ field y 0x02 2 = 32 ∧
    field y 0x04 4 = (match l.first with | none => 4294967295 | some f => f.2 % 2 ^ 32) ∧
    field y 0x08 4 = (match l.first with | none => 4294967295 | some f => f.1 % 2 ^ 32) ∧
    field y 0x0C 4 = l.lines % 2 ^ 32 ∧ field y 0x10 4 = l.shots % 2 ^ 32 ∧ field y 0x14 4 = l.others % 2 ^ 32 ∧
    y.drop 0x18 = List.replicate 8 0 := by
  rw [same, show Rec.bytes (.gap l) = gapBytes l from rfl]
  refine ⟨by simp [gapBytes, leBytes_length, zeros_length], show field _ 0 1 = 4 % 2 ^ 8 from ?_, ?_,
    show field _ 2 2 = 32 % 2 ^ 16 from ?_, ?_, ?_, ?_, ?_, ?_, ?_⟩
  all_goals
    unfold gapBytes
    simp only [List.append_assoc, field_le_past, field_zeros_past, field_option_past, field_le_here, field_zeros_here,
      field_option_here, drop_le_past, drop_zeros_past, drop_option_past, List.drop_zero, Nat.reduceMul,
      Nat.reduceLeDiff, Nat.reduceSub, Nat.le_refl, Nat.sub_self]
  · cases l.first <;> rfl
  · cases l.first <;> rfl
  · rfl

theorem photoBytes_fields (p : PhotoRec) (same : y = Rec.bytes (.photo p)) :
    y.length = 64 ∧ field y 0x00 1 = 5 ∧ field y 0x01 1 = p.status.code ∧ field y 0x02 2 = 64 ∧
    field y 0x04 4 = p.tag % 2 ^ 32 ∧ field y 0x08 1 = p.station % 2 ^ 8 ∧
    field y 0x09 1 = (match p.mode with | .full => 0 | .binned => 1) ∧ field y 0x0A 2 = 0 ∧
    field y 0x0C 4 = p.rowsStored % 2 ^ 32 ∧ field y 0x10 8 = p.buffer % 2 ^ 64 ∧ field y 0x18 8 = p.lineTime % 2 ^ 64 ∧
    field y 0x20 8 = (match p.shot with | none => 18446744073709551615 | some n => n % 2 ^ 64) ∧
    field y 0x28 4 = p.azimuth % 2 ^ 32 ∧
    field y 0x2C 4 = (match p.line with | none => 4294967295 | some n => n % 2 ^ 32) ∧
    y.drop 0x30 = List.replicate 16 0 := by
  rw [same, show Rec.bytes (.photo p) = photoBytes p from rfl]
  refine ⟨by simp [photoBytes, leBytes_length, zeros_length], show field _ 0 1 = 5 % 2 ^ 8 from ?_, ?_,
    show field _ 2 2 = 64 % 2 ^ 16 from ?_, ?_, ?_, ?_, ?_, ?_, ?_, ?_, ?_, ?_, ?_, ?_⟩
  all_goals
    unfold photoBytes
    simp only [List.append_assoc, field_le_past, field_zeros_past, field_option_past, field_le_here, field_zeros_here,
      field_option_here, drop_le_past, drop_zeros_past, drop_option_past, List.drop_zero, Nat.reduceMul,
      Nat.reduceLeDiff, Nat.reduceSub, Nat.le_refl, Nat.sub_self]
  · cases p.status <;> rfl
  · cases p.mode <;> rfl
  · cases p.shot <;> rfl
  · cases p.line <;> rfl
  · rfl

theorem markBytes_fields (tag time : Nat) (same : y = Rec.bytes (.mark tag time)) :
    y.length = 24 ∧ field y 0x00 1 = 6 ∧ field y 0x01 1 = 0 ∧ field y 0x02 2 = 24 ∧ field y 0x04 4 = tag % 2 ^ 32 ∧
    field y 0x08 8 = time % 2 ^ 64 ∧ y.drop 0x10 = List.replicate 8 0 := by
  rw [same, show Rec.bytes (.mark tag time) = markBytes tag time from rfl]
  refine ⟨by simp [markBytes, leBytes_length, zeros_length], show field _ 0 1 = 6 % 2 ^ 8 from ?_, ?_,
    show field _ 2 2 = 24 % 2 ^ 16 from ?_, ?_, ?_, ?_⟩
  all_goals
    unfold markBytes
    simp only [List.append_assoc, field_le_past, field_zeros_past, field_le_here, field_zeros_here, drop_le_past,
      drop_zeros_past, List.drop_zero, Nat.reduceMul, Nat.reduceLeDiff, Nat.reduceSub, Nat.le_refl, Nat.sub_self]
  rfl

/-! ## SHOT records -/

theorem echoBytes_length (e : EchoEntry) : (echoBytes e).length = 16 := by
  simp [echoBytes, leBytes_length, zeros_length]

theorem echoesBytes_length (l : List EchoEntry) : (echoesBytes l).length = 16 * l.length := by
  induction l with
  | nil => rfl
  | cons e es ih =>
    unfold echoesBytes
    rw [List.length_append, echoBytes_length, ih, List.length_cons]
    omega

/-- The entry of an echo stands behind those before it. -/
theorem echoesBytes_drop {l : List EchoEntry} {i : Nat} {e : EchoEntry} (at_ : l[i]? = some e) :
    ∃ more, (echoesBytes l).drop (16 * i) = echoBytes e ++ more := by
  induction l generalizing i with
  | nil => cases at_
  | cons x xs ih =>
    cases i with
    | zero => cases at_; exact ⟨_, rfl⟩
    | succ i =>
      obtain ⟨more, behind⟩ := ih at_
      refine ⟨more, ?_⟩
      unfold echoesBytes
      rw [drop_past (echoBytes_length x) (by omega), ← behind]
      congr 1

theorem echoBytes_fields (e : EchoEntry) (more : List Byte) :
    field (echoBytes e ++ more) 0 4 = e.range % 2 ^ 32 ∧ field (echoBytes e ++ more) 4 2 = e.amplitude % 2 ^ 16 ∧
    field (echoBytes e ++ more) 6 2 = e.width % 2 ^ 16 ∧
    field (echoBytes e ++ more) 8 1 = (if e.saturated then 1 else 0) + (if e.uncertain then 2 else 0) ∧
    field (echoBytes e ++ more) 9 7 = 0 := by
  refine ⟨?_, ?_, ?_, ?_, ?_⟩
  all_goals
    unfold echoBytes
    simp only [List.append_assoc, field_le_past, field_le_here, field_zeros_here, Nat.reduceMul,
      Nat.reduceLeDiff, Nat.reduceSub, Nat.le_refl, Nat.sub_self]
  cases e.saturated <;> cases e.uncertain <;> rfl

/-- The echo entries stand behind the 32 bytes of the record's own values. -/
theorem shotBytes_drop (r : ShotRec) : (shotBytes r).drop 0x20 = echoesBytes r.echoes := by
  unfold shotBytes
  simp only [List.append_assoc, drop_le_past, drop_zeros_past, drop_option_past, List.drop_zero, Nat.reduceLeDiff,
    Nat.reduceSub, Nat.le_refl, Nat.sub_self]

theorem shotBytes_fields (r : ShotRec) (same : y = Rec.bytes (.shot r)) :
    y.length = 32 + 16 * r.echoes.length ∧ field y 0x00 1 = 2 ∧
    field y 0x01 1 = (if r.overflow then 1 else 0) + (if r.zoneSwitch then 2 else 0) ∧
    field y 0x02 2 = (32 + 16 * r.echoes.length) % 2 ^ 16 ∧ field y 0x04 1 = r.echoes.length % 2 ^ 8 ∧
    field y 0x05 1 = (match r.zone with | none => 255 | some z => z % 2 ^ 8) ∧ field y 0x06 2 = 0 ∧
    field y 0x08 8 = r.number % 2 ^ 64 ∧ field y 0x10 4 = r.angle % 2 ^ 32 ∧ field y 0x14 4 = r.azimuth % 2 ^ 32 ∧
    field y 0x18 4 = r.line % 2 ^ 32 ∧ field y 0x1C 4 = 0 ∧
    ∀ i e, r.echoes[i]? = some e →
      field y (0x20 + 16 * i) 4 = e.range % 2 ^ 32 ∧ field y (0x24 + 16 * i) 2 = e.amplitude % 2 ^ 16 ∧
      field y (0x26 + 16 * i) 2 = e.width % 2 ^ 16 ∧
      field y (0x28 + 16 * i) 1 = (if e.saturated then 1 else 0) + (if e.uncertain then 2 else 0) ∧
      field y (0x29 + 16 * i) 7 = 0 := by
  rw [same, show Rec.bytes (.shot r) = shotBytes r from rfl]
  have length : (shotBytes r).length = 32 + 16 * r.echoes.length := by
    unfold shotBytes
    simp only [List.length_append, leBytes_length, zeros_length, leOption_length, echoesBytes_length]
  refine ⟨length, show field _ 0 1 = 2 % 2 ^ 8 from ?_, ?_, ?_, ?_, ?_, ?_, ?_, ?_, ?_, ?_, ?_, fun i e at_ => ?_⟩
  rotate_right
  · obtain ⟨more, behind⟩ := echoesBytes_drop at_
    have here (o n : Nat) : field (shotBytes r) (0x20 + 16 * i + o) n = field (echoBytes e ++ more) o n := by
      rw [← behind, ← shotBytes_drop, field_drop, field_drop, ← Nat.add_assoc]
    have shift (o : Nat) : 0x20 + o + 16 * i = 0x20 + 16 * i + o := by omega
    obtain ⟨range, amplitude, width, marks, rest⟩ := echoBytes_fields e more
    exact ⟨(here 0 4).trans range, by rw [shift 4, here]; exact amplitude, by rw [shift 6, here]; exact width,
      by rw [shift 8, here]; exact marks, by rw [shift 9, here]; exact rest⟩
  all_goals
    unfold shotBytes
    simp only [List.append_assoc, field_le_past, field_zeros_past, field_option_past, field_le_here, field_zeros_here,
      field_option_here, Nat.reduceMul, Nat.reduceLeDiff, Nat.reduceSub, Nat.le_refl, Nat.sub_self]
  · cases r.overflow <;> cases r.zoneSwitch <;> rfl
  · cases r.zone <;> rfl

end Sys2Proof.Machine


/-! PROOFS. A record's write completes (R80, R87, R95, R97, R119). -/

namespace Sys2Proof.Machine

variable {s r u : State} {p q page : Page} {e : Entry} {es : List Entry} {len : Nat} {j : ScanJob}

/-! ## The fill and the head of the queue (R80, R95) -/

/-- The page once a record of it has been written. -/
def Page.raised (p : Page) (len : Nat) (x : Rec) : Page := { p with
  fill := p.fill + len,
  firstLine := (match p.firstLine with | none => x.line? | some l => some l),
  firstShot := (match p.firstShot with | none => x.shot? | some n => some n) }

/-- The state in which a record's write is reported onward: the head of the queue gone, and its page raised. -/
def recordLeft (es : List Entry) (q : Page) (s : State) : State :=
  (s.setStaging { s.staging with entries := es }).setPages { s.pages with current := some q }

theorem recordLeft_onlyIn (es : List Entry) (q : Page) (s : State) :
    OnlyIn (fields [.staging, .pages]) s (recordLeft es q s) := fun f other => by
  cases f with
  | staging | pages => cases other
  | _ => rfl

theorem recordWritten_eq (queue : s.staging.entries = e :: es) (current : s.pages.current = some p) :
    recordWritten len s = recordReport e (recordLeft es (p.raised len e.record) s) := by
  unfold recordWritten
  rw [queue]
  dsimp only
  unfold setFirsts raiseFill
  rw [show (s.setStaging { s.staging with entries := es }).pages.current = some p from current]
  rfl

theorem endAbandon_same (current : s.pages.current = some p) (stage : p.stage ≠ .abandoned) : endAbandon s = s := by
  unfold endAbandon
  rw [current]
  exact if_neg fun due => stage due.1

theorem continuationWritten_eq (current : s.pages.current = some p) : continuationWritten len s =
    s.setPages { s.pages with current := some { p with
      fill := p.fill + len, contIssued := false, holdsHeader := true,
      firstLine := (match p.firstLine with | none => s.pages.line.map (fun y => y.2.line) | some l => some l) } } := by
  unfold continuationWritten raiseFill
  rw [current]
  rfl

/-! ## What a record reports onward (R87, R97, R119) -/

theorem recordReport_header {h : HeaderRec} (kind : e.record = .header h) (current : s.pages.current = some q) :
    recordReport e s = s.setPages { s.pages with current := some { q with holdsHeader := true }, line := some (e.job, h) } := by
  unfold recordReport
  rw [kind]
  dsimp only
  rw [show (s.setPages { s.pages with line := some (e.job, h) }).pages.current = some q from current]
  rfl

theorem recordReport_ownShot {x : ShotRec} (kind : e.record = .shot x) (run : s.job = some (.scan j))
    (own : e.job = s.jobSerial) : recordReport e s = putScan { j with
      shotsStored := satAdd 64 j.shotsStored 1, echoesStored := satAdd 64 j.echoesStored x.echoes.length } s := by
  unfold recordReport
  rw [kind]
  dsimp only
  rw [run]
  exact if_pos own

theorem not_scan_of_dark (dark : s.scanJob = none) : s.job ≠ some (.scan j) := fun run => by
  rw [scanJob_of_job run] at dark
  cases dark

theorem recordReport_othersShot {x : ShotRec} (kind : e.record = .shot x)
    (other : s.scanJob = none ∨ e.job ≠ s.jobSerial) : recordReport e s = s := by
  unfold recordReport
  rw [kind]
  dsimp only
  split
  next j run => exact if_neg fun own => other.elim (fun dark => not_scan_of_dark dark run) fun no => no own
  · rfl

/-- The line in progress once a trailer has been written. -/
def trailerLeft (e : Entry) (line : Nat) (s : State) : State :=
  s.setPages { s.pages with
    line := (if s.pages.line.map (fun y => (y.1, y.2.line)) = some (e.job, line) then none else s.pages.line) }

theorem trailerLeft_eq (e : Entry) (line : Nat) (s : State) :
    (if s.pages.line.map (fun x => (x.1, x.2.line)) = some (e.job, line) then s.setPages { s.pages with line := none }
      else s) = trailerLeft e line s := by
  unfold trailerLeft
  split <;> rfl

/-- The running scan's own trailer is written: its counts go back to the block (R119, R174). -/
theorem recordReport_ownTrailer {t : TrailerRec} (kind : e.record = .trailer t) (run : s.job = some (.scan j))
    (own : e.job = s.jobSerial) :
    (recordReport e s).job = some (.scan { j with linesStored := j.linesStored + 1, lastStored := some t.line }) ∧
    WroteBack [(0x48, leBytes 4 (j.linesStored + 1)), (0x4C, leBytes 4 t.line)] s (recordReport e s) ∧
    (recordReport e s).pages = (trailerLeft e t.line s).pages ∧
    OnlyIn (fields [.pages, .job, .reader, .port]) s (recordReport e s) := by
  have stored : recordReport e s = scanTrailerStored t.line j (trailerLeft e t.line s) := by
    unfold recordReport
    rw [kind]
    dsimp only
    rw [trailerLeft_eq, show (trailerLeft e t.line s).job = some (.scan j) from run]
    exact if_pos own
  rw [stored]
  generalize placed : putScan { j with linesStored := j.linesStored + 1, lastStored := some t.line }
    (trailerLeft e t.line s) = z
  have only : OnlyIn (fields [.pages, .job]) s z := by
    rw [← placed]
    exact Acts.only (putScan_acts _ (setPages_acts _ (.refl (fields [.pages, .job]) s) rfl) rfl)
  have wrote := pushProgress_wroteBack [(0x48, leBytes 4 (j.linesStored + 1)), (0x4C, leBytes 4 t.line)] z
  have kept := pushProgress_onlyIn [(0x48, leBytes 4 (j.linesStored + 1)), (0x4C, leBytes 4 t.line)] z
  have same : scanTrailerStored t.line j (trailerLeft e t.line s) =
      pushProgress [(0x48, leBytes 4 (j.linesStored + 1)), (0x4C, leBytes 4 t.line)] z := by
    rw [← placed]
    rfl
  rw [same]
  have reader : z.reader = s.reader := only .reader rfl
  have port : z.port = s.port := only .port rfl
  obtain ⟨lost, joins, issues⟩ := wrote
  rw [reader, port] at lost joins issues
  refine ⟨(kept .job rfl).trans (by rw [← placed]; rfl), ⟨lost, joins, issues⟩, (kept .pages rfl).trans (by rw [← placed]; rfl),
    (only.widen (by decide)).trans (kept.widen (by decide))⟩

theorem recordReport_othersTrailer {t : TrailerRec} (kind : e.record = .trailer t)
    (other : s.scanJob = none ∨ e.job ≠ s.jobSerial) : recordReport e s = trailerLeft e t.line s := by
  unfold recordReport
  rw [kind]
  dsimp only
  rw [trailerLeft_eq]
  split
  next j run => exact if_neg fun own => other.elim (fun dark => not_scan_of_dark dark run) fun no => no own
  · rfl

theorem recordReport_mark {tag time : Nat} (kind : e.record = .mark tag time) : recordReport e s =
    if s.markWait = some e.seq ∧ s.job = some .markWait then finishJob .mark ⟨.none, 0, []⟩ (s.setMarkWait none) else s := by
  unfold recordReport
  rw [kind]
  rfl

theorem recordReport_awaitedMark {tag time : Nat} (kind : e.record = .mark tag time) (awaited : s.markWait = some e.seq)
    (run : s.job = some .markWait) : recordReport e s = finishJob .mark ⟨.none, 0, []⟩ (s.setMarkWait none) := by
  rw [recordReport_mark kind, if_pos ⟨awaited, run⟩]

theorem recordReport_othersMark {tag time : Nat} (kind : e.record = .mark tag time)
    (other : s.markWait ≠ some e.seq ∨ s.job ≠ some .markWait) : recordReport e s = s := by
  rw [recordReport_mark kind, if_neg fun both => other.elim (fun no => no both.1) fun no => no both.2]

theorem recordReport_gap {l : Loss} (kind : e.record = .gap l) : recordReport e s = s := by
  unfold recordReport
  rw [kind]

theorem recordReport_photo {l : PhotoRec} (kind : e.record = .photo l) : recordReport e s = s := by
  unfold recordReport
  rw [kind]

/-! ## The event -/

theorem exec_recordWrite {m : Moment} {x : Transfer} {rest : List Outstanding} (awaits : OldestAwaits m.transfer s x rest)
    (who : x.requester = .record) (after : r = reported m x rest s)
    (purpose : x.purpose = .record ∨ x.purpose = .continuation) :
    exec (.recordWriteComplete m) s = .next (advancePages (endAbandon (completed x.purpose x.len [] r))) := by
  rw [after]
  refine next_congr (completeOldest_record m.transfer m s x rest awaits who _ ?_ [])
  rw [Bool.or_eq_true, decide_eq_true_iff, decide_eq_true_iff]
  exact purpose

/-- A record's own write, its page not abandoned: what is left is what the record reports onward. -/
theorem exec_recordWritten {m : Moment} {x : Transfer} {rest : List Outstanding} (awaits : OldestAwaits m.transfer s x rest)
    (who : x.requester = .record) (after : r = reported m x rest s) (purpose : x.purpose = .record)
    (current : r.pages.current = some p) (queue : r.staging.entries = e :: es) (fill : q = p.raised x.len e.record)
    (tells : recordReport e (recordLeft es q r) = u) (left : u.pages.current = some page) (stage : page.stage ≠ .abandoned) :
    exec (.recordWriteComplete m) s = .next (advancePages u) := by
  have written : recordWritten x.len r = u := by rw [recordWritten_eq queue current, ← fill, tells]
  rw [exec_recordWrite awaits who after (.inl purpose), purpose]
  show Host.Outcome.next (advancePages (endAbandon (recordWritten x.len r))) = _
  rw [written, endAbandon_same left stage]

/-- A trailer has left the queue, and is the running scan's own or another's. -/
theorem trailerWritten_told {t : TrailerRec} (kind : e.record = .trailer t)
    (line : Option (Nat × HeaderRec))
    (lineLeft : line = if s.pages.line.map (fun y => (y.1, y.2.line)) = some (e.job, t.line) then none else s.pages.line)
    (told : u = recordReport e (recordLeft es q s)) :
    u.staging.entries = es ∧ u.pages = { s.pages with current := some q, line := line } ∧
    (∀ j, s.job = some (.scan j) → e.job = s.jobSerial →
      u.job = some (.scan { j with linesStored := j.linesStored + 1, lastStored := some t.line }) ∧
      WroteBack [(0x48, leBytes 4 (j.linesStored + 1)), (0x4C, leBytes 4 t.line)] s u) ∧
    (s.scanJob = none ∨ e.job ≠ s.jobSerial → u.job = s.job ∧ u.reader = s.reader ∧ u.port = s.port) ∧
    OnlyIn (fields [.staging, .pages, .job, .reader, .port]) s u := by
  subst told lineLeft
  have left := recordLeft_onlyIn es q s
  by_cases other : s.scanJob = none ∨ e.job ≠ s.jobSerial
  · rw [recordReport_othersTrailer (s := recordLeft es q s) kind other]
    refine ⟨rfl, rfl, fun j run own => (other.elim (fun dark => not_scan_of_dark dark run) fun no => no own).elim,
      fun _ => ⟨rfl, rfl, rfl⟩, (left.widen (by decide)).trans
        (Acts.only (setPages_acts _ (.refl (fields [.staging, .pages, .job, .reader, .port]) _) rfl))⟩
  · rw [not_or, Decidable.not_not] at other
    obtain ⟨runs, own⟩ := other
    obtain ⟨j, job⟩ := Option.ne_none_iff_exists'.1 runs
    have run := job_of_scanJob job
    obtain ⟨after, wrote, pages, only⟩ := recordReport_ownTrailer (s := recordLeft es q s) kind run own
    refine ⟨congrArg Staging.entries (only .staging rfl), pages, fun k run' _ => ?_, fun other => ?_,
      (left.widen (by decide)).trans (only.widen (by decide))⟩
    · rw [run] at run'
      cases run'
      obtain ⟨lost, joins, issues⟩ := wrote
      exact ⟨after, lost, joins, issues⟩
    · exact (other.elim runs fun no => no own).elim

/-- Settles O52: the bytes of every kind of record, and what the completion of its write brings. -/
theorem recordWriteCompletes : Obligations.RecordWriteCompletes := by
  unfold Obligations.RecordWriteCompletes
  refine ⟨fun continued h y same => headerBytes_fields continued h same, fun x y same => shotBytes_fields x same,
    fun x y same => trailerBytes_fields x same, by decide, fun l y same => gapBytes_fields l same,
    fun x y same => photoBytes_fields x same, fun tag time y same => markBytes_fields tag time same, fun h => rfl, ?_⟩
  rintro m s r x rest e es p q awaits who after current stage queue fill
  have pages : r.pages = s.pages := by rw [after, reported_pages]
  have staging : r.staging = s.staging := by rw [after, reported_staging]
  have job : r.job = s.job := by rw [after, reported_job]
  have serial : r.jobSerial = s.jobSerial := by rw [after, reported_jobSerial]
  have markWait : r.markWait = s.markWait := by rw [after, reported_markWait]
  have reader : r.reader = s.reader := by rw [after, reported_reader]
  have seals : r.seals = s.seals := by rw [after, reported_seals]
  have scan : r.scanJob = s.scanJob := scanJob_congr job
  rw [← pages] at current
  rw [← staging] at queue
  rw [← pages, ← staging, ← job, ← serial, ← markWait, ← reader, ← seals, ← scan]
  have open_ : q.stage ≠ .abandoned := by rw [fill]; exact stage
  have written {u : State} {page : Page} (purpose : x.purpose = .record) (tells : recordReport e (recordLeft es q r) = u)
      (left : u.pages.current = some page) (stage : page.stage ≠ .abandoned) :=
    exec_recordWritten awaits who after purpose current queue fill tells left stage
  refine ⟨fun purpose => ⟨fun h kind => ?_, fun y j kind run own => ?_, fun y kind other => ?_, fun t kind => ?_,
    fun tag time kind => ?_, fun l kind => ?_, fun l kind => ?_⟩, fun purpose => ?_⟩
  · exact written purpose (recordReport_header kind rfl) rfl open_
  · exact written purpose (recordReport_ownShot kind run own) rfl open_
  · exact written purpose (recordReport_othersShot kind other) rfl open_
  · obtain ⟨entries, left, own, others, only⟩ := trailerWritten_told (s := r) (es := es) (q := q) kind _ rfl rfl
    exact ⟨_, written purpose rfl (congrArg Pages.current left) open_, entries, left, own, others, only⟩
  · by_cases awaited : r.markWait = some e.seq ∧ r.job = some .markWait
    · have tells := recordReport_awaitedMark (s := recordLeft es q r) kind awaited.1 awaited.2
      obtain ⟨mark, left⟩ := finishJob_pages .mark ⟨.none, 0, []⟩ ((recordLeft es q r).setMarkWait none)
      have beside : OnlyIn (fun f => decide (f ≠ .staging ∧ f ≠ .markWait)) ((recordLeft es q r).setMarkWait none)
          (finishJob .mark ⟨.none, 0, []⟩ ((recordLeft es q r).setMarkWait none)) :=
        Acts.only (by apply_rules [finishJob_acts, Acts.refl])
      refine ⟨_, written purpose tells (congrArg Pages.current left) open_,
        congrArg Staging.entries (beside .staging rfl), fun _ _ kept => ⟨beside .markWait rfl, ?_⟩,
        fun other => (other.elim (fun no => no awaited.1) fun no => no awaited.2).elim⟩
      exact finishJob_finishes (s := (recordLeft es q r).setMarkWait none) kept
    · have other : r.markWait ≠ some e.seq ∨ r.job ≠ some .markWait := Decidable.not_and_iff_not_or_not.1 awaited
      refine ⟨_, written purpose (recordReport_othersMark kind other) rfl open_, rfl,
        fun yes run => absurd ⟨yes, run⟩ awaited, fun _ => rfl⟩
  · exact written purpose (recordReport_gap kind) rfl open_
  · exact written purpose (recordReport_photo kind) rfl open_
  · rw [exec_recordWrite awaits who after (.inr purpose), purpose]
    show Host.Outcome.next (advancePages (endAbandon (continuationWritten x.len r))) = _
    rw [continuationWritten_eq current]
    have same := endAbandon_same (s := r.setPages { r.pages with current := some { p with
      fill := p.fill + x.len, contIssued := false, holdsHeader := true,
      firstLine := (match p.firstLine with | none => r.pages.line.map (fun y => y.2.line) | some l => some l) } }) rfl stage
    rw [same]
    rfl

end Sys2Proof.Machine


/-! PROOFS. Examinations and link reads (R172, R173, R176, R177, R182). -/

namespace Sys2Proof.Machine

variable {s r u : State} {data blk : List Byte} {c link : Nat}

/-! ## The result code write (R175, R193) -/

/-- Result code and detail go out in one write of 8 bytes, the two between them left alone. -/
theorem resultCode_write (res : JobResult) : (resultCodeFields res).toWrite =
    ⟨0x18, leBytes 2 res.code.code ++ (zeros 2 ++ leBytes 4 res.detail),
      [true, true, false, false, true, true, true, true]⟩ := by
  unfold resultCodeFields
  simp [Fields.toWrite, Fields.data, Fields.mask, Fields.low, Fields.high, ceilDiv, List.range_succ, Fields.byteAt, leBytes]
  rfl

theorem resultCode_lt (code : ResultCode) : code.code < 65536 := by cases code <;> decide

theorem resultCode_fields (res : JobResult) (w : Transfer)
    (h : w = blockTransfer .resultCode (Fields.toWrite (resultCodeFields res)) s) :
    w.purpose = .resultCode ∧ w.write = true ∧ w.addr = addrOf (s.blockAddr + 0x18) ∧ field w.data 0 2 = res.code.code ∧
    field w.data 4 4 = res.detail % 2 ^ 32 ∧ w.mask = [true, true, false, false, true, true, true, true] := by
  rw [h]
  unfold blockTransfer
  rw [resultCode_write]
  refine ⟨rfl, rfl, rfl, ?_, ?_, rfl⟩
  · exact field_le_here.trans (Nat.mod_eq_of_lt (resultCode_lt _))
  · show field (leBytes 2 _ ++ (zeros 2 ++ leBytes 4 _)) 4 4 = _
    simp only [field_le_past, field_zeros_past, field_le_whole, Nat.reduceLeDiff, Nat.reduceSub, Nat.reduceMul]

theorem takenState_write : Fields.toWrite [(0, leBytes 1 blockTaken)] = ⟨0, [2, 0, 0, 0, 0, 0, 0, 0],
    [true, false, false, false, false, false, false, false]⟩ := by decide

/-! ## The reader halts or waits (R172, R182) -/

theorem enterHalted_halts (cause : HaltCause) (s : State) :
    (enterHalted cause s).reader = { s.reader with state := .halted, haltCause := some cause, activity := .idle, lookAgain := false } ∧
    (enterHalted cause s).port = s.port.ignore (fun t => t.purpose.isReaderRead) ∧
    (enterHalted cause s).notices.pending = s.notices.pending ||| 16 ∧
    OnlyIn (fields [.reader, .port, .notices]) s (enterHalted cause s) :=
  ⟨rfl, rfl, raise_pending .halted _, Acts.only (by apply_rules [enterHalted_acts, Acts.refl])⟩

theorem haltOnPending_halts (s : State) :
    (haltOnPending s).reader = { s.reader with
      state := .halted, haltCause := some .halt, haltPending := false, activity := .idle, lookAgain := false } ∧
    (haltOnPending s).port = s.port.ignore (fun t => t.purpose.isReaderRead) ∧
    (haltOnPending s).notices.pending = s.notices.pending ||| 16 ∧
    OnlyIn (fields [.reader, .port, .notices]) s (haltOnPending s) :=
  ⟨rfl, rfl, raise_pending .halted _, Acts.only (by apply_rules [haltOnPending_acts, Acts.refl])⟩

theorem enterWait_waits (w : ReaderState) (s : State) :
    (enterWait w s).reader = { s.reader with state := w, activity := .idle } ∧
    (s.reader.state = w → (enterWait w s).notices = s.notices) ∧
    (s.reader.state ≠ w → (enterWait w s).notices.pending = s.notices.pending ||| 8) ∧
    OnlyIn (fields [.reader, .notices]) s (enterWait w s) := by
  have only : OnlyIn (fields [.reader, .notices]) s (enterWait w s) := Acts.only (by apply_rules [enterWait_acts, Acts.refl])
  unfold enterWait at only ⊢
  by_cases same : s.reader.state = w
  · rw [if_pos same] at only ⊢
    exact ⟨rfl, fun _ => rfl, fun other => absurd same other, only⟩
  · rw [if_neg same] at only ⊢
    exact ⟨rfl, fun yes => absurd yes same, fun _ => raise_pending .chainWait _, only⟩

/-! ## The block is classified (R173, R177, R182) -/

theorem blockJob_known (low : 1 ≤ blockKind s.reader.block) (high : blockKind s.reader.block ≤ 9) :
    s.blockJob.isSome = true := by
  unfold State.blockJob
  generalize blockKind s.reader.block = k at low high
  have one : k = 1 ∨ k = 2 ∨ k = 3 ∨ k = 4 ∨ k = 5 ∨ k = 6 ∨ k = 7 ∨ k = 8 ∨ k = 9 := by omega
  rcases one with rfl | rfl | rfl | rfl | rfl | rfl | rfl | rfl | rfl <;> rfl

theorem blockJob_unknown (other : blockKind s.reader.block = 0 ∨ 9 < blockKind s.reader.block) :
    s.blockJob.isSome = false := by
  unfold State.blockJob JobKind.ofCode
  generalize blockKind s.reader.block = k at other
  split <;> first | omega | rfl

theorem classifyBlock_known (ready : blockState s.reader.block = 1) (low : 1 ≤ blockKind s.reader.block)
    (high : blockKind s.reader.block ≤ 9) : classifyBlock s = takeBlock s := by
  unfold classifyBlock
  dsimp only
  rw [if_pos ready, if_pos (blockJob_known low high)]

theorem classifyBlock_unknown (ready : blockState s.reader.block = 1)
    (other : blockKind s.reader.block = 0 ∨ 9 < blockKind s.reader.block) : classifyBlock s = rejectKind s := by
  unfold classifyBlock
  dsimp only
  rw [if_pos ready, if_neg (by rw [blockJob_unknown other]; decide)]

theorem classifyBlock_empty (empty : blockState s.reader.block = 0) : classifyBlock s = blockEmpty s := by
  unfold classifyBlock
  dsimp only
  rw [if_neg (by rw [empty]; decide), if_pos empty]

theorem classifyBlock_stale (stale : 2 ≤ blockState s.reader.block) : classifyBlock s = enterHalted .staleBlock s := by
  unfold classifyBlock
  dsimp only
  rw [if_neg (by omega), if_neg (by omega)]

/-- A block is taken by a write of its state alone. -/
theorem takeBlock_takes (cursor : s.reader.cursor = some c) : takeBlock s = { s with
    reader := { s.reader with state := .running, taken := some c, lookAgain := false, activity := .taking },
    port := s.port.request ⟨.chain, .takenWrite, true, addrOf c, 8, [2, 0, 0, 0, 0, 0, 0, 0],
      [true, false, false, false, false, false, false, false], true⟩ } := by
  unfold takeBlock stateTransfer
  rw [takenState_write]
  unfold blockTransfer State.blockAddr
  dsimp only
  rw [show (s.setReader { s.reader with
    state := .running, taken := s.reader.cursor, lookAgain := false, activity := .taking }).reader.cursor = some c from cursor,
    cursor]
  rfl

/-- With nothing else to be written a result's code goes out at once. -/
theorem nextBlockWrite_result {res : JobResult} (idle : s.reader.writeBusy = false) (list : s.reader.writeList = [])
    (result : s.reader.result = some res) : nextBlockWrite s = { s with
      reader := { s.reader with writeBusy := true },
      port := s.port.request (blockTransfer .resultCode (Fields.toWrite (resultCodeFields res)) s) } := by
  unfold nextBlockWrite
  rw [if_neg (by rw [idle]; decide), list]
  dsimp only
  rw [result]
  rfl

theorem rejectKind_writes (cursor : s.reader.cursor = some c) (idle : s.reader.writeBusy = false)
    (list : s.reader.writeList = []) : ∃ w, rejectKind s = { s with
      reader := { s.reader with
        state := .running, lookAgain := false, activity := .result, writeBusy := true,
        result := some ⟨.badKind, blockKind s.reader.block, []⟩ },
      port := s.port.request w } ∧
    w.purpose = .resultCode ∧ w.write = true ∧ w.addr = addrOf (c + 0x18) ∧ field w.data 0 2 = 12 ∧
    field w.data 4 4 = blockKind s.reader.block ∧ w.mask = [true, true, false, false, true, true, true, true] := by
  have told := nextBlockWrite_result (s := s.setReader { s.reader with
    state := .running, lookAgain := false, activity := .result,
    result := some (plainResult .badKind (blockKind s.reader.block)) }) idle list rfl
  obtain ⟨purpose, write, addr, code, detail, mask⟩ := resultCode_fields (s := s.setReader { s.reader with
    state := .running, lookAgain := false, activity := .result,
    result := some (plainResult .badKind (blockKind s.reader.block)) }) _ _ rfl
  refine ⟨_, told, purpose, write, addr.trans ?_, code, detail.trans ?_, mask⟩
  · exact congrArg (fun x : Option Nat => addrOf (x.getD 0 + 0x18)) cursor
  · refine Nat.mod_eq_of_lt (Nat.lt_of_lt_of_le (field_lt _ _ 1) (by decide))

theorem blockEmpty_halts (running : s.reader.state = .running) (halt : s.reader.haltPending = true) :
    blockEmpty s = haltOnPending s := if_pos ⟨running, halt⟩

theorem blockEmpty_again (waits : s.reader.state = .waitReady) (again : s.reader.lookAgain = true) :
    blockEmpty s = beginExamination (s.setReader { s.reader with lookAgain := false }) := by
  unfold blockEmpty
  rw [if_neg (by rw [waits]; exact fun h => nomatch h.1), if_pos ⟨waits, again⟩]

theorem blockEmpty_waits (h : (s.reader.state = .waitReady ∧ s.reader.lookAgain = false) ∨
    (s.reader.state ≠ .waitReady ∧ (s.reader.state ≠ .running ∨ s.reader.haltPending = false))) :
    blockEmpty s = enterWait .waitReady (s.setReader { s.reader with lookAgain := false }) := by
  unfold blockEmpty
  rw [if_neg, if_neg]
  · rintro ⟨waits, again⟩
    rcases h with ⟨-, no⟩ | ⟨other, -⟩
    · rw [no] at again; cases again
    · exact other waits
  · rintro ⟨running, halt⟩
    rcases h with ⟨waits, -⟩ | ⟨-, idle | no⟩
    · rw [running] at waits; cases waits
    · exact idle running
    · rw [no] at halt; cases halt

/-- An examination begins on the block the reader is on. -/
theorem beginExamination_reads (cursor : s.reader.cursor = some c) : beginExamination s = { s with
    reader := { s.reader with activity := .examining none },
    port := (s.port.request (readTransfer .chain (.examination 0) c 256)).request
      (readTransfer .chain (.examination 1) (c + 256) 256) } := by
  unfold beginExamination State.blockAddr
  rw [cursor]
  rfl

/-! ## The link (R176, R177, R182) -/

theorem linkRead_none (zero : field data 0 8 = 0) : linkRead data s =
    if s.reader.haltPending = true then haltOnPending s
    else if s.reader.state = .waitLink ∧ s.reader.lookAgain = true then
      beginLinkRead (s.setReader { s.reader with lookAgain := false })
    else enterWait .waitLink (s.setReader { s.reader with lookAgain := false }) := if_pos zero

theorem linkRead_valid (some_ : field data 0 8 ≠ 0) (aligned : field data 0 8 % 64 = 0)
    (within : field data 0 8 ≤ 2 ^ 48 - 512) : linkRead data s =
    if s.reader.haltPending = true then
      haltOnPending (s.setReader { s.reader with cursor := some (field data 0 8), lookAgain := false })
    else beginExamination (s.setReader { s.reader with
      cursor := some (field data 0 8), lookAgain := false, state := .running }) := by
  unfold linkRead
  dsimp only
  rw [if_neg some_, if_pos ((validBlockAddr_iff _).2 ⟨some_, aligned, within⟩)]
  rfl

theorem linkRead_invalid (some_ : field data 0 8 ≠ 0) (bad : field data 0 8 % 64 ≠ 0 ∨ 2 ^ 48 - 512 < field data 0 8) :
    linkRead data s = enterHalted .staleBlock s := by
  unfold linkRead
  dsimp only
  rw [if_neg some_, if_neg]
  rw [validBlockAddr_iff]
  rintro ⟨-, aligned, within⟩
  exact bad.elim (fun no => no aligned) (Nat.not_lt.2 within)

/-! ## The events -/

theorem exec_examinationRead {m : Moment} {x : Transfer} {rest : List Outstanding} {half : Nat}
    (awaits : OldestAwaits m.transfer s x rest) (who : x.requester = .chain) (after : r = reported m x rest s)
    (purpose : x.purpose = .examination half) :
    exec (.examinationReadComplete m data) s = .next (advancePages (examinationRead half data r)) := by
  refine next_congr ((completeOldest_chain m.transfer m s x rest awaits who _ (by rw [purpose]; rfl) data).trans ?_)
  rw [purpose, after]
  rfl

theorem exec_linkRead {m : Moment} {x : Transfer} {rest : List Outstanding} (awaits : OldestAwaits m.transfer s x rest)
    (who : x.requester = .chain) (after : r = reported m x rest s) (purpose : x.purpose = .link) :
    exec (.linkReadComplete m data) s = .next (advancePages (linkRead data r)) := by
  refine next_congr ((completeOldest_chain m.transfer m s x rest awaits who _ (decide_eq_true purpose) data).trans ?_)
  rw [purpose, after]
  rfl

theorem examinationRead_first {held : Option (List Byte)} (examines : s.reader.activity = .examining held) :
    examinationRead 0 data s = s.setReader { s.reader with activity := .examining (some data) } := by
  unfold examinationRead
  rw [examines]
  rfl

theorem examinationRead_second {first : List Byte} (examines : s.reader.activity = .examining (some first)) :
    examinationRead 1 data s = classifyBlock (s.setReader { s.reader with block := first ++ data }) := by
  unfold examinationRead
  rw [examines]
  rfl

/-- Moving the reader alone leaves the rest to what comes after. -/
theorem setReader_then {x : Reader} {l : List Field} (reader : fields l .reader = true)
    (h : OnlyIn (fields l) (s.setReader x) u) : OnlyIn (fields l) s u :=
  (Acts.only (setReader_acts x (.refl (fields l) s) reader)).trans h

/-- Settles O53: the block examined is classified, and the link found is followed. -/
theorem examinationAndLinkReads : Obligations.ExaminationAndLinkReads := by
  unfold Obligations.ExaminationAndLinkReads
  rintro m s r x rest data c awaits who after cursor
  have reader : r.reader = s.reader := by rw [after, reported_reader]
  have notices : r.notices = s.notices := by rw [after, reported_notices]
  rw [← reader] at cursor ⊢
  rw [← notices]
  refine ⟨fun held purpose examines => ?_, ?_, ?_⟩
  · rw [exec_examinationRead awaits who after purpose, examinationRead_first examines]
    rfl
  · rintro first blk purpose examines rfl
    have event := exec_examinationRead (data := data) awaits who after purpose
    rw [examinationRead_second examines] at event
    generalize hb : r.setReader { r.reader with block := first ++ data } = b at event
    have block : b.reader = { r.reader with block := first ++ data } := by rw [← hb]; rfl
    have told : first ++ data = b.reader.block := by rw [block]
    have only {u : State} {l : List Field} (reader : fields l .reader = true) (h : OnlyIn (fields l) b u) :
        OnlyIn (fields l) r u := setReader_then reader (hb ▸ h)
    have port : b.port = r.port := by rw [← hb]; rfl
    have notices : b.notices = r.notices := by rw [← hb]; rfl
    have cursorThere : b.reader.cursor = some c := by rw [block]; exact cursor
    refine ⟨fun ready low high => ?_, fun ready other idle list => ?_, fun empty running halt => ?_, fun empty waits again => ?_,
      fun empty h => ?_, fun stale => ?_⟩
    · rw [event, classifyBlock_known (told ▸ ready) (told ▸ low) (told ▸ high), takeBlock_takes cursorThere, ← hb]
      rfl
    · obtain ⟨w, writes, h⟩ := rejectKind_writes cursorThere (by rw [block]; exact idle) (by rw [block]; exact list)
      refine ⟨w, ?_, by rw [told]; exact h⟩
      rw [event, classifyBlock_unknown (told ▸ ready) (told ▸ other), writes, ← hb]
      rfl
    · rw [classifyBlock_empty (told ▸ empty), blockEmpty_halts (by rw [block]; exact running) (by rw [block]; exact halt)] at event
      obtain ⟨halted, -, pending, kept⟩ := haltOnPending_halts b
      rw [notices] at pending
      refine ⟨_, event, ?_, ?_, ?_, ?_, pending, only rfl kept⟩
      all_goals rw [halted]
      exact cursorThere
    · rw [event, classifyBlock_empty (told ▸ empty), blockEmpty_again (by rw [block]; exact waits) (by rw [block]; exact again),
        beginExamination_reads (s := b.setReader { b.reader with lookAgain := false }) cursorThere, ← hb]
      rfl
    · rw [classifyBlock_empty (told ▸ empty), blockEmpty_waits (by rw [block]; exact h)] at event
      obtain ⟨waits, stays, enters, kept⟩ := enterWait_waits .waitReady (b.setReader { b.reader with lookAgain := false })
      refine ⟨_, event, ?_, fun same => (stays ?_).trans notices, fun other => (enters ?_).trans ?_,
        only rfl (setReader_then rfl kept)⟩
      · rw [waits, State.setReader_reader, block]
      · rw [State.setReader_reader, block]
        exact same
      · rw [State.setReader_reader, block]
        exact other
      · exact congrArg (fun n : Notices => n.pending ||| 8) notices
    · rw [classifyBlock_stale (told ▸ stale)] at event
      obtain ⟨halted, -, pending, kept⟩ := enterHalted_halts .staleBlock b
      rw [notices] at pending
      refine ⟨_, event, ?_, ?_, ?_, ?_, pending, only rfl kept⟩
      all_goals rw [halted]
      exact cursorThere
  · rintro link purpose rfl
    have event := exec_linkRead (data := data) awaits who after purpose
    refine ⟨fun zero halt => ?_, fun zero on h => ?_, fun zero on waits again => ?_, fun some_ aligned within on => ?_,
      fun some_ aligned within halt => ?_, fun some_ bad => ?_⟩
    · rw [linkRead_none zero, if_pos halt] at event
      obtain ⟨halted, -, -, kept⟩ := haltOnPending_halts r
      refine ⟨_, event, ?_, ?_, ?_, ?_, kept⟩
      all_goals rw [halted]
      exact cursor
    · rw [linkRead_none zero, if_neg (by rw [on]; decide), if_neg] at event
      · obtain ⟨waits, stays, enters, kept⟩ := enterWait_waits .waitLink (r.setReader { r.reader with lookAgain := false })
        exact ⟨_, event, waits, stays, enters, setReader_then rfl kept⟩
      · rintro ⟨waits, again⟩
        exact h.elim (fun no => no waits) fun no => by rw [no] at again; cases again
    · rw [event, linkRead_none zero, if_neg (by rw [on]; decide), if_pos ⟨waits, again⟩]
      rfl
    · rw [event, linkRead_valid some_ aligned within, if_neg (by rw [on]; decide),
        beginExamination_reads (s := r.setReader _) (c := field data 0 8) rfl]
      rfl
    · rw [linkRead_valid some_ aligned within, if_pos halt] at event
      obtain ⟨halted, -, -, kept⟩ := haltOnPending_halts (r.setReader { r.reader with
        cursor := some (field data 0 8), lookAgain := false })
      refine ⟨_, event, ?_, ?_, ?_, ?_, setReader_then rfl kept⟩
      all_goals rw [halted]
      rfl
    · rw [linkRead_invalid some_ bad] at event
      obtain ⟨halted, -, -, kept⟩ := enterHalted_halts .staleBlock r
      refine ⟨_, event, ?_, ?_, ?_, kept⟩
      all_goals rw [halted]
      exact cursor

end Sys2Proof.Machine


/-! PROOFS. Fields of a block as masked writes (R162, R174): what bytes they put, and in what units. -/

namespace Sys2Proof.Machine

variable {fs : Fields} {f : Nat × List Byte} {w : BlockWrite} {i h a k : Nat} {x : Byte}

/-- Fields in the order of their offsets, none of which reaches into another. -/
abbrev Fields.apart (fs : Fields) : Prop := fs.Pairwise fun f g => f.1 + f.2.length ≤ g.1

/-! ## The byte at an offset -/

theorem inside_of_getElem? (low : f.1 ≤ i) (at_ : f.2[i - f.1]? = some x) : i < f.1 + f.2.length := by
  have := (List.getElem?_eq_some_iff.1 at_).1
  omega

/-- Fields put a byte at an offset where one of them has it. -/
theorem byteAt_iff (apart : fs.apart) : fs.byteAt i = some x ↔ ∃ f ∈ fs, f.1 ≤ i ∧ f.2[i - f.1]? = some x := by
  induction fs with
  | nil => exact iff_of_false nofun (by rintro ⟨f, mem, -⟩; cases mem)
  | cons g rest ih =>
    obtain ⟨behind, apart⟩ := List.pairwise_cons.1 apart
    unfold Fields.byteAt
    by_cases inside : g.1 ≤ i ∧ i < g.1 + g.2.length
    · rw [if_pos inside]
      refine ⟨fun at_ => ⟨g, List.mem_cons_self, inside.1, at_⟩, ?_⟩
      rintro ⟨f, mem, low, at_⟩
      rcases List.mem_cons.1 mem with rfl | mem
      · exact at_
      · exact absurd inside.2 (Nat.not_lt.2 (Nat.le_trans (behind f mem) low))
    · rw [if_neg inside, ih apart]
      constructor
      · rintro ⟨f, mem, h⟩
        exact ⟨f, List.mem_cons_of_mem g mem, h⟩
      · rintro ⟨f, mem, low, at_⟩
        rcases List.mem_cons.1 mem with rfl | mem
        · exact absurd ⟨low, inside_of_getElem? low at_⟩ inside
        · exact ⟨f, mem, low, at_⟩

/-! ## The span of a write -/

theorem foldl_min_le (fs : Fields) (a : Nat) : fs.foldl (fun a f => min a f.1) a ≤ a ∧
    ∀ f ∈ fs, fs.foldl (fun a f => min a f.1) a ≤ f.1 := by
  induction fs generalizing a with
  | nil => exact ⟨Nat.le_refl a, fun f mem => by cases mem⟩
  | cons g rest ih =>
    obtain ⟨start, others⟩ := ih (min a g.1)
    refine ⟨Nat.le_trans start (Nat.min_le_left a g.1), fun f mem => ?_⟩
    rcases List.mem_cons.1 mem with rfl | mem
    · exact Nat.le_trans start (Nat.min_le_right a _)
    · exact others f mem

theorem le_foldl_min (start : k ≤ a) (all : ∀ f ∈ fs, k ≤ f.1) : k ≤ fs.foldl (fun a f => min a f.1) a := by
  induction fs generalizing a with
  | nil => exact start
  | cons g rest ih =>
    exact ih (Nat.le_min.2 ⟨start, all g List.mem_cons_self⟩) fun f mem => all f (List.mem_cons_of_mem g mem)

theorem le_foldl_max (fs : Fields) (a : Nat) : a ≤ fs.foldl (fun a f => max a (f.1 + f.2.length)) a ∧
    ∀ f ∈ fs, f.1 + f.2.length ≤ fs.foldl (fun a f => max a (f.1 + f.2.length)) a := by
  induction fs generalizing a with
  | nil => exact ⟨Nat.le_refl a, fun f mem => by cases mem⟩
  | cons g rest ih =>
    obtain ⟨start, others⟩ := ih (max a (g.1 + g.2.length))
    refine ⟨Nat.le_trans (Nat.le_max_left a _) start, fun f mem => ?_⟩
    rcases List.mem_cons.1 mem with rfl | mem
    · exact Nat.le_trans (Nat.le_max_right a _) start
    · exact others f mem

theorem foldl_max_le (start : a ≤ k) (all : ∀ f ∈ fs, f.1 + f.2.length ≤ k) :
    fs.foldl (fun a f => max a (f.1 + f.2.length)) a ≤ k := by
  induction fs generalizing a with
  | nil => exact start
  | cons g rest ih =>
    exact ih (Nat.max_le.2 ⟨start, all g List.mem_cons_self⟩) fun f mem => all f (List.mem_cons_of_mem g mem)

theorem low_le (mem : f ∈ fs) : fs.low ≤ f.1 := by
  have := (foldl_min_le fs 512).2 f mem
  unfold Fields.low
  omega

theorem le_high (mem : f ∈ fs) : f.1 + f.2.length ≤ fs.high :=
  Nat.le_trans ((le_foldl_max fs 0).2 f mem) (ceilDiv_bounds _ (by decide)).1

/-! ## One write -/

/-- A write puts the bytes of its fields, and none beside them. -/
theorem puts_iff (apart : fs.apart) : fs.toWrite.puts i = some x ↔ ∃ f ∈ fs, f.1 ≤ i ∧ f.2[i - f.1]? = some x := by
  rw [← byteAt_iff apart]
  have within : fs.byteAt i = some x → fs.low ≤ i ∧ i < fs.high := by
    rw [byteAt_iff apart]
    rintro ⟨f, mem, low, at_⟩
    exact ⟨Nat.le_trans (low_le mem) low, Nat.lt_of_lt_of_le (inside_of_getElem? low at_) (le_high mem)⟩
  by_cases span : fs.low ≤ i ∧ i < fs.high
  · have place : (List.range (fs.high - fs.low))[i - fs.low]? = some (i - fs.low) := List.getElem?_range (by omega)
    have shift : fs.low + (i - fs.low) = i := Nat.add_sub_cancel' span.1
    have mask : fs.mask[i - fs.low]? = some (fs.byteAt i).isSome := by
      unfold Fields.mask
      rw [List.getElem?_map, place, Option.map_some, shift]
    have data : fs.data[i - fs.low]? = some ((fs.byteAt i).getD 0) := by
      unfold Fields.data
      rw [List.getElem?_map, place, Option.map_some, shift]
    unfold BlockWrite.puts Fields.toWrite
    dsimp only
    rw [mask, data]
    cases fs.byteAt i with
    | none => exact iff_of_false (by simp) nofun
    | some y => rw [if_pos ⟨span.1, rfl⟩]; rfl
  · refine iff_of_false (fun puts => ?_) fun at_ => span (within at_)
    unfold BlockWrite.puts Fields.toWrite at puts
    split at puts
    next on =>
      obtain ⟨low, on⟩ := on
      refine span ⟨low, ?_⟩
      have := (List.getElem?_eq_some_iff.1 on).1
      have length : fs.mask.length = fs.high - fs.low := by
        unfold Fields.mask
        rw [List.length_map, List.length_range]
      dsimp only at this low
      omega
    next => cases puts

theorem toWrite_units (above : ∀ f ∈ fs, 256 * h ≤ f.1) (below : ∀ f ∈ fs, f.1 + f.2.length ≤ 256 * (h + 1))
    (half : h < 2) : fs.toWrite.mask.length = fs.toWrite.data.length ∧ fs.toWrite.offset % 8 = 0 ∧
    fs.toWrite.data.length % 8 = 0 ∧ fs.toWrite.data.length ≤ 256 := by
  have low := le_foldl_min (a := 512) (show 256 * h ≤ 512 by omega) above
  have high := foldl_max_le (a := 0) (Nat.zero_le _) below
  obtain ⟨-, top⟩ := ceilDiv_bounds (fs.foldl (fun a f => max a (f.1 + f.2.length)) 0) (b := 8) (by decide)
  have mask : fs.toWrite.mask.length = fs.high - fs.low := by
    show (List.map _ _).length = _
    rw [List.length_map, List.length_range]
  have data : fs.toWrite.data.length = fs.high - fs.low := by
    show (List.map _ _).length = _
    rw [List.length_map, List.length_range]
  have lowEq : fs.low = fs.foldl (fun a f => min a f.1) 512 / 8 * 8 := rfl
  have highEq : fs.high = ceilDiv (fs.foldl (fun a f => max a (f.1 + f.2.length)) 0) 8 * 8 := rfl
  refine ⟨mask.trans data.symm, ?_, ?_, ?_⟩
  · show fs.low % 8 = 0
    omega
  · rw [data]
    omega
  · rw [data]
    omega

/-! ## The writes of both halves -/

theorem mem_half : f ∈ fs.half h ↔ f ∈ fs ∧ f.1 / 256 = h := by
  unfold Fields.half
  rw [List.mem_filter, beq_iff_eq]

theorem mem_toWrites : w ∈ fs.toWrites ↔ ∃ h < 2, fs.half h ≠ [] ∧ w = Fields.toWrite (fs.half h) := by
  have part (h : Nat) : w ∈ (if fs.half h = [] then [] else [Fields.toWrite (fs.half h)]) ↔
      fs.half h ≠ [] ∧ w = Fields.toWrite (fs.half h) := by
    split
    next empty => exact iff_of_false (by simp) fun both => both.1 empty
    next some_ => rw [List.mem_singleton]; exact ⟨fun same => ⟨some_, same⟩, And.right⟩
  unfold Fields.toWrites
  rw [List.mem_append, part, part]
  constructor
  · rintro (first | second)
    · exact ⟨0, by decide, first⟩
    · exact ⟨1, by decide, second⟩
  · rintro ⟨h, two, here⟩
    obtain rfl | rfl : h = 0 ∨ h = 1 := by omega
    · exact .inl here
    · exact .inr here

/-- Fields that lie each in one half of a block are carried by one write for each half. -/
theorem toWrites_carries (each : ∀ f ∈ fs, f.2 ≠ [] ∧ f.1 / 256 = (f.1 + f.2.length - 1) / 256 ∧ f.1 + f.2.length ≤ 512)
    (apart : fs.apart) : Carries fs fs.toWrites := by
  have apart' (h : Nat) : (fs.half h).apart := apart.filter _
  constructor
  · intro i x
    constructor
    · rintro ⟨w, mem, puts⟩
      obtain ⟨h, -, -, rfl⟩ := mem_toWrites.1 mem
      obtain ⟨f, mem, there⟩ := (puts_iff (apart' h)).1 puts
      exact ⟨f, (mem_half.1 mem).1, there⟩
    · rintro ⟨f, mem, there⟩
      obtain ⟨some_, -, within⟩ := each f mem
      have long := List.length_pos_iff.2 some_
      have here : f ∈ fs.half (f.1 / 256) := mem_half.2 ⟨mem, rfl⟩
      exact ⟨_, mem_toWrites.2 ⟨f.1 / 256, by omega, List.ne_nil_of_mem here, rfl⟩, (puts_iff (apart' _)).2 ⟨f, here, there⟩⟩
  · intro w mem
    obtain ⟨h, two, -, rfl⟩ := mem_toWrites.1 mem
    refine toWrite_units (h := h) (fun f mem => ?_) (fun f mem => ?_) two
    all_goals
      obtain ⟨mem, half⟩ := mem_half.1 mem
      obtain ⟨some_, one, within⟩ := each f mem
      have long := List.length_pos_iff.2 some_
      omega

end Sys2Proof.Machine


/-! PROOFS. Results are written back (R127, R143, R174, R175, R193, R195). -/

namespace Sys2Proof.Machine

variable {s r u : State} {m : Moment} {x : Transfer} {rest : List Outstanding} {c : Nat} {res : JobResult}

/-! ## What is written -/

theorem statusFields_eq (i : Nat) (l : List StationSlot) :
    statusFields i l = l.mapIdx fun k x => (0x80 + 24 * (i + k) + 0x15, leBytes 1 x.status.code) := by
  induction l generalizing i with
  | nil => rfl
  | cons y rest ih =>
    rw [List.mapIdx_cons, statusFields, ih]
    simp only [Nat.add_zero, Nat.add_assoc, Nat.add_comm 1]

theorem statusFields_zero (l : List StationSlot) :
    statusFields 0 l = l.mapIdx fun k x => (0x80 + 24 * k + 0x15, leBytes 1 x.status.code) := by
  simp only [statusFields_eq, Nat.zero_add]

theorem scanResult_eq (j : ScanJob) (azimuth : Angle) (stations : List StationSlot) :
    scanResult j azimuth stations = ⟨j.cause.getD .none, if j.cause = none then 0 else j.linesCompleted,
      scanEndFields j azimuth stations⟩ := by
  unfold scanResult
  cases j.cause <;> rfl

theorem photoResult_eq (a : PhotoJob) (detail : Nat) (stations : List StationSlot) :
    photoResult a detail stations = ⟨a.cause.getD .none, if a.cause = none then 0 else detail,
      (0x28, leBytes 4 a.done) :: statusFields 0 stations⟩ := by
  unfold photoResult
  cases a.cause <;> rfl

/-! ## The writes of a block (R174, R175) -/

theorem nextBlockWrite_list {w : BlockWrite} {ws : List BlockWrite} (idle : s.reader.writeBusy = false)
    (list : s.reader.writeList = w :: ws) (cursor : s.reader.cursor = some c) : nextBlockWrite s = { s with
      reader := { s.reader with writeList := ws, writeBusy := true },
      port := s.port.request (maskedTransfer .chain .blockWrite (c + w.offset) w.data w.mask) } := by
  unfold nextBlockWrite
  rw [if_neg (by rw [idle]; decide), list]
  unfold blockTransfer State.blockAddr
  rw [cursor]
  rfl

theorem nextBlockWrite_none (list : s.reader.writeList = []) (result : s.reader.result = none) : nextBlockWrite s = s := by
  unfold nextBlockWrite
  rw [list]
  dsimp only
  rw [result]
  exact ite_self s

theorem finalState_write (code : ResultCode) : Fields.toWrite [(0, leBytes 1 code.blockState)] =
    ⟨0, [if code = .none then 3 else 4, 0, 0, 0, 0, 0, 0, 0], [true, false, false, false, false, false, false, false]⟩ := by
  cases code <;> decide

theorem resultCodeWritten_asks (result : s.reader.result = some res) (cursor : s.reader.cursor = some c) :
    resultCodeWritten s = { s with port := s.port.request ⟨.chain, .resultState, true, addrOf c, 8,
      [if res.code = .none then 3 else 4, 0, 0, 0, 0, 0, 0, 0],
      [true, false, false, false, false, false, false, false], true⟩ } := by
  unfold resultCodeWritten
  rw [result]
  dsimp only
  unfold stateTransfer blockTransfer State.blockAddr
  rw [finalState_write, cursor]
  rfl

/-! ## The block is finished (R175, R182) -/

/-- The block on which a result has been written is released and finished. -/
abbrev blockFinished (s : State) : State := s.setReader { s.reader with
  taken := none, lastFinished := s.reader.cursor, writeBusy := false, result := none, activity := .idle }

/-- JOB-END is raised for a FAILED result and with the notify flag. -/
def jobEndTold (res : JobResult) (s : State) : State :=
  if blockNotify s.reader.block || decide (res.code ≠ .none) then raise .jobEnd s else s

theorem jobEndTold_acts (s : State) (res : JobResult) : Acts (fields [.notices]) s (jobEndTold res s) := by
  unfold jobEndTold
  split <;> apply_rules [raise_acts, Acts.refl]

theorem jobEndTold_notices (res : JobResult) (s : State) :
    (blockNotify s.reader.block = true ∨ res.code ≠ .none →
      (jobEndTold res s).notices.pending = s.notices.pending ||| 1) ∧
    (blockNotify s.reader.block = false → res.code = .none → (jobEndTold res s).notices = s.notices) := by
  unfold jobEndTold
  by_cases told : (blockNotify s.reader.block || decide (res.code ≠ .none)) = true
  · rw [if_pos told]
    refine ⟨fun _ => raise_pending .jobEnd s, fun quiet done => ?_⟩
    rw [quiet, done] at told
    cases told
  · rw [if_neg told]
    refine ⟨fun notify => absurd ?_ told, fun _ _ => rfl⟩
    rw [Bool.or_eq_true, decide_eq_true_iff]
    exact notify

theorem resultStateWritten_eq (result : s.reader.result = some res) : resultStateWritten s =
    if s.reader.haltPending = true then haltOnPending (jobEndTold res (blockFinished s))
    else beginLinkRead (jobEndTold res (blockFinished s)) := by
  have kept : (jobEndTold res (blockFinished s)).reader = (blockFinished s).reader :=
    (jobEndTold_acts (blockFinished s) res).only .reader rfl
  unfold resultStateWritten
  rw [result]
  show (if (jobEndTold res (blockFinished s)).reader.haltPending = true then _ else _) = _
  rw [kept]
  rfl

/-! ## The events -/

theorem exec_blockWrite (awaits : OldestAwaits m.transfer s x rest) (who : x.requester = .chain)
    (after : r = reported m x rest s) (purpose : x.purpose = .blockWrite) :
    exec (.blockWriteComplete m) s = .next (advancePages (blockWritten r)) := by
  refine next_congr ((completeOldest_chain m.transfer m s x rest awaits who _ (by rw [purpose]; rfl) []).trans ?_)
  rw [purpose, after]
  rfl

theorem exec_resultCode (awaits : OldestAwaits m.transfer s x rest) (who : x.requester = .chain)
    (after : r = reported m x rest s) (purpose : x.purpose = .resultCode) :
    exec (.resultCodeWriteComplete m) s = .next (advancePages (resultCodeWritten r)) := by
  refine next_congr ((completeOldest_chain m.transfer m s x rest awaits who _ (by rw [purpose]; rfl) []).trans ?_)
  rw [purpose, after]
  rfl

theorem exec_resultState (awaits : OldestAwaits m.transfer s x rest) (who : x.requester = .chain)
    (after : r = reported m x rest s) (purpose : x.purpose = .resultState) :
    exec (.resultStateWriteComplete m) s = .next (advancePages (resultStateWritten r)) := by
  refine next_congr ((completeOldest_chain m.transfer m s x rest awaits who _ (by rw [purpose]; rfl) []).trans ?_)
  rw [purpose, after]
  rfl

/-- Settles O54: fields, result and state are written back one write after another. -/
theorem resultIsWrittenBack : Obligations.ResultIsWrittenBack := by
  unfold Obligations.ResultIsWrittenBack
  refine ⟨fun fs some_ each apart => toWrites_carries each apart, fun j azimuth stations => ?_, fun a detail stations => ?_,
    rfl, rfl, ?_, ?_⟩
  · rw [scanResult_eq, scanEndFields, statusFields_zero]
  · rw [photoResult_eq, statusFields_zero]
  · rintro ⟨a, b, c, d, e, f, g⟩
    rfl
  rintro m s r x rest c awaits who after cursor
  have reader : r.reader = s.reader := by rw [after, reported_reader]
  have notices : r.notices = s.notices := by rw [after, reported_notices]
  rw [← reader] at cursor ⊢
  rw [← notices]
  refine ⟨fun purpose => ?_, fun res purpose result => ?_, fun res purpose result => ?_⟩
  · rw [exec_blockWrite awaits who after purpose]
    unfold blockWritten
    refine ⟨fun w ws list => ?_, fun res list result => ?_, fun list result => ?_⟩
    · rw [nextBlockWrite_list (s := r.setReader { r.reader with writeBusy := false }) rfl list cursor]
      rfl
    · rw [nextBlockWrite_result (s := r.setReader { r.reader with writeBusy := false }) rfl list result]
      obtain ⟨purpose, write, addr, told⟩ :=
        resultCode_fields (s := r.setReader { r.reader with writeBusy := false }) res _ rfl
      refine ⟨_, rfl, purpose, write, addr.trans ?_, told⟩
      exact congrArg (fun x : Option Nat => addrOf (x.getD 0 + 0x18)) cursor
    · rw [nextBlockWrite_none (s := r.setReader { r.reader with writeBusy := false }) list result]
      rfl
  · rw [exec_resultCode awaits who after purpose, resultCodeWritten_asks result cursor]
  · have event := exec_resultState awaits who after purpose
    obtain ⟨raised, quiet⟩ := jobEndTold_notices res (blockFinished r)
    have acts := jobEndTold_acts (blockFinished r) res
    rw [resultStateWritten_eq result] at event
    generalize jobEndTold res (blockFinished r) = t at event raised quiet acts
    have readerT : t.reader = (blockFinished r).reader := acts.only .reader rfl
    have portT : t.port = r.port := acts.only .port rfl
    have only : OnlyIn (fields [.reader, .port, .notices]) r t := setReader_then rfl (acts.only.within (by decide))
    by_cases halt : r.reader.haltPending = true
    · rw [if_pos halt] at event
      obtain ⟨halted, port, -, kept⟩ := haltOnPending_halts t
      rw [portT] at port
      refine ⟨_, event, ?_, ?_, ?_, fun no => ?_, fun _ => ⟨?_, ?_, ?_, ?_⟩, only.trans kept⟩
      · rw [halted, readerT]; rfl
      · rw [halted, readerT]; exact cursor
      · rw [halted, readerT]; rfl
      · rw [no] at halt; cases halt
      · rw [halted]
      · rw [halted]
      · rw [halted]
      · rw [port]; rfl
    · rw [if_neg halt] at event
      have begun : beginLinkRead t = { t with
          reader := { t.reader with activity := .link },
          port := t.port.request (readTransfer .chain .link (c + 8) 8) } := by
        unfold beginLinkRead
        rw [readerT, show (blockFinished r).reader.lastFinished = some c from cursor]
        rfl
      have kept : OnlyIn (fields [.reader, .port, .notices]) t (beginLinkRead t) :=
        Acts.only (by apply_rules [beginLinkRead_acts, Acts.refl])
      refine ⟨_, event, ?_, ?_, ?_, fun no => ⟨?_, ?_, ?_, ?_, ?_⟩, fun yes => absurd yes halt, only.trans kept⟩
      all_goals rw [begun]
      · show t.reader.taken = none
        rw [readerT]
        rfl
      · show t.reader.lastFinished = some c
        rw [readerT]
        exact cursor
      · show t.reader.result = none
        rw [readerT]
        rfl
      · show t.reader.state = r.reader.state
        rw [readerT]
        rfl
      · exact congrArg (fun p : Port => p.request (readTransfer .chain .link (c + 8) 8)) portT
      · exact raised
      · exact quiet

end Sys2Proof.Machine


/-! PROOFS. A photograph's timers and rows (R130, R133 to R138, R198). -/

namespace Sys2Proof.Machine

variable {s v : State} {p q : Photograph} {m : Moment} {e : Nat} {data : List Byte}

/-! ## The header write (R138, R198) -/

theorem photoHeaderBytes_fields {y : List Byte} {status : StationStatus} {azimuth : Nat}
    (same : y = photoHeaderBytes q status azimuth) :
    y.length = 64 ∧ field y 0x00 1 = status.code ∧ field y 0x01 1 = (match q.mode with | .full => 0 | .binned => 1) ∧
    field y 0x02 1 = q.station % 2 ^ 8 ∧ field y 0x03 1 = 0 ∧ field y 0x04 4 = q.tag % 2 ^ 32 ∧
    field y 0x08 4 = q.exposure % 2 ^ 32 ∧ field y 0x0C 4 = (match q.mode with | .full => 9216 | .binned => 4608) ∧
    field y 0x10 4 = (match q.mode with | .full => 2048 | .binned => 1024) ∧
    field y 0x14 4 = q.rowsStored % 2 ^ 32 ∧ field y 0x18 8 = q.trigger / 64000 % 2 ^ 64 ∧
    field y 0x20 8 = (match q.midShot with | none => 18446744073709551615 | some n => n % 2 ^ 64) ∧
    field y 0x28 4 = azimuth % 2 ^ 32 ∧
    field y 0x2C 4 = (match q.line with | none => 4294967295 | some n => n % 2 ^ 32) ∧
    y.drop 0x30 = List.replicate 16 0 := by
  rw [same]
  refine ⟨by simp [photoHeaderBytes, leBytes_length, zeros_length], ?_, ?_, ?_, ?_, ?_, ?_, ?_, ?_, ?_, ?_, ?_, ?_, ?_, ?_⟩
  all_goals
    unfold photoHeaderBytes
    simp only [List.append_assoc, field_le_past, field_zeros_past, field_option_past, field_le_here, field_zeros_here,
      field_option_here, drop_le_past, drop_zeros_past, drop_option_past, List.drop_zero, Nat.reduceMul,
      Nat.reduceLeDiff, Nat.reduceSub, Nat.le_refl, Nat.sub_self]
  · cases status <;> rfl
  · cases q.mode <;> rfl
  · cases q.mode <;> rfl
  · cases q.mode <;> rfl
  · rfl
  · cases q.midShot <;> rfl
  · cases q.line <;> rfl
  · rfl

/-- The header write of a photograph as it is asked for. -/
abbrev headerWrite (q : Photograph) (v : State) : Transfer :=
  writeTransfer .photo .photoHeader q.buffer (photoHeaderBytes q (endStatus q.endCause) (midAzimuthOf q v))

theorem headerWrite_parts (q : Photograph) (v : State) : (headerWrite q v).requester = .photo ∧
    (headerWrite q v).purpose = .photoHeader ∧ (headerWrite q v).write = true ∧
    (headerWrite q v).addr = addrOf q.buffer ∧ (headerWrite q v).len = 64 ∧
    (headerWrite q v).mask = List.replicate 64 true ∧
    (headerWrite q v).data = photoHeaderBytes q (endStatus q.endCause) (midAzimuthOf q v) := by
  unfold headerWrite
  have length := (photoHeaderBytes_fields (q := q) (status := endStatus q.endCause) (azimuth := midAzimuthOf q v) rfl).1
  generalize photoHeaderBytes q (endStatus q.endCause) (midAzimuthOf q v) = y at length
  exact ⟨rfl, rfl, rfl, rfl, length, congrArg (List.replicate · true) length, rfl⟩

/-- The end of a photograph is reached: its header write is asked for. -/
theorem photoProgress_ends (current : v.photo.current = some q) (rows : v.photo.rows = []) (closed : q.accepting = false)
    (over_ : q.exposureEnd = none) (first : q.headerIssued = false) (sound : q.endCause ≠ some .memory) :
    photoProgress v = { v with
      photo := { v.photo with state := .readout, current := some { q with headerIssued := true } },
      port := v.port.request (headerWrite q v), freeCount := v.freeCount + 1 } := by
  unfold photoProgress
  rw [current]
  exact if_pos ⟨closed, rows, over_, first, sound⟩

theorem photoProgress_rows (rows : v.photo.rows ≠ []) : photoProgress v = v := by
  unfold photoProgress
  split
  · exact if_neg fun h => rows h.2.1
  · rfl

/-! ## The timers (R134) -/

theorem midExposureOver_due (current : s.photo.current = some p) (timer : p.midEnd = some e) (due : e ≤ s.now) :
    midExposureOver s = midExposure p s := by
  unfold midExposureOver
  rw [current]
  dsimp only
  rw [timer, if_pos (ended_of_le due)]

theorem midExposureOver_waits (current : s.photo.current = some p)
    (waits : p.midEnd = none ∨ ∃ e, p.midEnd = some e ∧ s.now < e) : midExposureOver s = s := by
  unfold midExposureOver
  rw [current]
  dsimp only
  rw [not_ended waits]
  rfl

theorem exposureTimeOver_due (current : s.photo.current = some p) (exposes : s.photo.state = .exposing)
    (timer : p.exposureEnd = some e) (due : e ≤ s.now) : exposureTimeOver s = exposureOver p s := by
  unfold exposureTimeOver
  rw [current]
  dsimp only
  rw [timer, if_pos ⟨exposes, ended_of_le due⟩]

theorem exposureTimeOver_waits (current : s.photo.current = some p)
    (waits : s.photo.state ≠ .exposing ∨ p.exposureEnd = none ∨ ∃ e, p.exposureEnd = some e ∧ s.now < e) :
    exposureTimeOver s = s := by
  unfold exposureTimeOver
  rw [current]
  refine if_neg ?_
  rintro ⟨exposes, over_⟩
  rcases waits with other | waits
  · exact other exposes
  · rw [not_ended waits] at over_
    cases over_

/-- A photograph whose exposure has ended with no row to be taken. -/
abbrev Photograph.unread (p : Photograph) : Photograph := { p with
  exposureEnd := none, endCause := (match p.endCause with | none => some .shortBuffer | some k => some k) }

theorem unread_sound (sound : p.endCause ≠ some .memory) : p.unread.endCause ≠ some .memory := by
  unfold Photograph.unread
  cases h : p.endCause with
  | none => exact nofun
  | some cause => exact fun same => sound (h.trans same)

/-- Such a photograph in READOUT, with the camera told to stop. -/
abbrev stoppedUnread (p : Photograph) (s : State) : State :=
  emit .cameraStop (putPhotograph p.unread (s.setPhoto { s.photo with state := .readout }))

theorem exposureOver_unread (none_left : p.rowsFit = 0 ∨ p.endCause ≠ none) :
    exposureOver p s = photoProgress (stoppedUnread p s) := by
  unfold exposureOver
  refine if_neg ?_
  rintro ⟨fits, fine⟩
  exact none_left.elim (fun zero => by omega) fun ended => ended fine

theorem unread_status (sound : p.endCause ≠ some .memory) :
    (endStatus p.unread.endCause).code = if p.endCause = some .camera then 4 else 2 := by
  unfold Photograph.unread
  rcases h : p.endCause with _ | cause
  · rfl
  · cases cause
    case memory => exact absurd h sound
    all_goals rfl

/-- Settles O57, timer by timer. -/
theorem exposureTimers : Obligations.ExposureTimers := by
  unfold Obligations.ExposureTimers
  rintro m s b p rfl current
  have here : (observe m s).photo.current = some p := current
  refine ⟨fun e timer due => ?_, fun waits => ?_, fun e exposes timer due => ⟨fun fits fine => ?_, ?_⟩, fun waits => ?_⟩
  · exact next_congr ((midExposureOver_due here timer due).trans rfl)
  · exact next_congr (midExposureOver_waits here waits)
  · refine next_congr ((exposureTimeOver_due here exposes timer due).trans ?_)
    unfold exposureOver
    rw [if_pos ⟨fits, fine⟩]
    rfl
  · intro none_left closed first rows sound
    have event : exec (.exposureTimerExpiry m) s = .next (exposureTimeOver (observe m s)) := rfl
    have acts : OnlyIn (fields [.photo, .port, .out, .freeCount]) (observe m s) (exposureTimeOver (observe m s)) :=
      Acts.only (by apply_rules [exposureTimeOver_acts, Acts.refl])
    have told := (exposureTimeOver_due here exposes timer due).trans (exposureOver_unread none_left)
    rw [photoProgress_ends (v := stoppedUnread p (observe m s)) (q := p.unread) rfl rows closed rfl first
      (unread_sound sound)] at told
    obtain ⟨requester, purpose, write, addr, len, -, data⟩ := headerWrite_parts p.unread (stoppedUnread p (observe m s))
    obtain ⟨-, status, -⟩ := photoHeaderBytes_fields data
    generalize headerWrite p.unread (stoppedUnread p (observe m s)) = w at told requester purpose write addr len status
    refine ⟨_, w, event, ?_, ?_, ?_, requester, purpose, write, addr, len, status.trans (unread_status sound), acts⟩
    all_goals
      rw [told]
      rfl
  · exact next_congr (exposureTimeOver_waits here waits)

end Sys2Proof.Machine


/-! PROOFS. Rows are taken and stored (R130, R133, R135, R136). -/

namespace Sys2Proof.Machine

variable {s v : State} {p q : Photograph} {m : Moment} {e n i addr : Nat} {data : List Byte} {ws : List Transfer}
  {w : Transfer}

/-! ## The writes of a row (R135) -/

theorem rowWrites_length (addr : Nat) (data : List Byte) (n : Nat) : (rowWrites addr data n).length = n := by
  induction n generalizing addr data with
  | zero => rfl
  | succ n ih => exact congrArg (· + 1) (ih _ _)

/-- The `i`-th write of a row carries the `i`-th 256 bytes of it; the last one says so. -/
theorem rowWrites_at (h : (rowWrites addr data n)[i]? = some w) :
    w = writeTransfer .photo (.row (decide (i + 1 = n))) (addr + 256 * i) ((data.drop (256 * i)).take 256) := by
  induction n generalizing addr data i with
  | zero => cases h
  | succ n ih =>
    cases i with
    | zero =>
      cases h
      rw [show decide (0 + 1 = n + 1) = decide (n = 0) from decide_eq_decide.2 (by omega)]
      rfl
    | succ i =>
      have there := ih (i := i) h
      have further : 256 + 256 * i = 256 * (i + 1) := by omega
      rw [there, List.drop_drop, show rowChunk = 256 from rfl, further, Nat.add_assoc, further,
        show decide (i + 1 = n) = decide (i + 1 + 1 = n + 1) from decide_eq_decide.2 (by omega)]

theorem rowWrites_photo (h : w ∈ rowWrites addr data n) : w.requester = .photo := by
  obtain ⟨i, at_⟩ := List.mem_iff_getElem?.1 h
  rw [rowWrites_at at_]
  rfl

theorem requestAll_photo (photo : ∀ w ∈ ws, w.requester = .photo) (s : State) :
    requestAll ws s = s.setPort { s.port with photoWait := s.port.photoWait ++ ws } := by
  induction ws generalizing s with
  | nil =>
    rw [List.append_nil]
    rfl
  | cons w ws ih =>
    have asked : s.port.request w = { s.port with photoWait := s.port.photoWait ++ [w] } := by
      unfold Port.request
      rw [photo w List.mem_cons_self]
    show requestAll ws (s.setPort (s.port.request w)) = _
    rw [ih fun x mem => photo x (List.mem_cons_of_mem w mem), asked]
    show s.setPort { s.port with photoWait := (s.port.photoWait ++ [w]) ++ ws } = _
    rw [List.append_assoc]
    rfl

/-! ## A row is accepted (R135) -/

/-- The writes by which the next row of a photograph is stored. -/
def nextRowWrites (p : Photograph) (data : List Byte) : List Transfer :=
  rowWrites (p.buffer + 64 + p.rowsTaken * p.mode.rowSize) data (p.mode.rowSize / 256)

theorem nextRowWrites_at (size : data.length = p.mode.rowSize) (at_ : (nextRowWrites p data)[i]? = some w) :
    w.requester = .photo ∧ w.write = true ∧ w.len = 256 ∧
    w.addr = addrOf (p.buffer + 64 + p.rowsTaken * p.mode.rowSize + 256 * i) ∧
    w.data = (data.drop (256 * i)).take 256 ∧ w.purpose = .row (decide (i + 1 = p.mode.rowSize / 256)) := by
  have inside : i < p.mode.rowSize / 256 := by
    have := (List.getElem?_eq_some_iff.1 at_).1
    unfold nextRowWrites at this
    rwa [rowWrites_length] at this
  rw [rowWrites_at at_]
  refine ⟨rfl, rfl, ?_, rfl, rfl, rfl⟩
  show ((data.drop (256 * i)).take 256).length = 256
  rw [List.length_take, List.length_drop, size]
  omega

/-- The photo machine and the store port once a row has come in and its writes are asked for. -/
abbrev rowIn (p : Photograph) (data : List Byte) (s : State) : State := { s with
  photo := { s.photo with rows := s.photo.rows ++ [⟨p.rowsTaken, data⟩] },
  port := { s.port with photoWait := s.port.photoWait ++ nextRowWrites p data } }

theorem acceptRow_eq (p : Photograph) (data : List Byte) (s : State) : acceptRow data p s =
    if p.rowsTaken + 1 = p.mode.rowsExpected then
      putPhotograph { p with rowsTaken := p.rowsTaken + 1, accepting := false, rowEnd := none } (rowIn p data s)
    else if p.rowsTaken + 1 = p.rowsFit then
      stopRows .shortBuffer { p with rowsTaken := p.rowsTaken + 1, rowEnd := some (s.now + rowTimeLimit) } (rowIn p data s)
    else putPhotograph { p with rowsTaken := p.rowsTaken + 1, rowEnd := some (s.now + rowTimeLimit) } (rowIn p data s) := by
  have asked : requestAll (nextRowWrites p data) (s.setPhoto { s.photo with rows := s.photo.rows ++ [⟨p.rowsTaken, data⟩] }) =
    rowIn p data s := requestAll_photo (fun w mem => rowWrites_photo mem) _
  rw [← asked]
  rfl

theorem rowTaken_accepts (current : s.photo.current = some p) (accepts : p.accepting = true)
    (size : data.length = p.mode.rowSize) : rowTaken data s = rowArrives data p s := by
  unfold rowTaken
  rw [current]
  exact if_pos ⟨accepts, size⟩

theorem rowTaken_discards (current : s.photo.current = some p) (closed : p.accepting = false) : rowTaken data s = s := by
  unfold rowTaken
  rw [current]
  exact if_neg fun h => by rw [closed] at h; cases h.1

/-! ## The row timeout (R136) -/

theorem rowTimeOver_due (current : s.photo.current = some p) (accepts : p.accepting = true) (timer : p.rowEnd = some e)
    (due : e ≤ s.now) : rowTimeOver s = cameraFault s := by
  unfold rowTimeOver
  rw [current]
  dsimp only
  rw [timer, if_pos ⟨accepts, ended_of_le due⟩]

theorem rowTimeOver_waits (current : s.photo.current = some p)
    (waits : p.accepting = false ∨ p.rowEnd = none ∨ ∃ e, p.rowEnd = some e ∧ s.now < e) : rowTimeOver s = s := by
  unfold rowTimeOver
  rw [current]
  refine if_neg ?_
  rintro ⟨accepts, over_⟩
  rcases waits with closed | waits
  · rw [closed] at accepts
    cases accepts
  · rw [not_ended waits] at over_
    cases over_

/-- A photograph as a camera fault leaves it while it can still fail (R136). -/
abbrev Photograph.faulted (p : Photograph) : Photograph := { p with
  endCause := (if p.endCause = some .memory then some .memory else some .camera), accepting := false,
  midEnd := none, exposureEnd := none, rowEnd := none }

theorem cameraFault_live (current : s.photo.current = some p) (live : s.photo.state = .exposing ∨ p.accepting = true) :
    cameraFault s = photoProgress (emit .cameraStop (putPhotograph p.faulted s)) := by
  unfold cameraFault
  rw [current]
  exact if_pos live

theorem midAzimuthOf_sampled {a : Angle} (sampled : q.midAzimuth = some a) : midAzimuthOf q v % 2 ^ 32 = a.toNat := by
  unfold midAzimuthOf
  rw [sampled]
  exact Nat.mod_eq_of_lt (Nat.lt_trans a.isLt (by decide))

/-- Settles O58: a row is accepted, is one too many, or is discarded; the last one stored brings the header write. -/
theorem rowsAreTaken : Obligations.RowsAreTaken := by
  unfold Obligations.RowsAreTaken
  rintro m s b p data rfl current
  have here : (observe m s).photo.current = some p := current
  refine ⟨fun accepts size room => ?_, fun accepts size full => ?_, fun closed => ⟨?_, ?_⟩,
    fun e accepts timer due => ?_, fun waits => ?_, fun v q _ rows => photoProgress_rows rows,
    fun v q current rows closed over_ first sound => ?_⟩
  · have event : exec (.row m data) s = .next (rowTaken data (observe m s)) := rfl
    have acts : OnlyIn (fields [.photo, .port, .out]) (observe m s) (rowTaken data (observe m s)) :=
      Acts.only (by apply_rules [rowTaken_acts, Acts.refl])
    have told : rowTaken data (observe m s) = acceptRow data p (observe m s) :=
      (rowTaken_accepts here accepts size).trans (if_pos room)
    rw [acceptRow_eq] at told
    refine ⟨_, nextRowWrites p data, event, ?_, ?_, rowWrites_length _ _ _, fun i w at_ => nextRowWrites_at size at_,
      fun last => ?_, fun more last => ?_, fun more room => ?_, acts⟩
    all_goals rw [told]
    · split
      · rfl
      · split <;> rfl
    · split
      · rfl
      · split <;> rfl
    · rw [if_pos last]
      exact ⟨rfl, rfl⟩
    · rw [if_neg more, if_pos last]
      exact ⟨rfl, rfl⟩
    · rw [if_neg more, if_neg room]
      exact ⟨rfl, rfl⟩
  · exact next_congr ((rowTaken_accepts here accepts size).trans (if_neg (Nat.not_lt.2 full)))
  · exact next_congr (rowTaken_discards here closed)
  · exact next_congr (rowTimeOver_waits here (.inl closed))
  · exact next_congr ((rowTimeOver_due here accepts timer due).trans (cameraFault_live here (.inr accepts)))
  · exact next_congr (rowTimeOver_waits here (.inr waits))
  · have ends := photoProgress_ends current rows closed over_ first sound
    obtain ⟨requester, purpose, write, addr, len, mask, data⟩ := headerWrite_parts q v
    obtain ⟨length, status, mode, station, pad, tag, exposure, size, expected, stored, time, shot, azimuth, line, rest⟩ :=
      photoHeaderBytes_fields data
    exact ⟨_, ends, requester, purpose, write, addr, len, mask, length, status, mode, station, pad,
      tag, exposure, size, expected, stored, time, shot, fun a sampled => azimuth.trans (midAzimuthOf_sampled sampled),
      line, rest⟩

end Sys2Proof.Machine


/-! PROOFS. The camera's presence, its faults, and the end of a PHOTO job (R131, R132, R136, R141, R143). -/

namespace Sys2Proof.Machine

variable {s b w v u : State} {p q : Photograph} {a : PhotoJob} {m : Moment} {e : Nat}

/-! ## The end of a PHOTO job (R143) -/

theorem endPhotoJob_seals (seals : s.seals = true) : endPhotoJob a s =
    placeMark (if a.cause = none then .jobEnd else .abort) (putPhoto { a with sealWait := true } s) := if_pos seals

theorem endPhotoJob_hands (plain : s.seals = false) : endPhotoJob a s = handPhoto a s :=
  if_neg (by rw [plain]; decide)

theorem handPhoto_handsBack (sound : s.reader.writeBackLost = false) (early : a.lateCause = false) :
    HandsBack (photoResult a a.index s.photo.stations) (handPhoto a s) := by
  unfold handPhoto
  rw [photoDetail_index early, early]
  exact handResult_handsBack sound

theorem handPhoto_notices (sound : s.reader.writeBackLost = false) : (handPhoto a s).notices = s.notices := by
  have same : ∀ v : State, v = (if a.lateCause then s.spendFree else s) → v.reader = s.reader ∧ v.notices = s.notices := by
    rintro v rfl
    split <;> exact ⟨rfl, rfl⟩
  obtain ⟨reader, notices⟩ := same _ rfl
  exact (handResult_onlyIn (s := releaseStations (if a.lateCause then s.spendFree else s))
    ((congrArg Reader.writeBackLost reader).trans sound) .notices rfl).trans notices

theorem endPhotoJob_notices (sound : s.reader.writeBackLost = false) : (endPhotoJob a s).notices = s.notices := by
  cases seals : s.seals with
  | true => rw [endPhotoJob_seals seals]; rfl
  | false => rw [endPhotoJob_hands seals]; exact handPhoto_notices sound

/-- A PHOTO job's end moves neither the turntable nor the photo machine, but that its stations are released. -/
theorem endPhotoJob_keeps (a : PhotoJob) (s : State) : (endPhotoJob a s).turntable = s.turntable ∧
    (endPhotoJob a s).photo.state = s.photo.state ∧ (endPhotoJob a s).photo.current = s.photo.current := by
  cases seals : s.seals with
  | true => rw [endPhotoJob_seals seals]; exact ⟨rfl, rfl, rfl⟩
  | false =>
    rw [endPhotoJob_hands seals]
    obtain ⟨-, turntable, photo, -⟩ := handPhoto_keeps a s
    rw [photo]
    exact ⟨turntable, rfl, rfl⟩

/-! ## The camera is lost in ARMED (R141) -/

/-- The state in which a PHOTO job whose camera is lost comes to its end. -/
abbrev cameraOff (s : State) : State := restPhoto (decelerate s)

theorem cameraOff_onlyIn (s : State) : OnlyIn (fields [.turntable, .photo]) s (cameraOff s) :=
  Acts.only (by apply_rules [restPhoto_acts, decelerate_acts, Acts.refl])

theorem cameraOff_photo (gone : s.camera.presence ≠ .present) :
    (cameraOff s).photo = { s.photo with state := .absent } := by
  have camera : (decelerate s).camera = s.camera := decelerate_onlyIn s .camera rfl
  have photo : (decelerate s).photo = s.photo := decelerate_onlyIn s .photo rfl
  show { (decelerate s).photo with state := restState (decelerate s).camera } = _
  rw [camera, photo, show restState s.camera = .absent from if_neg gone]

theorem cameraLost_eq (a : PhotoJob) (s : State) :
    cameraLost a s = endPhotoJob { a with cause := firstCause a.cause .cameraFault } (cameraOff s) := by
  unfold cameraLost firstCause
  cases a.cause <;> rfl

theorem seals_of_reader (same : s.reader = w.reader) : s.seals = w.seals := by
  unfold State.seals
  rw [same]

/-- The camera is lost to the station in ARMED, whatever moved its presence machine and the notices before. -/
theorem cameraLost_lost (before : OnlyIn (fields [.camera, .notices]) b w) (gone : w.camera.presence ≠ .present) :
    StationLost a b (cameraLost a w) := by
  have off := cameraOff_onlyIn w
  have photo := cameraOff_photo gone
  have reader : (cameraOff w).reader = b.reader := (off .reader rfl).trans (before .reader rfl)
  have seals : (cameraOff w).seals = b.seals := seals_of_reader reader
  have staging : (cameraOff w).staging = b.staging := (off .staging rfl).trans (before .staging rfl)
  have photoB : w.photo = b.photo := before .photo rfl
  obtain ⟨turntable, state, current⟩ := endPhotoJob_keeps { a with cause := firstCause a.cause .cameraFault } (cameraOff w)
  rw [photo, photoB] at state current
  rw [cameraLost_eq]
  refine ⟨turntable.trans (decelerate_turntable (before .turntable rfl)), ⟨state, current⟩, fun yes => ?_,
    fun no sound early => ?_⟩
  · rw [endPhotoJob_seals (seals.trans yes), if_neg (firstCause_some _ _)]
    refine ⟨rfl, ?_, ?_⟩
    · show (cameraOff w).photo.stations = _
      rw [photo, photoB]
    · exact congrArg (fun x : Staging => some (⟨x.nextSeq, .abort, false⟩ : EndMark)) staging
  · rw [endPhotoJob_hands (seals.trans no)]
    have hands := handPhoto_handsBack (a := { a with cause := firstCause a.cause .cameraFault }) (s := cameraOff w)
      ((congrArg Reader.writeBackLost reader).trans sound) early
    rw [photo, photoB] at hands
    exact hands

theorem cameraLost_notices (sound : s.reader.writeBackLost = false) : (cameraLost a s).notices = s.notices :=
  (endPhotoJob_notices (s := cameraOff s)
    ((congrArg Reader.writeBackLost (cameraOff_onlyIn s .reader rfl)).trans sound)).trans (cameraOff_onlyIn s .notices rfl)

/-! ## A camera fault at a photograph in hand (R136) -/

theorem photoProgress_current (current : v.photo.current = some q) :
    ∃ issued, (photoProgress v).photo.current = some { q with headerIssued := issued } := by
  unfold photoProgress
  rw [current]
  dsimp only
  split
  · exact ⟨true, rfl⟩
  · exact ⟨q.headerIssued, current⟩

theorem photoProgress_out (v : State) : (photoProgress v).out = v.out :=
  (photoProgress_acts (.refl (fields [.photo, .port, .freeCount]) v) rfl rfl rfl).only .out rfl

theorem cameraFault_out (current : s.photo.current = some p) : (cameraFault s).out = s.out ++ [.cameraStop] := by
  by_cases live : s.photo.state = .exposing ∨ p.accepting = true
  · rw [cameraFault_live current live, photoProgress_out]
    rfl
  · unfold cameraFault
    rw [current]
    dsimp only
    rw [if_neg live]
    rfl

theorem cameraFault_taken (current : s.photo.current = some p) (live : s.photo.state = .exposing ∨ p.accepting = true) :
    ∃ issued, (cameraFault s).photo.current = some { p.faulted with headerIssued := issued } := by
  rw [cameraFault_live current live]
  exact photoProgress_current rfl

theorem cameraFault_faulted (before : OnlyIn (fields [.camera, .notices]) b w) (current : b.photo.current = some p) :
    CameraFaulted p b (cameraFault w) := by
  have photo : w.photo = b.photo := before .photo rfl
  rw [← photo] at current
  refine ⟨?_, fun live => ?_, fun still closed => ?_⟩
  · rw [cameraFault_out current]
    exact List.mem_append_right _ (List.mem_singleton_self _)
  · rw [← photo] at live
    obtain ⟨issued, taken⟩ := cameraFault_taken current live
    exact ⟨_, taken, rfl, rfl, rfl, rfl, rfl, rfl, rfl⟩
  · rw [← photo] at still ⊢
    unfold cameraFault
    rw [current]
    dsimp only
    rw [if_neg (by rw [closed]; exact fun h => h.elim still (fun no => by cases no))]
    rfl

theorem cameraFault_onlyIn (s : State) : OnlyIn (fields [.photo, .port, .out, .freeCount]) s (cameraFault s) :=
  Acts.only (by apply_rules [cameraFault_acts, Acts.refl])

theorem faultIfBusy_busy (busy : s.photo.state.busy = true) : faultIfBusy s = advancePages (cameraFault s) := if_pos busy

theorem faultIfBusy_idle (idle : s.photo.state.busy = false) : faultIfBusy s = s := if_neg (by rw [idle]; decide)

/-! ## The presence machine (R131, R132) -/

theorem presenceLevel_camera (level : Bool) (s : State) :
    (presenceLevel level s).camera = { s.camera with presentIn := level } ∧
    (s.camera.presence = .wait → (presenceLevel level s).notices = s.notices) ∧
    (s.camera.presence ≠ .wait → (presenceLevel level s).notices.pending = s.notices.pending ||| 128) ∧
    OnlyIn (fields [.camera, .notices]) s (presenceLevel level s) := by
  have only : OnlyIn (fields [.camera, .notices]) s (presenceLevel level s) :=
    Acts.only (by apply_rules [presenceLevel_acts, Acts.refl])
  unfold presenceLevel at only ⊢
  by_cases waits : s.camera.presence = .wait
  · rw [if_pos waits] at only ⊢
    exact ⟨rfl, fun _ => rfl, fun no => absurd waits no, only⟩
  · rw [if_neg waits] at only ⊢
    exact ⟨rfl, fun yes => absurd yes waits, fun _ => raise_pending .camera _, only⟩

/-- The camera's level has dropped, and its presence machine is ABSENT. -/
abbrev cameraAbsent (s : State) : State := enterAbsent (presenceLevel false s)

theorem cameraAbsent_camera (s : State) :
    (cameraAbsent s).camera = { s.camera with
      presence := .absent, presentIn := false, presenceEnd := none, checkEnd := none, checkDue := false } ∧
    (s.camera.presence ≠ .wait → (cameraAbsent s).notices.pending = s.notices.pending ||| 128) ∧
    OnlyIn (fields [.camera, .notices]) s (cameraAbsent s) := by
  obtain ⟨camera, -, pending, only⟩ := presenceLevel_camera false s
  refine ⟨?_, pending, only.trans (Acts.only (by apply_rules [enterAbsent_acts, Acts.refl]))⟩
  show { (presenceLevel false s).camera with
    presence := .absent, presenceEnd := none, checkEnd := none, checkDue := false } = _
  rw [camera]

theorem presenceDrops_present (level : s.camera.presentIn = true) (present : s.camera.presence = .present) :
    presenceDrops s = advancePages (photoCameraGone (cameraAbsent s)) := by
  unfold presenceDrops
  rw [if_pos level, present]

theorem presenceDrops_check (level : s.camera.presentIn = true) (check : s.camera.presence = .check) :
    presenceDrops s = faultIfBusy (cameraAbsent s) := by
  unfold presenceDrops
  rw [if_pos level, check]

theorem photoCameraGone_busy (busy : s.photo.state.busy = true) : photoCameraGone s = cameraFault s := by
  unfold photoCameraGone
  cases state : s.photo.state
  case exposing => rfl
  case readout => rfl
  all_goals
    rw [state] at busy
    cases busy

theorem photoCameraGone_idle (idle : s.photo.state = .idle) : photoCameraGone s = restPhoto s := by
  unfold photoCameraGone
  rw [idle]

theorem photoCameraGone_armed (armed : s.photo.state = .armed) (job : s.job = some (.photo a)) :
    photoCameraGone s = cameraLost a s := by
  unfold photoCameraGone
  rw [armed, job]

theorem photoCameraGone_camera (s : State) : (photoCameraGone s).camera = s.camera :=
  (photoCameraGone_acts
    (.refl (fields [.turntable, .pages, .job, .photo, .port, .reader, .notices, .out, .freeCount]) s)
    rfl rfl rfl rfl rfl rfl rfl rfl rfl).only .camera rfl

theorem photoCameraGone_notices (sound : s.reader.writeBackLost = false) : (photoCameraGone s).notices = s.notices := by
  unfold photoCameraGone
  split
  · exact cameraFault_onlyIn s .notices rfl
  · exact cameraFault_onlyIn s .notices rfl
  · split
    · exact cameraLost_notices sound
    · rfl
  · rfl
  · rfl

theorem restPhoto_absent (gone : s.camera.presence ≠ .present) :
    restPhoto s = s.setPhoto { s.photo with state := .absent } := by
  unfold restPhoto
  rw [show restState s.camera = .absent from if_neg gone]

end Sys2Proof.Machine


/-! PROOFS. The camera's levels and timers (R131, R132, R136, R141). -/

namespace Sys2Proof.Machine

variable {s b w v u : State} {p q : Photograph} {a : PhotoJob} {m : Moment} {e : Nat}

/-! ## Presence rises (R131) -/

theorem enterCheck_camera (afterWait : Bool) (s : State) : (enterCheck afterWait s).camera = { s.camera with
    presence := .check, presenceEnd := none, checkAfterWait := afterWait, checkDue := false,
    checkEnd := (if s.camera.errorIn then none else some (s.now + checkTime)) } := rfl

theorem presenceRises_low (level : s.camera.presentIn = false)
    (out : s.camera.presence = .wait ∨ s.camera.presence = .absent) :
    presenceRises s = enterCheck (decide (s.camera.presence = .absent)) (presenceLevel true s) := by
  unfold presenceRises
  rw [if_neg (by rw [level]; decide)]
  rcases out with waits | absent
  · rw [waits]
    rfl
  · rw [absent]
    rfl

theorem presenceRises_camera (level : s.camera.presentIn = false)
    (out : s.camera.presence = .wait ∨ s.camera.presence = .absent) :
    (presenceRises s).camera = { s.camera with
      presence := .check, presentIn := true, presenceEnd := none, checkDue := false,
      checkAfterWait := decide (s.camera.presence = .absent),
      checkEnd := (if s.camera.errorIn then none else some (s.now + 500 * fineMs)) } ∧
    (s.camera.presence = .wait → (presenceRises s).notices = s.notices) ∧
    (s.camera.presence = .absent → (presenceRises s).notices.pending = s.notices.pending ||| 128) ∧
    OnlyIn (fields [.camera, .notices]) s (presenceRises s) := by
  obtain ⟨camera, quiet, raised, only⟩ := presenceLevel_camera true s
  have now : (presenceLevel true s).now = s.now := congrArg BitVec.toNat (only .time rfl)
  rw [presenceRises_low level out]
  refine ⟨?_, quiet, fun absent => raised (by rw [absent]; decide),
    only.trans (Acts.only (by apply_rules [enterCheck_acts, Acts.refl]))⟩
  rw [enterCheck_camera, camera, now]
  rfl

/-! ## Error rises (R132, R136) -/

theorem errorRises_check (quiet : s.camera.errorIn = false) (check : s.camera.presence = .check) :
    errorRises s = faultIfBusy { s with camera := { s.camera with errorIn := true, checkEnd := none } } := by
  unfold errorRises
  rw [if_neg (by rw [quiet]; decide), check]
  rfl

theorem errorRises_out (quiet : s.camera.errorIn = false) (out : s.camera.presence = .wait ∨ s.camera.presence = .absent) :
    errorRises s = faultIfBusy { s with camera := { s.camera with errorIn := true } } := by
  unfold errorRises
  rw [if_neg (by rw [quiet]; decide)]
  rcases out with waits | absent
  · rw [waits]
    rfl
  · rw [absent]
    rfl

theorem errorRises_present (quiet : s.camera.errorIn = false) (present : s.camera.presence = .present) :
    errorRises s = advancePages (errorInPresent { s with camera := { s.camera with errorIn := true } }) := by
  unfold errorRises
  rw [if_neg (by rw [quiet]; decide), present]
  rfl

/-- Outside of PRESENT an Error is a camera fault at the photograph in hand. -/
theorem errorRises_faults (quiet : s.camera.errorIn = false) (out : s.camera.presence ≠ .present)
    (busy : s.photo.state.busy = true) (current : s.photo.current = some p) :
    ∃ v, errorRises s = advancePages v ∧ CameraFaulted p s v ∧ v.camera = { s.camera with
      errorIn := true, checkEnd := (if s.camera.presence = .check then none else s.camera.checkEnd) } := by
  have told (c : Camera) : faultIfBusy { s with camera := c } = advancePages (cameraFault { s with camera := c }) ∧
      CameraFaulted p s (cameraFault { s with camera := c }) ∧ (cameraFault { s with camera := c }).camera = c :=
    ⟨faultIfBusy_busy busy, cameraFault_faulted (Acts.only (setCamera_acts c (.refl _ s) rfl)) current, cameraFault_onlyIn _ .camera rfl⟩
  by_cases check : s.camera.presence = .check
  · rw [errorRises_check quiet check, if_pos check]
    exact ⟨_, told _⟩
  · have other : s.camera.presence = .wait ∨ s.camera.presence = .absent := by
      cases h : s.camera.presence with
      | wait => exact .inl rfl
      | absent => exact .inr rfl
      | check => exact absurd h check
      | present => exact absurd h out
    rw [errorRises_out quiet other, if_neg check]
    exact ⟨_, told _⟩

/-- The camera of a station in hand in PRESENT takes an Error: the self-check is due. -/
abbrev checkDue (s : State) : State := s.setCamera { s.camera with errorIn := true, checkDue := true }

theorem errorInPresent_busy (busy : s.photo.state.busy = true) :
    errorInPresent { s with camera := { s.camera with errorIn := true } } = cameraFault (checkDue s) := if_pos busy

/-- An Error in PRESENT begins the self-check again, which waits for it to clear. -/
abbrev checkAgain (s : State) : State := s.setCamera { s.camera with
  errorIn := true, presence := .check, presenceEnd := none, checkAfterWait := true, checkDue := false, checkEnd := none }

theorem errorInPresent_idle (idle : s.photo.state.busy = false) :
    errorInPresent { s with camera := { s.camera with errorIn := true } } = photoCameraGone (checkAgain s) :=
  if_neg (by rw [show (State.photo _).state.busy = false from idle]; decide)

/-! ## The timers (R131, R132) -/

theorem presenceTimeOver_due (waits : s.camera.presence = .wait) (timer : s.camera.presenceEnd = some e) (due : e ≤ s.now) :
    presenceTimeOver s = enterAbsent s := by
  unfold presenceTimeOver
  rw [timer, if_pos ⟨waits, ended_of_le due⟩]

theorem presenceTimeOver_waits (waits : s.camera.presence ≠ .wait ∨ s.camera.presenceEnd = none ∨
    ∃ e, s.camera.presenceEnd = some e ∧ s.now < e) : presenceTimeOver s = s := by
  refine if_neg ?_
  rintro ⟨season, over_⟩
  rcases waits with other | waits
  · exact other season
  · rw [not_ended waits] at over_
    cases over_

theorem checkTimeOver_due (check : s.camera.presence = .check) (timer : s.camera.checkEnd = some e) (due : e ≤ s.now) :
    checkTimeOver s = checkPassed s := by
  unfold checkTimeOver
  rw [timer, if_pos ⟨check, ended_of_le due⟩]

theorem checkTimeOver_waits (waits : s.camera.presence ≠ .check ∨ s.camera.checkEnd = none ∨
    ∃ e, s.camera.checkEnd = some e ∧ s.now < e) : checkTimeOver s = s := by
  refine if_neg ?_
  rintro ⟨season, over_⟩
  rcases waits with other | waits
  · exact other season
  · rw [not_ended waits] at over_
    cases over_

/-- The camera's check is over, before CAMERA is raised for it. -/
def checkOver (s : State) : State :=
  if s.photo.current = none then restPhoto (s.setCamera { s.camera with presence := .present, checkEnd := none })
  else s.setCamera { s.camera with presence := .present, checkEnd := none }

theorem checkOver_over (s : State) :
    (checkOver s).camera = { s.camera with presence := .present, checkEnd := none } ∧
    (s.photo.current = none → (checkOver s).photo = { s.photo with state := .idle }) ∧
    (checkOver s).notices = s.notices := by
  unfold checkOver
  split
  next free => exact ⟨rfl, fun _ => rfl, rfl⟩
  next busy => exact ⟨rfl, fun free => absurd free busy, rfl⟩

theorem checkPassed_eq (s : State) :
    checkPassed s = if s.camera.checkAfterWait = true then raise .camera (checkOver s) else checkOver s := rfl

theorem checkPassed_passes (s : State) :
    (checkPassed s).camera = { s.camera with presence := .present, checkEnd := none } ∧
    (s.photo.current = none → (checkPassed s).photo = { s.photo with state := .idle }) ∧
    (s.camera.checkAfterWait = true → (checkPassed s).notices.pending = s.notices.pending ||| 128) ∧
    (s.camera.checkAfterWait = false → (checkPassed s).notices = s.notices) ∧
    OnlyIn (fields [.camera, .photo, .notices]) s (checkPassed s) := by
  have only : OnlyIn (fields [.camera, .photo, .notices]) s (checkPassed s) :=
    Acts.only (by apply_rules [checkPassed_acts, Acts.refl])
  obtain ⟨camera, photo, notices⟩ := checkOver_over s
  rw [checkPassed_eq] at only ⊢
  by_cases wait : s.camera.checkAfterWait = true
  · rw [if_pos wait] at only ⊢
    refine ⟨camera, photo, fun _ => (raise_pending .camera _).trans ?_, fun no => ?_, only⟩
    · exact congrArg (fun n : Notices => n.pending ||| 128) notices
    · rw [no] at wait
      cases wait
  · rw [if_neg wait] at only ⊢
    exact ⟨camera, photo, fun yes => absurd yes wait, fun _ => notices, only⟩

end Sys2Proof.Machine


/-! PROOFS. The camera's presence and its Error level (R131, R132, R136, R141). -/

namespace Sys2Proof.Machine

variable {s b w v u : State} {p q : Photograph} {a : PhotoJob} {m : Moment} {e : Nat}

/-- A camera that leaves PRESENT at one event stops what it was doing. -/
theorem photoCameraGone_exposing (exposes : s.photo.state = .exposing) (current : s.photo.current = some p) :
    (photoCameraGone s).out = s.out ++ [.cameraStop] ∧ ∃ q, (photoCameraGone s).photo.current = some q ∧
      q.endCause = (if p.endCause = some .memory then some .memory else some .camera) ∧ q.accepting = false ∧
      q.exposureEnd = none := by
  rw [photoCameraGone_busy (by rw [exposes]; rfl)]
  obtain ⟨issued, taken⟩ := cameraFault_taken current (.inl exposes)
  exact ⟨cameraFault_out current, _, taken, rfl, rfl, rfl⟩

/-- Settles O60, event by event. -/
theorem cameraPresence : Obligations.CameraPresence := by
  unfold Obligations.CameraPresence
  rintro m s b rfl
  obtain ⟨gone, raised, absent⟩ := cameraAbsent_camera (observe m s)
  have goneAbsent : (cameraAbsent (observe m s)).camera.presence ≠ .present := by rw [gone]; exact nofun
  have absentPhoto : (cameraAbsent (observe m s)).photo = s.photo := absent .photo rfl
  refine ⟨fun level out => ?_, fun level check idle => ?_, fun p level check busy current => ?_, fun level present => ?_,
    fun p level present busy current => ?_, fun level => ?_, fun level => ?_, fun e waits timer due => ?_, fun waits => ?_,
    fun quiet => ⟨fun check idle => ?_, fun out idle => ?_, fun p out busy current => ?_, fun present idle => ?_,
      fun a present armed job => ?_, fun p present exposes current sound => ?_, fun p present busy current => ?_⟩,
    fun error => ⟨?_, ?_⟩, fun quiet => ?_, fun e check timer due => ?_, fun waits => ?_⟩
  · exact ⟨_, rfl, presenceRises_camera (s := observe m s) level out⟩
  · have event : exec (.presenceDeasserted m) s = .next (cameraAbsent (observe m s)) :=
      next_congr ((presenceDrops_check (s := observe m s) level check).trans (faultIfBusy_idle ((congrArg (·.state.busy) absentPhoto).trans idle)))
    exact ⟨_, event, gone, raised (by rw [show (observe m s).camera.presence = .check from check]; decide), absent⟩
  · have event : exec (.presenceDeasserted m) s = .next (advancePages (cameraFault (cameraAbsent (observe m s)))) :=
      next_congr ((presenceDrops_check (s := observe m s) level check).trans (faultIfBusy_busy ((congrArg (·.state.busy) absentPhoto).trans busy)))
    have kept := cameraFault_onlyIn (cameraAbsent (observe m s))
    refine ⟨_, event, cameraFault_faulted absent current, (kept .camera rfl).trans gone, ?_⟩
    rw [kept .notices rfl]
    exact raised (by rw [show (observe m s).camera.presence = .check from check]; decide)
  · have event : exec (.presenceDeasserted m) s = .next (advancePages (photoCameraGone (cameraAbsent (observe m s)))) :=
      next_congr (presenceDrops_present (s := observe m s) level present)
    refine ⟨_, event, (photoCameraGone_camera _).trans gone, fun sound => ?_, fun idle => ?_, fun a armed job => ?_,
      fun p exposes current sound => ?_⟩
    · rw [photoCameraGone_notices ((congrArg Reader.writeBackLost (absent .reader rfl)).trans sound)]
      exact raised (by rw [show (observe m s).camera.presence = .present from present]; decide)
    · rw [photoCameraGone_idle ((congrArg Photo.state absentPhoto).trans idle), restPhoto_absent goneAbsent]
      refine ⟨congrArg (fun p : Photo => { p with state := .absent }) absentPhoto, ?_⟩
      exact (absent.widen (by decide)).trans (Acts.only (setPhoto_acts _ (.refl _ _) rfl (.inl (Nat.le_refl _))))
    · rw [photoCameraGone_armed (a := a) ((congrArg Photo.state absentPhoto).trans armed) ((absent .job rfl).trans job)]
      exact cameraLost_lost absent goneAbsent
    · obtain ⟨out, q, taken, cause, rest⟩ := photoCameraGone_exposing (s := cameraAbsent (observe m s)) (p := p)
        ((congrArg Photo.state absentPhoto).trans exposes) ((congrArg Photo.current absentPhoto).trans current)
      rw [absent .out rfl] at out
      exact ⟨out, q, taken, cause.trans (if_neg sound), rest⟩
  · have kept := cameraFault_onlyIn (cameraAbsent (observe m s))
    have event : exec (.presenceDeasserted m) s = .next (advancePages (cameraFault (cameraAbsent (observe m s)))) :=
      next_congr ((presenceDrops_present (s := observe m s) level present).trans (congrArg advancePages
        (photoCameraGone_busy ((congrArg (·.state.busy) absentPhoto).trans busy))))
    refine ⟨_, event, cameraFault_faulted absent current, (kept .camera rfl).trans gone, ?_, ?_⟩
    · rw [kept .notices rfl]
      exact raised (by rw [show (observe m s).camera.presence = .present from present]; decide)
    · exact (absent.widen (by decide)).trans (kept.widen (by decide))
  · exact next_congr (if_pos level)
  · exact next_congr (if_neg (by rw [show (observe m s).camera.presentIn = false from level]; decide))
  · exact next_congr (presenceTimeOver_due (s := observe m s) waits timer due)
  · exact next_congr (presenceTimeOver_waits (s := observe m s) waits)
  · exact next_congr ((errorRises_check (s := observe m s) quiet check).trans (faultIfBusy_idle idle))
  · exact next_congr ((errorRises_out (s := observe m s) quiet out).trans (faultIfBusy_idle idle))
  · obtain ⟨v, event, told⟩ := errorRises_faults (s := observe m s) quiet out busy current
    exact ⟨v, next_congr event, told⟩
  · refine next_congr ((errorRises_present (s := observe m s) quiet present).trans (congrArg advancePages ?_))
    refine (errorInPresent_idle ?_).trans ((photoCameraGone_idle (s := checkAgain (observe m s)) idle).trans
      (restPhoto_absent (s := checkAgain (observe m s)) nofun))
    rw [show (observe m s).photo.state = .idle from idle]
    rfl
  · have again : OnlyIn (fields [.camera, .notices]) (observe m s) (checkAgain (observe m s)) :=
      Acts.only (setCamera_acts _ (.refl _ _) rfl)
    have event : exec (.errorAsserted m) s = .next (advancePages (cameraLost a (checkAgain (observe m s)))) := by
      refine next_congr ((errorRises_present (s := observe m s) quiet present).trans (congrArg advancePages ?_))
      refine (errorInPresent_idle ?_).trans (photoCameraGone_armed armed job)
      rw [show (observe m s).photo.state = .armed from armed]
      rfl
    refine ⟨_, event, cameraLost_lost again nofun, ?_⟩
    rw [← photoCameraGone_armed (s := checkAgain (observe m s)) armed job]
    exact photoCameraGone_camera _
  · have busy : (observe m s).photo.state.busy = true := by
      rw [show (observe m s).photo.state = .exposing from exposes]
      rfl
    have event : exec (.errorAsserted m) s = .next (advancePages (cameraFault (checkDue (observe m s)))) :=
      next_congr ((errorRises_present (s := observe m s) quiet present).trans (congrArg advancePages (errorInPresent_busy busy)))
    obtain ⟨issued, taken⟩ := cameraFault_taken (s := checkDue (observe m s)) current (.inl exposes)
    exact ⟨_, event, cameraFault_onlyIn _ .camera rfl, cameraFault_out current, _, taken, if_neg sound, rfl⟩
  · have due : OnlyIn (fields [.camera, .notices]) (observe m s) (checkDue (observe m s)) :=
      Acts.only (setCamera_acts _ (.refl _ _) rfl)
    have kept := cameraFault_onlyIn (checkDue (observe m s))
    refine ⟨_, next_congr ((errorRises_present (s := observe m s) quiet present).trans (congrArg advancePages (errorInPresent_busy busy))),
      cameraFault_faulted due current, kept .camera rfl, ?_⟩
    exact OnlyIn.trans (Acts.only (setCamera_acts _ (.refl _ _) rfl)) (kept.widen (by decide))
  · exact next_congr (if_pos error)
  · exact next_congr (if_pos error)
  · exact next_congr (if_neg (by rw [show (observe m s).camera.errorIn = false from quiet]; decide))
  · exact ⟨_, next_congr (checkTimeOver_due (s := observe m s) check timer due), checkPassed_passes (observe m s)⟩
  · exact next_congr (checkTimeOver_waits (s := observe m s) waits)

end Sys2Proof.Machine


/-! PROOFS. What the arbiter grants (R161, R163, R164, R167). -/

namespace Sys2Proof.Machine

variable {s : State} {m : Moment} {x left : Port} {t : Transfer} {ts before after : List Transfer} {occupancy now : Nat}

theorem hasRoom_iff (r : Requester) : s.port.hasRoom r = true ↔ HasRoom s r := by
  cases r <;> exact decide_eq_true_iff

theorem Port.recordWaits_iff : x.recordWaits = true ↔ x.recordWait ≠ [] ∧ x.recordOut.length < 4 := by
  unfold Port.recordWaits Port.hasRoom
  rw [Bool.and_eq_true, decide_eq_true_iff, Bool.not_eq_true', List.isEmpty_eq_false_iff]
  rfl

theorem Port.photoWaits_iff : x.photoWaits = true ↔ x.photoWait ≠ [] ∧ x.photoOut.length < 4 := by
  unfold Port.photoWaits Port.hasRoom
  rw [Bool.and_eq_true, decide_eq_true_iff, Bool.not_eq_true', List.isEmpty_eq_false_iff]
  rfl

/-! ## The choice (R164) -/

theorem firstReady_of (none_before : ∀ y ∈ before, x.hasRoom y.requester = false) (room : x.hasRoom t.requester = true) :
    firstReady x (before ++ t :: after) = some (t, before ++ after) := by
  induction before with
  | nil => exact if_pos room
  | cons y ys ih =>
    rw [List.cons_append, firstReady, if_neg (by rw [none_before y List.mem_cons_self]; decide),
      ih fun z mem => none_before z (List.mem_cons_of_mem y mem)]
    rfl

theorem firstReady_none {l : List Transfer} (full : ∀ y ∈ l, x.hasRoom y.requester = false) : firstReady x l = none := by
  induction l with
  | nil => rfl
  | cons y ys ih =>
    show (if x.hasRoom y.requester = true then _ else _) = _
    rw [if_neg (by rw [full y List.mem_cons_self]; decide), ih fun z mem => full z (List.mem_cons_of_mem y mem)]
    rfl

theorem chooseData_record (waits : x.recordWaits = true)
    (turn : 24576 ≤ occupancy ∨ x.lastData = .photo ∨ x.photoWaits = false) : x.chooseData occupancy = some .record := by
  unfold Port.chooseData
  rw [waits]
  by_cases full : recordPriority ≤ occupancy
  · rw [decide_eq_true full]
    rfl
  · rw [decide_eq_false full]
    rcases turn with no | last | none_left
    · exact absurd no full
    · rw [last]
      cases x.photoWaits <;> rfl
    · rw [none_left]
      rfl

theorem chooseData_photo (waits : x.photoWaits = true)
    (turn : x.recordWaits = false ∨ (occupancy < 24576 ∧ x.lastData = .record)) : x.chooseData occupancy = some .photo := by
  unfold Port.chooseData
  rw [waits]
  rcases turn with none_left | ⟨room, last⟩
  · rw [none_left]
    rfl
  · rw [last, decide_eq_false (show ¬ recordPriority ≤ occupancy from Nat.not_le.2 room)]
    cases x.recordWaits <;> rfl

theorem chooseData_none (record : x.recordWaits = false) (photo : x.photoWaits = false) :
    x.chooseData occupancy = none := by
  unfold Port.chooseData
  rw [record, photo]
  rfl

/-! ## The grant -/

theorem grant_control (control : x.control = before ++ t :: after)
    (none_before : ∀ y ∈ before, x.hasRoom y.requester = false) (room : x.hasRoom t.requester = true) :
    x.grant now occupancy = (({ x with control := before ++ after } : Port).issue now t, some t) := by
  unfold Port.grant
  rw [control, firstReady_of none_before room]

theorem grant_record (full : ∀ y ∈ x.control, x.hasRoom y.requester = false) (waits : x.recordWait = t :: ts)
    (chosen : x.chooseData occupancy = some .record) :
    x.grant now occupancy = (({ x with recordWait := ts, lastData := .record } : Port).issue now t, some t) := by
  unfold Port.grant
  rw [firstReady_none full]
  dsimp only
  rw [chosen]
  dsimp only
  rw [waits]

theorem grant_photo (full : ∀ y ∈ x.control, x.hasRoom y.requester = false) (waits : x.photoWait = t :: ts)
    (chosen : x.chooseData occupancy = some .photo) :
    x.grant now occupancy = (({ x with photoWait := ts, lastData := .photo } : Port).issue now t, some t) := by
  unfold Port.grant
  rw [firstReady_none full]
  dsimp only
  rw [chosen]
  dsimp only
  rw [waits]

theorem grant_none (full : ∀ y ∈ x.control, x.hasRoom y.requester = false) (chosen : x.chooseData occupancy = none) :
    x.grant now occupancy = (x, none) := by
  unfold Port.grant
  rw [firstReady_none full]
  dsimp only
  rw [chosen]

theorem arbitrate_held {y : Requester × Nat} (held : s.issueSlot = some y) : arbitrate s = s := by
  unfold arbitrate
  rw [held]

theorem arbitrate_none (slot : s.issueSlot = none) (grant : s.port.grant s.now s.occupancy = (x, none)) :
    arbitrate s = s := by
  unfold arbitrate
  rw [slot, grant]

theorem arbitrate_grants (slot : s.issueSlot = none) (grant : s.port.grant s.now s.occupancy = (x, some t)) :
    arbitrate s = { s with
      port := x, issueSlot := some (t.requester, s.now), out := s.out ++ [.issued s.port.nextId t] } := by
  unfold arbitrate
  rw [slot, grant]
  rfl

/-- A transfer the arbiter has chosen is granted. -/
theorem granted_of (slot : (observe m s).issueSlot = none) (outs : left.outOf t.requester = s.port.outOf t.requester)
    (next : left.nextId = s.port.nextId)
    (grant : s.port.grant (observe m s).now s.occupancy = (left.issue (observe m s).now t, some t)) :
    Granted m s (observe m s) t left := by
  refine next_congr ((arbitrate_grants (s := observe m s) slot grant).trans ?_)
  unfold Port.issue
  rw [outs, next]
  rfl

/-! ## The issue slot (R163) -/

theorem slotAt_none (now : Nat) : slotAt now none = none := rfl

theorem slotAt_past {q : Requester} {time : Nat} (past : time ≠ now) : slotAt now (some (q, time)) = none := if_neg past

theorem slotAt_here (q : Requester) : slotAt now (some (q, now)) = some (q, now) := if_pos rfl

/-- Settles O55: the arbiter's steps in their order. -/
theorem arbiterGrants : Obligations.ArbiterGrants := by
  unfold Obligations.ArbiterGrants
  rintro m s b rfl
  have slot : (observe m s).issueSlot = slotAt (observe m s).now s.issueSlot := rfl
  have noRoom {l : List Transfer} (none_ : ∀ y ∈ l, ¬ HasRoom s y.requester) :
      ∀ y ∈ l, s.port.hasRoom y.requester = false := fun y mem =>
    Bool.eq_false_iff.2 fun room => none_ y mem ((hasRoom_iff _).1 room)
  have outs (q : Requester) (c r p : List Transfer) (d : DataPath) :
      ({ s.port with control := c, recordWait := r, photoWait := p, lastData := d } : Port).outOf q = s.port.outOf q := by
    cases q <;> rfl
  have photoFree (h : s.port.photoWait = [] ∨ 4 ≤ s.port.photoOut.length) : s.port.photoWaits = false :=
    Bool.eq_false_iff.2 fun waits => h.elim (fun none_ => (Port.photoWaits_iff.1 waits).1 none_)
      (Nat.not_le.2 (Port.photoWaits_iff.1 waits).2)
  have recordFree (h : s.port.recordWait = [] ∨ 4 ≤ s.port.recordOut.length) : s.port.recordWaits = false :=
    Bool.eq_false_iff.2 fun waits => h.elim (fun none_ => (Port.recordWaits_iff.1 waits).1 none_)
      (Nat.not_le.2 (Port.recordWaits_iff.1 waits).2)
  refine ⟨fun free => ?_, fun q time held past => ?_, fun q held => ?_, fun free =>
    ⟨fun before t after control none_ room => ?_, fun none_ => ⟨fun t ts waits few turn => ?_, fun t ts waits few turn => ?_,
      fun record photo => ?_⟩⟩⟩
  · rw [slot, free, slotAt_none]
  · rw [slot, held, slotAt_past past]
  · have here : (observe m s).issueSlot = some (q, (observe m s).now) := by rw [slot, held, slotAt_here]
    exact ⟨here, next_congr (arbitrate_held here)⟩
  · exact granted_of free (outs _ _ _ _ _) rfl (grant_control control (noRoom none_) ((hasRoom_iff _).2 room))
  · refine granted_of free (outs _ _ _ _ _) rfl (grant_record (noRoom none_) waits (chooseData_record ?_ ?_))
    · exact Port.recordWaits_iff.2 ⟨by rw [waits]; exact List.cons_ne_nil _ _, few⟩
    · exact turn.imp_right fun other => other.imp_right photoFree
  · refine granted_of free (outs _ _ _ _ _) rfl (grant_photo (noRoom none_) waits (chooseData_photo ?_ ?_))
    · exact Port.photoWaits_iff.2 ⟨by rw [waits]; exact List.cons_ne_nil _ _, few⟩
    · rcases turn with none_left | full | yields
      · exact .inl (recordFree (.inl none_left))
      · exact .inl (recordFree (.inr full))
      · exact .inr yields
  · exact next_congr (arbitrate_none (s := observe m s) free
      (grant_none (noRoom none_) (chooseData_none (recordFree record) (photoFree photo))))

end Sys2Proof.Machine


/-! PROOFS. The turntable's events (section 1.3, R12 to R19, R113, R116, R140, R141). -/

namespace Sys2Proof.Machine

variable {s b w v u : State} {j : ScanJob} {a : PhotoJob} {m : Moment} {e : Nat} {target : Angle} {x : StationSlot}

/-! ## The hold band and rest (R12 to R14, R18) -/

theorem inHoldBand_out (aim : s.turntable.target = some target) (far : 64 < circleDistance s.azimuth target) :
    s.inHoldBand = false := Bool.eq_false_iff.2 fun near => Nat.not_le.2 far ((inHoldBand_iff aim).1 near)

theorem bandEntered_here (slews : s.turntable.state = .slewing) (near : s.inHoldBand = true) :
    bandEntered s = s.setTurntable { s.turntable with
      state := .settling, settleEnd := some (s.now + s.turntable.settleMs * fineMs) } := if_pos ⟨slews, near⟩

theorem bandEntered_still (h : s.turntable.state ≠ .slewing ∨ s.inHoldBand = false) : bandEntered s = s := by
  refine if_neg ?_
  rintro ⟨slews, near⟩
  rcases h with other | out
  · exact other slews
  · rw [out] at near
    cases near

theorem bandLeft_inside (near : s.inHoldBand = true) : bandLeft s = s := if_pos near

theorem bandLeft_settling (far : s.inHoldBand = false) (settles : s.turntable.state = .settling) :
    bandLeft s = s.setTurntable { s.turntable with state := .slewing, settleEnd := none } := by
  unfold bandLeft
  rw [far, settles]
  rfl

theorem bandLeft_held (far : s.inHoldBand = false) (held : s.turntable.state = .held) :
    bandLeft s = s.setTurntable { s.turntable with state := .slewing, slewEnd := some (s.now + 60 * fineSec) } := by
  unfold bandLeft
  rw [far, held]
  rfl

theorem bandLeft_elsewhere (settles : s.turntable.state ≠ .settling) (held : s.turntable.state ≠ .held) :
    bandLeft s = s := by
  unfold bandLeft
  split
  · rfl
  · split
    next yes => exact absurd yes settles
    next yes => exact absurd yes held
    all_goals rfl

theorem headAtRest_iff : s.headAtRest = true ↔ s.rest.since + 10 * fineMs ≤ s.now := decide_eq_true_iff

theorem atRest_stops (slows : s.turntable.state = .decelerating) (rest : s.rest.since + 10 * fineMs ≤ s.now) :
    atRest s = s.setTurntable { s.turntable with state := .stopped } := if_pos ⟨slows, headAtRest_iff.2 rest⟩

theorem atRest_still (h : s.turntable.state ≠ .decelerating ∨ s.now < s.rest.since + 10 * fineMs) : atRest s = s := by
  refine if_neg ?_
  rintro ⟨slows, rest⟩
  exact h.elim (fun other => other slows) fun moves => Nat.not_le.2 moves (headAtRest_iff.1 rest)

/-! ## The turntable drive (section 1.3) -/

theorem headDrive_off (h : s.turntable.state = .stopped ∨ s.turntable.state = .fault) : s.headDrive = .off := by
  unfold State.headDrive
  rcases h with h | h <;> rw [h]

/-! ## Settled (R13, R14, R19) -/

theorem settled_due (settles : s.turntable.state = .settling) (timer : s.turntable.settleEnd = some e) (due : e ≤ s.now) :
    settled s = advancePages (answerArrived
      (s.setTurntable { s.turntable with state := .held, settleEnd := none, slewEnd := none })) := by
  unfold settled
  rw [timer, if_pos ⟨settles, ended_of_le due⟩]

theorem settled_waits (waits : s.turntable.state ≠ .settling ∨ s.turntable.settleEnd = none ∨
    ∃ e, s.turntable.settleEnd = some e ∧ s.now < e) : settled s = s := by
  refine if_neg ?_
  rintro ⟨season, over_⟩
  rcases waits with other | waits
  · exact other season
  · rw [not_ended waits] at over_
    cases over_

theorem requestIsOurs_iff : s.requestIsOurs = true ↔ s.turntable.requester = some s.jobSerial := decide_eq_true_iff

theorem answerArrived_others (h : s.turntable.requester ≠ some s.jobSerial ∨ s.turntable.answered = true) :
    answerArrived s = s := by
  refine if_neg ?_
  rintro ⟨ours, waits⟩
  rcases h with other | told
  · exact other (requestIsOurs_iff.1 ours)
  · rw [told] at waits
    cases waits

theorem answerArrived_ours (ours : s.turntable.requester = some s.jobSerial) (waits : s.turntable.answered = false) :
    answerArrived s = jobArrived (s.setTurntable { s.turntable with answered := true }) :=
  if_pos ⟨requestIsOurs_iff.2 ours, waits⟩

theorem jobArrived_turntable (s : State) : (jobArrived s).turntable = s.turntable :=
  (jobArrived_acts (.refl (fields [.pages, .job, .photo, .port, .reader, .notices, .out, .freeCount]) s)
    rfl rfl rfl rfl rfl rfl rfl rfl).only .turntable rfl

/-- The answer moves only the note that it has been given. -/
theorem answerArrived_turntable (s : State) :
    ∃ told, (answerArrived s).turntable = { s.turntable with answered := told } := by
  unfold answerArrived
  split
  · exact ⟨true, jobArrived_turntable _⟩
  · exact ⟨s.turntable.answered, rfl⟩

theorem jobArrived_turn (run : s.job = some .turnWait) : jobArrived s = finishOpen .turn .none s := by
  unfold jobArrived
  rw [run]

theorem jobArrived_scan (run : s.job = some (.scan j)) (phase : j.phase = .position) (waits : j.endWait = .none) :
    jobArrived s = enterRunIn j s := by
  unfold jobArrived
  rw [run]
  exact if_pos ⟨phase, waits⟩

theorem jobArrived_photo (run : s.job = some (.photo a)) (armed : s.photo.state = .armed) :
    jobArrived s = exposeStation a s := by
  unfold jobArrived
  rw [run]
  exact if_pos armed

/-! ## The slew limit (R14, R17) -/

theorem slewLimitOver_due (moves : s.turntable.state = .slewing ∨ s.turntable.state = .settling)
    (timer : s.turntable.slewEnd = some e) (due : e ≤ s.now) :
    slewLimitOver s = advancePages (jobTurntableFault (enterTurntableFault s)) := by
  unfold slewLimitOver
  rw [timer, if_pos ⟨moves, ended_of_le due⟩]

theorem slewLimitOver_waits (waits : (s.turntable.state ≠ .slewing ∧ s.turntable.state ≠ .settling) ∨
    s.turntable.slewEnd = none ∨ ∃ e, s.turntable.slewEnd = some e ∧ s.now < e) : slewLimitOver s = s := by
  refine if_neg ?_
  rintro ⟨season, over_⟩
  rcases waits with ⟨slews, settles⟩ | waits
  · exact season.elim slews settles
  · rw [not_ended waits] at over_
    cases over_

theorem enterTurntableFault_faults (s : State) :
    (enterTurntableFault s).turntable = { s.turntable with
      state := .fault, target := none, settleEnd := none, slewEnd := none } ∧
    (enterTurntableFault s).notices.pending = s.notices.pending ||| 32 ∧
    OnlyIn (fields [.turntable, .notices]) s (enterTurntableFault s) :=
  ⟨rfl, raise_pending .fault _, Acts.only (by apply_rules [enterTurntableFault_acts, Acts.refl])⟩

theorem jobTurntableFault_others (h : s.turntable.requester ≠ some s.jobSerial) : jobTurntableFault s = s :=
  if_neg fun ours => h (requestIsOurs_iff.1 ours)

section Ours

variable (ours : s.turntable.requester = some s.jobSerial)
include ours

theorem jobTurntableFault_turn (run : s.job = some .turnWait) :
    jobTurntableFault s = finishJob .turn ⟨.turntableFault, s.azimuth.toNat, []⟩ s := by
  unfold jobTurntableFault
  rw [if_pos (requestIsOurs_iff.2 ours), run]
  rfl

theorem jobTurntableFault_scan (run : s.job = some (.scan j)) (phase : j.phase = .position) (waits : j.endWait = .none) :
    jobTurntableFault s = failPre .turntableFault j s := by
  unfold jobTurntableFault
  rw [if_pos (requestIsOurs_iff.2 ours), run]
  exact if_pos ⟨phase, waits⟩

theorem jobTurntableFault_photo (run : s.job = some (.photo a)) (early : a.sealWait = false)
    (armed : s.photo.state = .armed) :
    jobTurntableFault s = endPhotoJob { a with cause := firstCause a.cause .turntableFault } (restPhoto s) := by
  unfold jobTurntableFault photoTurntableFault
  rw [if_pos (requestIsOurs_iff.2 ours), run]
  dsimp only
  rw [early, armed]
  rfl

end Ours

theorem failPre_notices (c : ResultCode) (j : ScanJob) (sound : s.reader.writeBackLost = false) :
    (failPre c j s).notices = s.notices := by
  cases seals : s.seals with
  | true =>
    rw [failPre_of_seals c j seals]
    exact decelerate_onlyIn s .notices rfl
  | false => exact ((failPre_ends c j seals).ends.result sound).2

theorem decelerate_faulted (fault : s.turntable.state = .fault) : decelerate s = s := by
  unfold decelerate
  rw [fault]

/-- A turntable fault told to the job that asked leaves turntable and notices as they are. -/
theorem jobTurntableFault_keeps (fault : s.turntable.state = .fault) (sound : s.reader.writeBackLost = false) :
    (jobTurntableFault s).turntable = s.turntable ∧ (jobTurntableFault s).notices = s.notices := by
  have photo (a : PhotoJob) : (photoTurntableFault a s).turntable = s.turntable ∧
      (photoTurntableFault a s).notices = s.notices := by
    unfold photoTurntableFault
    dsimp only
    split
    · exact ⟨(endPhotoJob_keeps _ (restPhoto s)).1, endPhotoJob_notices (s := restPhoto s) sound⟩
    all_goals exact ⟨rfl, rfl⟩
  unfold jobTurntableFault
  split
  · split
    · exact ⟨finishJob_onlyIn sound .turntable rfl, finishJob_onlyIn sound .notices rfl⟩
    · split
      · refine ⟨(failPre_failedEarly _ _ _).turntable.trans ?_, failPre_notices _ _ sound⟩
        rw [decelerate_faulted fault]
      · exact ⟨rfl, rfl⟩
    · split
      · exact ⟨rfl, rfl⟩
      · exact photo _
    · exact ⟨rfl, rfl⟩
  · exact ⟨rfl, rfl⟩

end Sys2Proof.Machine


/-! PROOFS. The turntable moves (section 1.3, R12 to R19, R113, R116, R140, R141). -/

namespace Sys2Proof.Machine

variable {s b w v u : State} {j : ScanJob} {a : PhotoJob} {m : Moment} {e : Nat} {target : Angle} {x : StationSlot}

/-- The turntable has settled, before its job is answered. -/
abbrev turntableHeld (s : State) : State :=
  s.setTurntable { s.turntable with state := .held, settleEnd := none, slewEnd := none }

/-- The turntable has settled and its job is being answered. -/
abbrev turntableTold (s : State) : State :=
  (turntableHeld s).setTurntable { s.turntable with state := .held, settleEnd := none, slewEnd := none, answered := true }

theorem turntableHeld_answers (ours : s.turntable.requester = some s.jobSerial) (waits : s.turntable.answered = false) :
    answerArrived (turntableHeld s) = jobArrived (turntableTold s) := answerArrived_ours (s := turntableHeld s) ours waits

/-- A turntable fault of the job that is sent to its run-in point. -/
theorem slewFault_scan (ours : s.turntable.requester = some s.jobSerial) (run : s.job = some (.scan j))
    (phase : j.phase = .position) (waits : j.endWait = .none) (sound : s.reader.writeBackLost = false) :
    (s.seals = true →
      (jobTurntableFault (enterTurntableFault s)).job =
        some (.scan { j with cause := some .turntableFault, endWait := .mark }) ∧
      (jobTurntableFault (enterTurntableFault s)).pages.mark = some ⟨s.staging.nextSeq, .abort, false⟩) ∧
    (s.seals = false →
      HandsBack (scanResult { j with cause := some .turntableFault } s.azimuth s.photo.stations)
        (jobTurntableFault (enterTurntableFault s))) := by
  rw [jobTurntableFault_scan (s := enterTurntableFault s) ours run phase waits]
  have fails := failPre_failedEarly .turntableFault j (enterTurntableFault s)
  exact ⟨fails.seals, fun plain => fails.ends plain sound⟩

theorem slewFault_photo (ours : s.turntable.requester = some s.jobSerial) (run : s.job = some (.photo a))
    (early : a.sealWait = false) (sure : a.lateCause = false) (armed : s.photo.state = .armed)
    (sound : s.reader.writeBackLost = false) :
    (s.seals = true →
      (jobTurntableFault (enterTurntableFault s)).job =
        some (.photo { a with cause := firstCause a.cause .turntableFault, sealWait := true }) ∧
      (jobTurntableFault (enterTurntableFault s)).pages.mark = some ⟨s.staging.nextSeq, .abort, false⟩) ∧
    (s.seals = false →
      HandsBack (photoResult { a with cause := firstCause a.cause .turntableFault } a.index s.photo.stations)
        (jobTurntableFault (enterTurntableFault s))) := by
  rw [jobTurntableFault_photo (s := enterTurntableFault s) ours run early armed]
  refine ⟨fun seals => ?_, fun plain => ?_⟩
  · rw [endPhotoJob_seals (s := restPhoto (enterTurntableFault s)) seals, if_neg (firstCause_some _ _)]
    exact ⟨rfl, rfl⟩
  · rw [endPhotoJob_hands (s := restPhoto (enterTurntableFault s)) plain]
    exact handPhoto_handsBack (a := { a with cause := firstCause a.cause .turntableFault })
      (s := restPhoto (enterTurntableFault s)) sound sure

/-- Settles O36. -/
theorem turntableMoves : Obligations.TurntableMoves := by
  unfold Obligations.TurntableMoves
  refine ⟨?_, ?_, ?_, ?_, ?_⟩
  · rintro m s b target rfl aim
    refine ⟨fun near => ?_, fun far => ?_⟩
    · have inside : (observe m s).inHoldBand = true := (inHoldBand_iff (s := observe m s) aim).2 near
      exact ⟨fun slews => next_congr (bandEntered_here (s := observe m s) slews inside), next_congr (bandLeft_inside inside)⟩
    · have outside : (observe m s).inHoldBand = false := inHoldBand_out (s := observe m s) aim far
      exact ⟨fun settles => next_congr (bandLeft_settling (s := observe m s) outside settles),
        fun held => next_congr (bandLeft_held (s := observe m s) outside held),
        next_congr (bandEntered_still (.inr outside))⟩
  · rintro m s b rfl
    obtain ⟨near, far⟩ := observe_rest m s
    exact ⟨near, far, fun slows rest => ⟨_, next_congr (atRest_stops (s := observe m s) slows rest), rfl,
      headDrive_off (.inl rfl)⟩, fun h => next_congr (atRest_still (s := observe m s) h)⟩
  · rintro m s b e rfl due sound
    refine ⟨fun settles timer => ?_, fun moves timer => ?_⟩
    · have event : exec (.settleTimerExpiry m) s = .next (advancePages (answerArrived (turntableHeld (observe m s)))) :=
        next_congr (settled_due (s := observe m s) settles timer due)
      obtain ⟨told, turntable⟩ := answerArrived_turntable (turntableHeld (observe m s))
      refine ⟨_, event, ?_, ?_, ?_, ?_, fun others => ?_, fun ours waits => ?_⟩
      iterate 4
        rw [turntable]
        rfl
      · rw [answerArrived_others (s := turntableHeld (observe m s)) others]
        exact Acts.only (setTurntable_acts _ (.refl _ _) rfl)
      · rw [turntableHeld_answers (s := observe m s) ours waits]
        refine ⟨fun run => ?_, fun j run phase waits => ?_, fun p st run armed at_ => ?_⟩
        · rw [jobArrived_turn (s := turntableTold (observe m s)) run]
          exact ⟨_, finishOpen_finishes (s := turntableTold (observe m s)) .turn .none sound⟩
        · rw [jobArrived_scan (s := turntableTold (observe m s)) run phase waits]
          rfl
        · rw [jobArrived_photo (s := turntableTold (observe m s)) run armed,
            exposeStation_at (s := turntableTold (observe m s)) at_]
          exact ⟨rfl, rfl, _, rfl, rfl, rfl, rfl, rfl, rfl, rfl, rfl⟩
    · have event : exec (.slewLimitExpiry m) s =
          .next (advancePages (jobTurntableFault (enterTurntableFault (observe m s)))) :=
        next_congr (slewLimitOver_due (s := observe m s) moves timer due)
      obtain ⟨turntable, notices⟩ := jobTurntableFault_keeps (s := enterTurntableFault (observe m s)) rfl sound
      obtain ⟨-, pending, only⟩ := enterTurntableFault_faults (observe m s)
      refine ⟨_, event, ?_, ?_, ?_, ?_, ?_, ?_, fun others => ?_, fun ours => ⟨fun run => ?_, fun j run phase waits => ?_,
        fun a run early sure armed => ?_⟩⟩
      iterate 4
        rw [turntable]
        rfl
      · refine headDrive_off (.inr ?_)
        rw [turntable]
        rfl
      · rw [notices]
        exact pending
      · rw [jobTurntableFault_others (s := enterTurntableFault (observe m s)) others]
        exact only
      · rw [jobTurntableFault_turn (s := enterTurntableFault (observe m s)) ours run]
        exact finishJob_finishes (s := enterTurntableFault (observe m s)) sound
      · exact slewFault_scan (s := observe m s) ours run phase waits sound
      · exact slewFault_photo (s := observe m s) ours run early sure armed sound
  · rintro m s b rfl
    exact ⟨fun slews => next_congr (bandEntered_still (s := observe m s) (.inl slews)),
      fun settles held => next_congr (bandLeft_elsewhere (s := observe m s) settles held),
      fun waits => next_congr (settled_waits (s := observe m s) waits),
      fun waits => next_congr (slewLimitOver_waits (s := observe m s) waits)⟩
  · intro u
    refine ⟨fun a slews aim => ?_, fun a holds aim => ?_, fun tracks => ?_, fun slows => ?_, headDrive_off⟩
    · unfold State.headDrive
      rw [slews, aim]
      rfl
    · unfold State.headDrive
      rcases holds with h | h <;> rw [h, aim]
    · unfold State.headDrive
      rw [tracks]
    · unfold State.headDrive
      rw [slows]

end Sys2Proof.Machine


/-! PROOFS. The end of a photograph (R84, R86, R124 to R126, R132, R135, R138). -/

namespace Sys2Proof.Machine

variable {s r v u z : State} {p : Photograph} {j : ScanJob} {m : Moment} {x : Transfer} {rest : List Outstanding}

/-! ## What waits for the outstanding transfers (R137) -/

/-- No photograph in hand has a memory fault. -/
def State.photoSound (s : State) : Prop := ∀ q, s.photo.current = some q → q.endCause ≠ some .memory

theorem photoDrained_of_sound (sound : s.photoSound) : photoDrained s = s := by
  unfold photoDrained
  split
  next q current => exact if_neg fun h => sound q current h.1
  next => rfl

theorem photoSound_of_none (none : s.photo.current = none) : s.photoSound := fun q current => by
  rw [none] at current
  cases current

/-! ## The events -/

theorem exec_rowWrite {last : Bool} (awaits : OldestAwaits m.transfer s x rest) (who : x.requester = .photo)
    (after : r = reported m x rest s) (purpose : x.purpose = .row last) :
    exec (.rowWriteComplete m) s = .next (advancePages (photoDrained (if last then rowStored r else r))) := by
  refine next_congr ((completeOldest_photo m.transfer m s x rest awaits who _ (by rw [purpose]; rfl) []).trans ?_)
  rw [purpose, after]
  rfl

theorem exec_headerWrite (awaits : OldestAwaits m.transfer s x rest) (who : x.requester = .photo)
    (after : r = reported m x rest s) (purpose : x.purpose = .photoHeader) :
    exec (.headerWriteComplete m) s = .next (advancePages (photoDrained (photoHeaderWritten r))) := by
  refine next_congr ((completeOldest_photo m.transfer m s x rest awaits who _ (decide_eq_true purpose) []).trans ?_)
  rw [purpose, after]
  rfl

theorem rowStored_eq (current : s.photo.current = some p) : rowStored s = photoProgress { s with
    photo := { s.photo with
      rows := s.photo.rows.tail, current := some { p with rowsStored := p.rowsStored + 1 } } } := by
  unfold rowStored
  rw [current]
  rfl

theorem photoProgress_sound (sound : v.photoSound) : (photoProgress v).photoSound := by
  intro q' taken
  cases current : v.photo.current with
  | some q =>
    obtain ⟨issued, same⟩ := photoProgress_current current
    cases taken.symm.trans same
    exact sound q current
  | none =>
    unfold photoProgress at taken
    rw [current] at taken
    dsimp only at taken
    rw [current] at taken
    cases taken

/-! ## The photograph is over (R132, R138) -/

/-- A photograph that is over has left the photo machine, its station its status. -/
def photoCleared (p : Photograph) (s : State) : State := s.setPhoto { s.photo with
  current := none, rows := [], stations := setStatus p.station (endStatus p.endCause) s.photo.stations }

/-- The photo machine is at rest again, the self-check begun where one was due. -/
def photoOver (p : Photograph) (s : State) : State :=
  restPhoto (if s.camera.checkDue then enterCheck true (photoCleared p s) else photoCleared p s)

theorem photoOver_camera (p : Photograph) (s : State) :
    (s.camera.checkDue = false → (photoOver p s).camera = s.camera) ∧
    (s.camera.checkDue = true → (photoOver p s).camera.presence = .check) := by
  unfold photoOver
  refine ⟨fun no => ?_, fun due => ?_⟩
  · rw [if_neg (by rw [no]; decide)]
    rfl
  · rw [if_pos due]
    rfl

theorem photoOver_photo (p : Photograph) (s : State) (present : Bool)
    (here : present = decide (s.camera.presence = .present ∧ s.camera.checkDue = false)) :
    (photoOver p s).photo = ⟨if present then .idle else .absent, none, [],
      setStatus p.station (endStatus p.endCause) s.photo.stations, s.photo.inlineBase⟩ ∧
    ((photoOver p s).camera.presence = .present ↔ present = true) := by
  have rest : (photoOver p s).photo = ⟨restState (photoOver p s).camera, none, [],
      setStatus p.station (endStatus p.endCause) s.photo.stations, s.photo.inlineBase⟩ := by
    unfold photoOver
    split <;> rfl
  obtain ⟨kept, checks⟩ := photoOver_camera p s
  have camera : (photoOver p s).camera.presence = .present ↔ present = true := by
    rw [here, decide_eq_true_iff]
    cases due : s.camera.checkDue with
    | false => rw [kept due]; simp
    | true => rw [checks due]; simp
  refine ⟨?_, camera⟩
  rw [rest]
  unfold restState
  simp only [camera]

theorem photoOver_onlyIn (p : Photograph) (s : State) : OnlyIn (fields [.photo, .camera]) s (photoOver p s) := by
  have cleared : Acts (fields [.photo, .camera]) s (photoCleared p s) :=
    setPhoto_acts _ (.refl _ s) rfl (.inl (Nat.zero_le _))
  unfold photoOver
  split
  · exact Acts.only (by apply_rules [restPhoto_acts, enterCheck_acts])
  · exact Acts.only (by apply_rules [restPhoto_acts])

/-- The PHOTO record of a photograph has been offered, where it has one. -/
def photoRecorded (p : Photograph) (s : State) : State :=
  match endStatus p.endCause with
  | .done | .truncated => ((offerReserve (.photo (photoRecord p s)) s).1).spendFree
  | .notReached | .missed | .fault => s

theorem photoRecorded_fault (fault : endStatus p.endCause = .fault) (s : State) : photoRecorded p s = s := by
  unfold photoRecorded
  rw [fault]

theorem photoRecorded_offers (sound : endStatus p.endCause ≠ .fault) (s : State) :
    photoRecorded p s = ((offerReserve (.photo (photoRecord p s)) s).1).spendFree := by
  unfold photoRecorded
  cases cause : p.endCause with
  | none => rfl
  | some k =>
    rw [cause] at sound
    cases k with
    | overrun => rfl
    | shortBuffer => rfl
    | abort => rfl
    | camera => exact absurd rfl sound
    | memory => exact absurd rfl sound

theorem photoRecorded_onlyIn (p : Photograph) (s : State) :
    OnlyIn (fields [.staging, .loss, .freeCount]) s (photoRecorded p s) := by
  unfold photoRecorded
  split <;> exact Acts.only (by apply_rules [spendFree_acts, offerReserve_acts, Acts.refl])

/-- An admitted PHOTO record comes behind the GAP that is due. -/
theorem photoRecorded_admitted (sound : endStatus p.endCause ≠ .fault)
    (room : s.occupancy + (if s.loss = Loss.zero then 64 else 96) ≤ 32768) :
    (photoRecorded p s).loss = Loss.zero ∧
    (photoRecorded p s).staging.entries = s.staging.entries ++
      (if s.loss = Loss.zero then [⟨s.staging.nextSeq, s.jobSerial, .photo (photoRecord p s), false⟩]
      else [⟨s.staging.nextSeq, s.jobSerial, .gap s.loss, false⟩,
        ⟨s.staging.nextSeq + 1, s.jobSerial, .photo (photoRecord p s), false⟩]) := by
  obtain ⟨-, plain, behind, -⟩ := offerReserve_spec (.photo (photoRecord p s)) s rfl
  rw [photoRecorded_offers sound]
  by_cases zero : s.loss = Loss.zero
  · rw [if_pos zero] at room ⊢
    obtain ⟨loss, staging⟩ := plain zero room
    exact ⟨loss.trans zero, congrArg Staging.entries staging⟩
  · rw [if_neg zero] at room ⊢
    obtain ⟨loss, staging⟩ := behind zero room
    refine ⟨loss, (congrArg Staging.entries staging).trans ?_⟩
    exact List.append_assoc ..

theorem photoRecorded_refused (sound : endStatus p.endCause ≠ .fault)
    (full : 32768 < s.occupancy + (if s.loss = Loss.zero then 64 else 96)) :
    (photoRecorded p s).staging = s.staging ∧ (photoRecorded p s).loss = s.loss.addOther := by
  obtain ⟨-, -, -, refused⟩ := offerReserve_spec (.photo (photoRecord p s)) s rfl
  rw [photoRecorded_offers sound]
  refine refused (Nat.lt_of_lt_of_eq full ?_)
  by_cases zero : s.loss = Loss.zero
  · rw [if_pos zero, if_pos zero]
    rfl
  · rw [if_neg zero, if_neg zero]
    rfl

theorem photoFinish_eq (current : s.photo.current = some p) :
    photoFinish s = tellStationEnded (endStatus p.endCause) p.endCause (photoOver p s) := by
  unfold photoFinish
  rw [current]
  rfl

theorem photoHeaderWritten_eq (current : s.photo.current = some p) :
    photoHeaderWritten s = tellStationEnded (endStatus p.endCause) p.endCause (photoOver p (photoRecorded p s)) := by
  have kept : (photoRecorded p s).photo.current = some p := by
    rw [photoRecorded_onlyIn p s .photo rfl]
    exact current
  rw [← photoFinish_eq kept]
  unfold photoHeaderWritten
  rw [current]
  rfl

/-! ## The job is told (R125, R138, R145) -/

section Told

variable (status : StationStatus) (cause : Option PhotoEnd)

theorem tellStationEnded_photo {a : PhotoJob} (run : s.job = some (.photo a)) :
    tellStationEnded status cause s = stationEnded status cause a s := by
  unfold tellStationEnded
  rw [run]

theorem tellStationEnded_drains (run : s.job = some (.scan j)) (ends : j.phase = .ending) (waits : j.endWait = .none) :
    tellStationEnded status cause s = beginDrain j s := by
  unfold tellStationEnded
  rw [run]
  exact if_pos ⟨ends, waits⟩

theorem tellStationEnded_others (noPhoto : ∀ a, s.job ≠ some (.photo a))
    (noWait : ∀ j, s.job = some (.scan j) → j.phase ≠ .ending ∨ j.endWait ≠ .none) :
    tellStationEnded status cause s = s := by
  unfold tellStationEnded
  split
  next a run => exact absurd run (noPhoto a)
  next j run => exact if_neg fun ⟨ends, waits⟩ => (noWait j run).elim (fun no => no ends) fun no => no waits
  next => rfl

end Told

theorem endScan_current (j : ScanJob) (s : State) : (endScan j s).photo.current = s.photo.current := by
  rw [(endScan_ends j s).stations]

theorem beginDrain_current (j : ScanJob) (s : State) : (beginDrain j s).photo.current = s.photo.current := by
  have gone : (discardQueued (clearMark s)).1.photo = s.photo :=
    (discardQueued_acts (.refl (fields [.staging, .pages]) (clearMark s)) rfl rfl).only .photo rfl
  unfold beginDrain
  split
  · exact (endScan_current _ _).trans (congrArg Photo.current gone)
  · split
    · exact endScan_current j s
    · split <;> rfl

end Sys2Proof.Machine


/-! PROOFS. A station of a PHOTO job has ended (R12, R140 to R143, R174). -/

namespace Sys2Proof.Machine

variable {s r v u z : State} {p k a : PhotoJob} {x : StationSlot} {fs : Fields} {target : Angle}

/-! ## Progress written back (R174) -/

theorem nextBlockWrite_block (s : State) : (nextBlockWrite s).reader.block = s.reader.block := by
  unfold nextBlockWrite
  split
  · rfl
  · split
    · rfl
    · split <;> rfl

theorem pushProgress_reader (fs : Fields) (s : State) : (pushProgress fs s).reader.block = s.reader.block ∧
    (pushProgress fs s).reader.writeBackLost = s.reader.writeBackLost := by
  unfold pushProgress
  split
  · exact ⟨rfl, rfl⟩
  · exact ⟨nextBlockWrite_block _, (nextBlockWrite_keeps _).2.2.2⟩

/-! ## The next station (R12, R140) -/

/-- A station that begins with the camera PRESENT moves the head or is exposed. -/
theorem beginStation_begins (present : s.camera.presence = .present) (at_ : s.photo.stations[p.index]? = some x) :
    (beginStation p s).job = some (.photo p) ∧ (beginStation p s).photo.stations = s.photo.stations ∧
    (s.turntable.state ≠ .held →
      (beginStation p s).photo = { s.photo with state := .armed } ∧ (beginStation p s).turntable.state = .slewing) ∧
    (s.photoSound → (beginStation p s).photoSound) ∧
    OnlyIn (fields [.job, .photo, .turntable, .out]) s (beginStation p s) := by
  obtain ⟨⟨offset, settle⟩, hv⟩ : ∃ y, s.cameraValues p.slot = y := ⟨_, rfl⟩
  by_cases held : HeldAt (BitVec.ofNat 22 (x.station.azimuth + offset)) s
  · obtain ⟨job, list, -, -, exposed, -, only⟩ := beginStation_held present at_ hv rfl held
    refine ⟨job, list, fun away => absurd held.1 away, fun _ q taken => ?_, only⟩
    cases exposed.fresh.symm.trans taken
    exact nofun
  · obtain ⟨job, armed, sent, only⟩ := beginStation_away present at_ hv rfl held
    refine ⟨job, by rw [armed], fun _ => ⟨armed, ?_⟩, fun sound q taken => ?_, only.widen (by decide)⟩
    · rw [sent]
    · rw [armed] at taken
      exact sound q taken

theorem StationExposed.from_tag {index : Nat} {st : Station} {line : Option Nat} {t : State} (out : t.out = s.out)
    (tag : t.tag = s.tag) (now : t.now = s.now) (h : StationExposed index st line t u) :
    StationExposed index st line s u where
  state := h.state
  sent := h.sent.trans (by rw [out])
  fresh := by
    have fresh := h.fresh
    rw [tag, now] at fresh
    exact fresh

theorem beginStation_lost (gone : s.camera.presence ≠ .present) : beginStation p s = cameraLost p s := if_pos gone

/-! ## A PHOTO job told of the end of its station (R140 to R142) -/

theorem stationCause_eq (held : Option ResultCode) {status : StationStatus} {cause : Option PhotoEnd}
    (sound : cause ≠ some .memory) : stationCause held status cause =
      match held with
      | some c => some c
      | none => if status = .fault then some .cameraFault else none := by
  unfold stationCause
  cases held with
  | some c => rfl
  | none =>
    cases status with
    | fault => exact if_neg sound
    | notReached => rfl
    | done => rfl
    | truncated => rfl
    | missed => rfl

/-- The progress write-back of a station that has ended. -/
def stationDone (a : PhotoJob) (status : StationStatus) : Fields :=
  [(0x28, leBytes 4 (a.done + 1)), (0x80 + 24 * a.index + 0x15, leBytes 1 status.code)]

/-- The job's values and its block after the write-back of a station's end. -/
def stationWritten (k a : PhotoJob) (status : StationStatus) (v : State) : State :=
  pushProgress (stationDone a status) (putPhoto k v)

theorem stationEnded_eq {status : StationStatus} {cause : Option PhotoEnd}
    (told : k = { a with done := a.done + 1, cause := stationCause a.cause status cause }) (v : State) :
    stationEnded status cause a v =
      if k.cause = none ∧ a.index + 1 < v.photo.stations.length then
        beginStation { k with index := a.index + 1 } (stationWritten k a status v)
      else endPhotoJob k
        (if k.abortTaken = true then decelerate (stationWritten k a status v) else stationWritten k a status v) := by
  subst told
  rfl

section Written

variable (k a) (status : StationStatus) (v)

theorem stationWritten_onlyIn : OnlyIn (fields [.job, .reader, .port]) v (stationWritten k a status v) :=
  (Acts.only (setJob_acts _ (.refl (fields [.job, .reader, .port]) v) rfl)).trans
    ((pushProgress_onlyIn _ (putPhoto k v)).widen (by decide))

theorem stationWritten_job : (stationWritten k a status v).job = some (.photo k) :=
  pushProgress_onlyIn (stationDone a status) (putPhoto k v) .job rfl

theorem stationWritten_wroteBack : WroteBack (stationDone a status) v (stationWritten k a status v) :=
  have wrote := pushProgress_wroteBack (stationDone a status) (putPhoto k v)
  ⟨wrote.lost, wrote.joins, wrote.issues⟩

theorem stationWritten_reader : (stationWritten k a status v).reader.block = v.reader.block ∧
    (stationWritten k a status v).reader.writeBackLost = v.reader.writeBackLost :=
  pushProgress_reader (stationDone a status) (putPhoto k v)

theorem stationWritten_tag : (stationWritten k a status v).tag = v.tag := by
  unfold State.tag
  rw [(stationWritten_reader v k a status).1]

theorem stationWritten_seals : (stationWritten k a status v).seals = v.seals := by
  unfold State.seals
  rw [(stationWritten_reader v k a status).1]

theorem stationWritten_toWrite (sound : v.reader.writeBackLost = false) :
    ToWrite (stationDone a status) (stationWritten k a status v) := pushProgress_toWrite (s := putPhoto k v) _ sound

end Written

/-! ## The end of a PHOTO job behind its write-backs (R143) -/

theorem handPhoto_toWrite (sound : s.reader.writeBackLost = false) (early : a.lateCause = false) (h : ToWrite fs s) :
    ToWrite fs (handPhoto a s) := by
  unfold handPhoto
  rw [early]
  exact handResult_toWrite sound h

/-- A PHOTO job that comes to its end in a state `z`, what is left there kept. -/
theorem endPhotoJob_ends (k : PhotoJob) (z : State) :
    (z.seals = true →
      (endPhotoJob k z).job = some (.photo { k with sealWait := true }) ∧ (endPhotoJob k z).reader = z.reader ∧
      (endPhotoJob k z).port = z.port ∧
      (endPhotoJob k z).pages.mark = some ⟨z.staging.nextSeq, if k.cause = none then .jobEnd else .abort, false⟩) ∧
    (z.seals = false → z.reader.writeBackLost = false → k.lateCause = false →
      HandsBack (photoResult k k.index z.photo.stations) (endPhotoJob k z) ∧
      (∀ fs, ToWrite fs z → ToWrite fs (endPhotoJob k z)) ∧ (endPhotoJob k z).photo.stations = []) := by
  refine ⟨fun seals => ?_, fun plain sound early => ?_⟩
  · rw [endPhotoJob_seals seals]
    exact ⟨rfl, rfl, rfl, rfl⟩
  · rw [endPhotoJob_hands plain]
    refine ⟨handPhoto_handsBack sound early, fun fs h => handPhoto_toWrite sound early h, ?_⟩
    rw [(handPhoto_keeps k z).2.2.1]

end Sys2Proof.Machine


/-! PROOFS. The completions of the photo path (R84, R86, R124 to R126, R135, R138, R140 to R145). -/

namespace Sys2Proof.Machine

variable {s r v u z : State} {p : Photograph} {k a q : PhotoJob} {y : StationSlot} {fs : Fields} {target : Angle}

/-! ## What a station's end leaves to the job (R140 to R143) -/

/-- The state `z` in which a PHOTO job has written back the end of a station, reported in state `r`. -/
structure StationWrote (k : PhotoJob) (done : Fields) (r z : State) : Prop where
  only  : OnlyIn (fields [.photo, .camera, .staging, .loss, .freeCount, .job, .reader, .port]) r z
  job   : z.job = some (.photo k)
  tag   : z.tag = r.tag
  seals : z.seals = r.seals
  lost  : z.reader.writeBackLost = r.reader.writeBackLost
  write : r.reader.writeBackLost = false → ToWrite done z
  free  : z.photo.current = none

theorem stationWritten_wrote (k a : PhotoJob) (status : StationStatus)
    (before : OnlyIn (fields [.photo, .camera, .staging, .loss, .freeCount]) r v) (free : v.photo.current = none) :
    StationWrote k (stationDone a status) r (stationWritten k a status v) := by
  have wrote := stationWritten_onlyIn v k a status
  have reader : v.reader = r.reader := before .reader rfl
  obtain ⟨-, lost⟩ := stationWritten_reader v k a status
  refine ⟨(before.widen (by decide)).trans (wrote.widen (by decide)), stationWritten_job v k a status, ?_, ?_, ?_,
    fun sound => ?_, ?_⟩
  · rw [stationWritten_tag]
    unfold State.tag
    rw [reader]
  · rw [stationWritten_seals, seals_of_reader reader]
  · rw [lost, reader]
  · exact stationWritten_toWrite v k a status (by rw [reader]; exact sound)
  · rw [wrote .photo rfl]
    exact free

section Wrote

variable (h : StationWrote k fs r z)
include h

theorem StationWrote.heldAt_iff : HeldAt target z ↔ HeldAt target r := by
  unfold HeldAt
  rw [h.only .turntable rfl, h.only .azimuth rfl]

theorem StationWrote.now : z.now = r.now := congrArg BitVec.toNat (h.only .time rfl)

/-- The next station is begun. -/
theorem StationWrote.begins (present : z.camera.presence = .present) (at_ : z.photo.stations[q.index]? = some y) :
    (beginStation q z).job = some (.photo q) ∧ (beginStation q z).reader = z.reader ∧
    (beginStation q z).port = z.port ∧ (beginStation q z).photo.stations = z.photo.stations ∧
    (r.turntable.state ≠ .held → (beginStation q z).photo.state = .armed ∧ (beginStation q z).photo.current = none ∧
      (beginStation q z).turntable.state = .slewing) ∧
    (∀ sl, r.slots.get q.slot = some sl → target = BitVec.ofNat 22 (y.station.azimuth + sl.profile.cameraOffset) →
      (¬ HeldAt target r → (beginStation q z).photo.state = .armed ∧ (beginStation q z).photo.current = none ∧
        SentTo target sl.profile.settleMs r (beginStation q z)) ∧
      (HeldAt target r → StationExposed q.index y.station none r (beginStation q z) ∧
        AnsweredAtOnce r (beginStation q z))) := by
  have turntable : z.turntable = r.turntable := h.only .turntable rfl
  have serial : z.jobSerial = r.jobSerial := h.only .jobSerial rfl
  obtain ⟨job, list, moves, -, only⟩ := beginStation_begins present at_
  refine ⟨job, only .reader rfl, only .port rfl, list, fun away => ?_, fun sl slot aim => ⟨fun away => ?_, fun held => ?_⟩⟩
  · obtain ⟨armed, slews⟩ := moves (by rw [turntable]; exact away)
    refine ⟨by rw [armed], ?_, slews⟩
    rw [armed]
    exact h.free
  all_goals have values := cameraValues_of_slot (s := z) (p := q) (by rw [h.only .slots rfl]; exact slot)
  · obtain ⟨-, armed, sent, -⟩ := beginStation_away present at_ values aim (mt h.heldAt_iff.1 away)
    refine ⟨by rw [armed], ?_, sent.from_same turntable h.now serial⟩
    rw [armed]
    exact h.free
  · obtain ⟨-, -, -, -, exposed, answered, -⟩ := beginStation_held present at_ values aim (h.heldAt_iff.2 held)
    exact ⟨exposed.from_tag (h.only .out rfl) h.tag h.now, answered.from_same turntable serial⟩

/-- With no camera PRESENT for the next station the job goes to its end. -/
theorem StationWrote.loses (sure : q.cause = none) (gone : z.camera.presence ≠ .present) :
    (beginStation q z).turntable = (decelerate r).turntable ∧ (beginStation q z).photo.current = none ∧
    (r.seals = true →
      (beginStation q z).job = some (.photo { q with cause := some .cameraFault, sealWait := true }) ∧
      (beginStation q z).reader = z.reader ∧ (beginStation q z).port = z.port ∧
      (beginStation q z).pages.mark = some ⟨z.staging.nextSeq, .abort, false⟩) ∧
    (r.seals = false → r.reader.writeBackLost = false → q.lateCause = false →
      HandsBack (photoResult { q with cause := some .cameraFault } q.index z.photo.stations) (beginStation q z) ∧
      ToWrite fs (beginStation q z)) := by
  have off := cameraOff_onlyIn z
  have photo := cameraOff_photo gone
  have reader : (cameraOff z).reader = z.reader := off .reader rfl
  have lost : beginStation q z = endPhotoJob { q with cause := some .cameraFault } (cameraOff z) := by
    rw [beginStation_lost gone, cameraLost_eq, sure]
    rfl
  obtain ⟨turntable, -, current⟩ := endPhotoJob_keeps { q with cause := some .cameraFault } (cameraOff z)
  obtain ⟨sealed_, ends⟩ := endPhotoJob_ends { q with cause := some .cameraFault } (cameraOff z)
  rw [lost]
  refine ⟨turntable.trans (decelerate_turntable (h.only .turntable rfl)), current.trans ?_, fun seals => ?_,
    fun plain sound early => ?_⟩
  · rw [photo]
    exact h.free
  · obtain ⟨job, reader', port, mark⟩ := sealed_ ((seals_of_reader reader).trans (h.seals.trans seals))
    refine ⟨job, reader'.trans reader, port.trans (off .port rfl), mark.trans ?_⟩
    rw [off .staging rfl]
    rfl
  · obtain ⟨hands, keeps, -⟩ := ends ((seals_of_reader reader).trans (h.seals.trans plain))
      ((congrArg Reader.writeBackLost reader).trans (h.lost.trans sound)) early
    rw [photo] at hands
    refine ⟨hands, keeps fs fun w mem => ?_⟩
    rw [reader, off .port rfl]
    exact h.write sound w mem

/-- After the last station, and with a failure cause, the job goes to its end. -/
theorem StationWrote.ends :
    (endPhotoJob k (if k.abortTaken = true then decelerate z else z)).turntable =
      (if k.abortTaken = true then (decelerate r).turntable else r.turntable) ∧
    (endPhotoJob k (if k.abortTaken = true then decelerate z else z)).photo.current = none ∧
    (r.seals = true →
      (endPhotoJob k (if k.abortTaken = true then decelerate z else z)).job = some (.photo { k with sealWait := true }) ∧
      (endPhotoJob k (if k.abortTaken = true then decelerate z else z)).reader = z.reader ∧
      (endPhotoJob k (if k.abortTaken = true then decelerate z else z)).port = z.port ∧
      (endPhotoJob k (if k.abortTaken = true then decelerate z else z)).pages.mark =
        some ⟨z.staging.nextSeq, if k.cause = none then .jobEnd else .abort, false⟩) ∧
    (r.seals = false → r.reader.writeBackLost = false → k.lateCause = false →
      HandsBack (photoResult k k.index z.photo.stations)
        (endPhotoJob k (if k.abortTaken = true then decelerate z else z)) ∧
      ToWrite fs (endPhotoJob k (if k.abortTaken = true then decelerate z else z)) ∧
      (endPhotoJob k (if k.abortTaken = true then decelerate z else z)).photo.stations = []) := by
  generalize ht : (if k.abortTaken = true then decelerate z else z) = t
  have only : OnlyIn (fields [.turntable]) z t := by
    rw [← ht]
    split
    · exact decelerate_onlyIn z
    · exact (Acts.refl _ z).only
  have turntable : t.turntable = if k.abortTaken = true then (decelerate r).turntable else r.turntable := by
    rw [← ht]
    split
    · exact decelerate_turntable (h.only .turntable rfl)
    · exact h.only .turntable rfl
  have reader : t.reader = z.reader := only .reader rfl
  obtain ⟨turntable', -, current⟩ := endPhotoJob_keeps k t
  obtain ⟨sealed_, ends⟩ := endPhotoJob_ends k t
  refine ⟨turntable'.trans turntable, current.trans ?_, fun seals => ?_, fun plain sound early => ?_⟩
  · rw [only .photo rfl]
    exact h.free
  · obtain ⟨job, reader', port, mark⟩ := sealed_ ((seals_of_reader reader).trans (h.seals.trans seals))
    refine ⟨job, reader'.trans reader, port.trans (only .port rfl), mark.trans ?_⟩
    rw [only .staging rfl]
  · obtain ⟨hands, keeps, free⟩ := ends ((seals_of_reader reader).trans (h.seals.trans plain))
      ((congrArg Reader.writeBackLost reader).trans (h.lost.trans sound)) early
    rw [only .photo rfl] at hands
    refine ⟨hands, keeps fs fun w mem => ?_, free⟩
    rw [reader, only .port rfl]
    exact h.write sound w mem

end Wrote

end Sys2Proof.Machine


/-! PROOFS. A photograph's writes complete (R84, R86, R124 to R126, R135, R138, R140 to R145). -/

namespace Sys2Proof.Machine

variable {s r v u z : State} {p : Photograph} {k a q : PhotoJob} {status : StationStatus} {cause : Option PhotoEnd}

theorem setStatus_length (i : Nat) (status : StationStatus) (l : List StationSlot) :
    (setStatus i status l).length = l.length := List.length_modify ..

/-- The photo machine is at rest in state `v`, its photograph over since state `r`. -/
structure PhotoAtRest (r v : State) : Prop where
  only : OnlyIn (fields [.photo, .camera, .staging, .loss, .freeCount]) r v
  free : v.photo.current = none

section AtRest

variable (h : PhotoAtRest r v) (sound : cause ≠ some .memory) (run : v.job = some (.photo a))
  (told : k = { a with
    done := a.done + 1,
    cause := (match a.cause with
      | some c => some c
      | none => if status = .fault then some .cameraFault else none) })
include h sound run told

theorem PhotoAtRest.tells : StationWrote k (stationDone a status) r (stationWritten k a status v) ∧
    tellStationEnded status cause v = stationEnded status cause a v ∧
    k = { a with done := a.done + 1, cause := stationCause a.cause status cause } :=
  ⟨stationWritten_wrote k a status h.only h.free, tellStationEnded_photo status cause run,
    told.trans (congrArg (fun c => ({ a with done := a.done + 1, cause := c } : PhotoJob)) (stationCause_eq a.cause sound).symm)⟩

theorem PhotoAtRest.goesOn (sure : k.cause = none) (more : a.index + 1 < v.photo.stations.length) :
    tellStationEnded status cause v = beginStation { k with index := a.index + 1 } (stationWritten k a status v) := by
  obtain ⟨-, tells, told⟩ := h.tells sound run told
  rw [tells, stationEnded_eq told, if_pos ⟨sure, more⟩]

theorem PhotoAtRest.ends (last : k.cause ≠ none ∨ v.photo.stations.length ≤ a.index + 1) :
    tellStationEnded status cause v = endPhotoJob k
      (if k.abortTaken = true then decelerate (stationWritten k a status v) else stationWritten k a status v) := by
  obtain ⟨-, tells, told⟩ := h.tells sound run told
  rw [tells, stationEnded_eq told, if_neg]
  rintro ⟨sure, more⟩
  exact last.elim (fun no => no sure) fun few => Nat.not_le.2 more few

end AtRest

theorem endStatus_cases (p : Photograph) : (p.endCause = none → endStatus p.endCause = .done) ∧
    (p.endCause = some .camera → endStatus p.endCause = .fault) ∧
    (p.endCause = some .overrun ∨ p.endCause = some .shortBuffer ∨ p.endCause = some .abort →
      endStatus p.endCause = .truncated) := by
  refine ⟨fun h => by rw [h]; rfl, fun h => by rw [h]; rfl, ?_⟩
  rintro (h | h | h) <;> rw [h] <;> rfl

theorem stationWritten_at (k a : PhotoJob) (status : StationStatus) {i : Nat} (more : i < v.photo.stations.length) :
    ∃ y, (stationWritten k a status v).photo.stations[i]? = some y := by
  rw [stationWritten_onlyIn v k a status .photo rfl]
  exact ⟨_, List.getElem?_eq_getElem more⟩

/-- The photograph's end leaves no photograph with a memory fault in hand. -/
theorem tellStationEnded_photoSound (h : PhotoAtRest r v) (sound : cause ≠ some .memory) :
    (tellStationEnded status cause v).photoSound := by
  by_cases photo : ∃ a, v.job = some (.photo a)
  · obtain ⟨a, run⟩ := photo
    obtain ⟨k, hk⟩ : ∃ k : PhotoJob, k = { a with
      done := a.done + 1,
      cause := (match a.cause with
        | some c => some c
        | none => if status = .fault then some .cameraFault else none) } := ⟨_, rfl⟩
    obtain ⟨wrote, -, -⟩ := h.tells sound run hk
    by_cases more : k.cause = none ∧ a.index + 1 < v.photo.stations.length
    · rw [h.goesOn sound run hk more.1 more.2]
      by_cases present : (stationWritten k a status v).camera.presence = .present
      · obtain ⟨y, at_⟩ := stationWritten_at k a status more.2
        obtain ⟨-, -, -, kept, -⟩ := beginStation_begins (p := { k with index := a.index + 1 }) present at_
        exact kept (photoSound_of_none wrote.free)
      · exact photoSound_of_none (wrote.loses (q := { k with index := a.index + 1 }) more.1 present).2.1
    · rw [h.ends sound run hk ((Decidable.not_and_iff_not_or_not.1 more).imp_right Nat.le_of_not_lt)]
      exact photoSound_of_none wrote.ends.2.1
  · by_cases scan : ∃ j, v.job = some (.scan j) ∧ j.phase = .ending ∧ j.endWait = .none
    · obtain ⟨j, run, ends, waits⟩ := scan
      rw [tellStationEnded_drains status cause run ends waits]
      exact photoSound_of_none ((beginDrain_current j v).trans h.free)
    · rw [tellStationEnded_others status cause (fun a run => photo ⟨a, run⟩) fun j run =>
        Decidable.not_and_iff_not_or_not.1 fun both => scan ⟨j, run, both⟩]
      exact photoSound_of_none h.free

/-- The photograph of a header write that has completed is over. -/
theorem photoOver_atRest (p : Photograph) (r : State) : PhotoAtRest r (photoOver p (photoRecorded p r)) where
  only := ((photoRecorded_onlyIn p r).widen (by decide)).trans ((photoOver_onlyIn p _).widen (by decide))
  free := congrArg Photo.current (photoOver_photo p (photoRecorded p r) _ rfl).1

/-- Settles O59. -/
theorem photoWritesComplete : Obligations.PhotoWritesComplete := by
  unfold Obligations.PhotoWritesComplete
  rintro m s r x rest p awaits who after current sound
  have photo : r.photo = s.photo := by rw [after, reported_photo]
  have camera : r.camera = s.camera := by rw [after, reported_camera]
  have staging : r.staging = s.staging := by rw [after, reported_staging]
  have loss : r.loss = s.loss := by rw [after, reported_loss]
  have serial : r.jobSerial = s.jobSerial := by rw [after, reported_jobSerial]
  have job : r.job = s.job := by rw [after, reported_job]
  have seals : r.seals = s.seals := by rw [after, reported_seals]
  have reader : r.reader = s.reader := by rw [after, reported_reader]
  have turntable : r.turntable = s.turntable := by rw [after, reported_turntable]
  have slots : r.slots = s.slots := by rw [after, reported_slots]
  have occupancy : r.occupancy = s.occupancy := by
    unfold State.occupancy
    rw [staging]
  rw [← photo] at current
  rw [← photo, ← camera, ← staging, ← loss, ← serial, ← job, ← seals, ← reader, ← turntable, ← slots, ← occupancy]
  have still : r.photoSound := fun q same => by
    cases current.symm.trans same
    exact sound
  refine ⟨fun purpose => ?_, fun purpose => ?_, fun status present purpose hstatus hpresent => ?_⟩
  · rw [exec_rowWrite awaits who after purpose, if_neg (by decide), photoDrained_of_sound still]
  · have stored := rowStored_eq current
    rw [exec_rowWrite awaits who after purpose, if_pos rfl, stored, photoDrained_of_sound]
    refine photoProgress_sound fun q same => ?_
    cases same
    exact sound
  subst hstatus
  have rests := photoOver_atRest p r
  obtain ⟨fine, fault, cut⟩ := endStatus_cases p
  have recorded := photoRecorded_onlyIn p r
  have over_ := photoOver_onlyIn p (photoRecorded p r)
  obtain ⟨atRest, lens⟩ := photoOver_photo p (photoRecorded p r) present (by
    rw [recorded .camera rfl]
    exact hpresent)
  obtain ⟨kept, checks⟩ := photoOver_camera p (photoRecorded p r)
  rw [recorded .photo rfl] at atRest
  rw [recorded .camera rfl] at kept checks
  have stagingV : (photoOver p (photoRecorded p r)).staging = (photoRecorded p r).staging := over_ .staging rfl
  have lossV : (photoOver p (photoRecorded p r)).loss = (photoRecorded p r).loss := over_ .loss rfl
  have event := exec_headerWrite awaits who after purpose
  rw [photoHeaderWritten_eq current, photoDrained_of_sound (tellStationEnded_photoSound rests sound)] at event
  refine ⟨photoOver p (photoRecorded p r), _, event, atRest, kept, checks, fine, fault, cut, fun bad => ?_,
    fun good room => ?_, fun good full => ?_, rests.only, fun noPhoto noWait => ?_, fun j run ends waits => ?_, ?_⟩
  · rw [stagingV, lossV, photoRecorded_fault bad]
    exact ⟨rfl, rfl⟩
  · obtain ⟨zero, entries⟩ := photoRecorded_admitted good room
    rw [stagingV, lossV]
    refine ⟨zero, photoRecord p r, entries, rfl, rfl, rfl, rfl, rfl, rfl, rfl, rfl, rfl, fun a sampled => ?_⟩
    show midAzimuthOf p r = a.toNat
    unfold midAzimuthOf
    rw [sampled]
  · rw [stagingV, lossV]
    exact photoRecorded_refused good full
  · refine tellStationEnded_others _ _ ?_ ?_
    all_goals rw [rests.only .job rfl]
    · exact noPhoto
    · exact noWait
  · rw [tellStationEnded_drains _ _ ((rests.only .job rfl).trans run) ends waits]
    exact beginDrain_drains j _
  · generalize photoOver p (photoRecorded p r) = v at rests atRest lens ⊢
    intro a k done run hk hdone
    rw [← rests.only .job rfl] at run
    obtain ⟨wrote, -, -⟩ := rests.tells sound run hk
    have list : (stationWritten k a (endStatus p.endCause) v).photo.stations =
        setStatus p.station (endStatus p.endCause) r.photo.stations := by
      rw [stationWritten_onlyIn v k a _ .photo rfl, atRest]
    have length : v.photo.stations.length = r.photo.stations.length := by
      rw [atRest]
      exact setStatus_length ..
    have cameraZ : (stationWritten k a (endStatus p.endCause) v).camera = v.camera :=
      stationWritten_onlyIn v k a _ .camera rfl
    have stagingZ : (stationWritten k a (endStatus p.endCause) v).staging = v.staging :=
      stationWritten_onlyIn v k a _ .staging rfl
    have wroteBack := stationWritten_wroteBack v k a (endStatus p.endCause)
    have onlyZ := stationWritten_onlyIn v k a (endStatus p.endCause)
    have hand : done = stationDone a (endStatus p.endCause) := hdone
    subst hand
    have index : k.index = a.index := by rw [hk]
    have taken : k.abortTaken = a.abortTaken := by rw [hk]
    have late : k.lateCause = a.lateCause := by rw [hk]
    have slot : k.slot = a.slot := by rw [hk]
    rw [← length]
    refine ⟨_, wroteBack, onlyZ, wrote.job, fun sure more here => ?_, fun sure more gone => ?_, fun last => ?_⟩
    · obtain ⟨y, at_⟩ := stationWritten_at k a (endStatus p.endCause) more
      have moves (y : StationSlot) (target : Angle) (at_ : (stationWritten k a (endStatus p.endCause) v).photo.stations[
          a.index + 1]? = some y) :=
        wrote.begins (q := { k with index := a.index + 1 }) (target := target)
          ((congrArg Camera.presence cameraZ).trans (lens.2 here)) at_
      rw [rests.goesOn sound run hk sure more]
      obtain ⟨job, reader, port, stations, away, -⟩ := moves y 0 at_
      refine ⟨job, reader, port, stations.trans list, away, fun sl y target slotHere at_ aim => ?_⟩
      rw [← list] at at_
      obtain ⟨-, -, -, -, -, goes⟩ := moves y target at_
      exact goes sl (by rw [slot]; exact slotHere) aim
    · have absent : (stationWritten k a (endStatus p.endCause) v).camera.presence ≠ .present := by
        rw [cameraZ]
        exact fun yes => by rw [lens.1 yes] at gone; cases gone
      obtain ⟨decelerates, -, sealed_, ends⟩ := wrote.loses (q := { k with index := a.index + 1 }) sure absent
      rw [rests.goesOn sound run hk sure more]
      rw [stagingZ] at sealed_
      rw [list] at ends
      exact ⟨decelerates, sealed_, fun plain kept early => ends plain kept (late.trans early)⟩
    · obtain ⟨turns, free, sealed_, ends⟩ := wrote.ends
      rw [rests.ends sound run hk last]
      rw [stagingZ] at sealed_
      rw [list] at ends
      rw [taken] at turns sealed_ free ends ⊢
      rw [index] at ends
      exact ⟨turns, free, sealed_, fun plain kept early => ends plain kept (late.trans early)⟩

end Sys2Proof.Machine


/-! PROOFS. Errors, timeouts and early answers at their transfers (R165, R167, R168). -/

namespace Sys2Proof.Machine

variable {s b t : State} {q : Requester} {place : Nat} {o : Outstanding} {x : Port} {timeout : Bool}
  {rest : List Outstanding} {data : List Byte} {id : Nat} {c : Instr} {m : Moment}

/-! ## The place of a transfer (R167, R170) -/

theorem placeOf_first (at_ : (x.outOf q)[place]? = some o)
    (first : ∀ k y, k < place → (x.outOf q)[k]? = some y → y.id ≠ o.id) : x.placeOf q o.id = some place := by
  obtain ⟨inside, here⟩ := List.getElem?_eq_some_iff.1 at_
  refine List.findIdx?_eq_some_iff_getElem.2 ⟨inside, ?_, fun k lower => ?_⟩
  · rw [here]
    exact decide_eq_true rfl
  · exact fun same => first k _ lower (List.getElem?_eq_getElem _) (of_decide_eq_true same)

theorem placeOf_none (gone : ∀ y ∈ x.outOf q, y.id ≠ id) : x.placeOf q id = none :=
  List.findIdx?_eq_none_iff.2 fun y mem => decide_eq_false (gone y mem)

theorem awaitsAt_awaited (at_ : (x.outOf q)[place]? = some o) (awaits : o.answer = .awaited) :
    x.awaitsAt q place = some o := by
  unfold Port.awaitsAt
  rw [at_]
  exact if_pos awaits

theorem awaitsAt_answered (at_ : (x.outOf q)[place]? = some o) (told : o.answer ≠ .awaited) :
    x.awaitsAt q place = none := by
  unfold Port.awaitsAt
  rw [at_]
  exact if_neg told

theorem atTransfer_at {act : Nat → State → State} (here : s.port.placeOf q id = some place) :
    atTransfer q id act s = act place s := by
  unfold atTransfer
  rw [here]

theorem atTransfer_gone {act : Nat → State → State} (gone : s.port.placeOf q id = none) :
    atTransfer q id act s = s := by
  unfold atTransfer
  rw [gone]

/-! ## What an answer does at its place -/

theorem errsAt_awaited (awaits : s.port.awaitsAt q place = some o) : errsAt q place s = faultAt q place false o s := by
  unfold errsAt
  rw [awaits]

theorem errsAt_none (told : s.port.awaitsAt q place = none) : errsAt q place s = s := by
  unfold errsAt
  rw [told]

theorem timesOutAt_due {e : Nat} (awaits : s.port.awaitsAt q place = some o) (timer : o.timeout = some e) (due : e ≤ s.now) :
    timesOutAt q place s = faultAt q place true o s := by
  unfold timesOutAt
  rw [awaits]
  dsimp only
  rw [timer, if_pos (ended_of_le due)]

theorem timesOutAt_waits (awaits : s.port.awaitsAt q place = some o)
    (waits : o.timeout = none ∨ ∃ e, o.timeout = some e ∧ s.now < e) : timesOutAt q place s = s := by
  unfold timesOutAt
  rw [awaits]
  dsimp only
  rw [not_ended waits]
  rfl

theorem timesOutAt_none (told : s.port.awaitsAt q place = none) : timesOutAt q place s = s := by
  unfold timesOutAt
  rw [told]

theorem holdAt_behind (awaits : s.port.awaitsAt q place = some o) (behind : 1 ≤ place) :
    holdAt q place data s = landed o.transfer (s.setPort (s.port.answerAt q place (.held data))) := by
  unfold holdAt
  rw [awaits]
  exact if_neg (by omega)

theorem holdAt_none (told : s.port.awaitsAt q place = none) : holdAt q place data s = s := by
  unfold holdAt
  rw [told]

theorem modify_eq_set {α : Type} {l : List α} {n : Nat} {y : α} {f : α → α} (at_ : l[n]? = some y) :
    l.modify n f = l.set n (f y) := by
  induction l generalizing n with
  | nil => cases at_
  | cons z l ih =>
    cases n with
    | zero =>
      cases at_
      rfl
    | succ n => exact congrArg (List.cons z) (ih at_)

theorem answerAt_set (at_ : (x.outOf q)[place]? = some o) (a : Answer) :
    x.answerAt q place a = x.setOut q ((x.outOf q).set place ⟨o.id, o.transfer, none, a⟩) := by
  unfold Port.answerAt
  rw [modify_eq_set at_]

/-- A completion under another number than the oldest transfer's is none. -/
theorem completeOldest_unnamed {which : Purpose → Bool}
    (other : ∀ y, (s.port.outOf q).head? = some y → y.id ≠ id) : completeOldest q id which data s = s := by
  unfold completeOldest
  split
  next o awaits =>
    refine if_neg fun named => other o ?_ named.1
    unfold Port.awaitsAt at awaits
    rw [List.head?_eq_getElem?]
    split at awaits
    next y at_ =>
      split at awaits
      · cases awaits
        exact at_
      · cases awaits
    next => cases awaits
  next => rfl

/-! ## A fault is latched (R168) -/

/-- The fault of the transfer at a place is latched, before anything is reported. -/
def faultLatched (q : Requester) (place : Nat) (timeout : Bool) (o : Outstanding) (s : State) : State :=
  latchFault o.transfer timeout (s.setPort (s.port.answerAt q place .faulted))

theorem faultAt_eq : faultAt q place timeout o s = settle q (faultLatched q place timeout o s) := rfl

theorem faultLatched_latches (q : Requester) (place : Nat) (timeout : Bool) (o : Outstanding) (s : State) :
    (faultLatched q place timeout o s).port.fault =
      ⟨some o.transfer.requester, o.transfer.write, timeout, o.transfer.addr⟩ ∧
    (faultLatched q place timeout o s).notices.pending = s.notices.pending ||| 32 ∧
    OnlyIn (fields [.port, .notices]) s (faultLatched q place timeout o s) :=
  ⟨rfl, raise_pending .fault _, ((setPort_onlyIn _ s).widen (by decide)).trans
    (((setPort_onlyIn _ _).widen (by decide)).trans (Acts.only (by apply_rules [raise_acts, Acts.refl])))⟩

theorem faultLatched_outOf (at_ : (s.port.outOf q)[place]? = some o) :
    (faultLatched q place timeout o s).port.outOf q = (s.port.outOf q).set place ⟨o.id, o.transfer, none, .faulted⟩ := by
  have port : (faultLatched q place timeout o s).port.outOf q = (s.port.answerAt q place .faulted).outOf q := by
    cases q <;> rfl
  rw [port, answerAt_set at_, outOf_setOut, if_pos rfl]

theorem setOut_fault (x : Port) (q : Requester) (l : List Outstanding) : (x.setOut q l).fault = x.fault := by
  cases q <;> rfl

/-- Nothing reported changes the FAULT register, or clears a cause. -/
theorem reportAnswered_latched (q : Requester) (n : Nat) (s : State) :
    (reportAnswered q n s).port.fault = s.port.fault ∧
    s.notices.pending &&& (reportAnswered q n s).notices.pending = s.notices.pending := by
  induction n generalizing s with
  | zero => exact ⟨rfl, BitVec.and_self⟩
  | succ n ih =>
    have told (tr : Transfer) (a : Answer) (l : List Outstanding) :
        (reportOutcome tr a (s.setPort (s.port.setOut q l))).port.fault = s.port.fault ∧
        s.notices.pending &&& (reportOutcome tr a (s.setPort (s.port.setOut q l))).notices.pending = s.notices.pending := by
      have acts : Acts (fun _ => true) (s.setPort (s.port.setOut q l)) (reportOutcome tr a (s.setPort (s.port.setOut q l))) := by
        with_reducible apply reportOutcome_acts <;> first | exact Acts.refl _ _ | rfl
      exact ⟨acts.faultReg.trans (setOut_fault ..), acts.causes⟩
    have next (tr : Transfer) (a : Answer) (l : List Outstanding) :=
      ih (reportOutcome tr a (s.setPort (s.port.setOut q l)))
    unfold reportAnswered
    split
    · exact ⟨rfl, BitVec.and_self⟩
    · split
      · exact ⟨rfl, BitVec.and_self⟩
      all_goals exact ⟨(next _ _ _).1.trans (told _ _ _).1, causes_trans (told _ _ _).2 (next _ _ _).2⟩

theorem settle_latched (q : Requester) (s : State) : (settle q s).port.fault = s.port.fault ∧
    s.notices.pending &&& (settle q s).notices.pending = s.notices.pending := by
  obtain ⟨fault, causes⟩ := reportAnswered_latched q (s.port.outOf q).length s
  have acts : Acts (fun _ => true) (reportAnswered q (s.port.outOf q).length s) (settle q s) := by
    unfold settle
    apply advancePages_acts <;> first | exact Acts.refl _ _ | rfl
  exact ⟨acts.faultReg.trans fault, causes_trans causes acts.causes⟩

/-- A bit raised stays where no cause is cleared. -/
theorem bit_stays {x y z : BitVec 8} (kept : (x ||| y) &&& z = x ||| y) : z &&& y = y := by
  have inside : y &&& (x ||| y) = y := by
    ext i
    rw [BitVec.getElem_and, BitVec.getElem_or]
    cases x[i] <;> cases y[i] <;> rfl
  calc z &&& y = (y &&& (x ||| y)) &&& z := by rw [inside, BitVec.and_comm]
    _ = y &&& ((x ||| y) &&& z) := BitVec.and_assoc ..
    _ = y := by rw [kept, inside]

/-! ## A fault behind an earlier transfer (R165) -/

theorem faultAt_behind (at_ : (s.port.outOf q)[place]? = some o) (behind : 1 ≤ place) (quiet : OldestUnanswered s) :
    faultAt q place timeout o s = advancePages (faultLatched q place timeout o s) := by
  rw [faultAt_eq]
  unfold settle
  rw [reportAnswered_stops]
  intro y more out
  rw [faultLatched_outOf at_] at out
  obtain ⟨n, rfl⟩ := Nat.exists_eq_add_of_le' behind
  cases all : s.port.outOf q with
  | nil => rw [all] at at_; cases at_
  | cons z zs =>
    rw [all] at out
    have head : z = y := (List.cons.inj out).1
    rw [← head]
    exact quiet q z zs all

/-! ## A fault of the oldest transfer (R165, R169) -/

/-- The state in which the fault of the oldest transfer is reported: latched, the transfer no longer outstanding. -/
def faultLeft (q : Requester) (timeout : Bool) (o : Outstanding) (rest : List Outstanding) (s : State) : State :=
  (faultLatched q 0 timeout o s).setPort ((faultLatched q 0 timeout o s).port.setOut q rest)

theorem faultLeft_onlyIn (q : Requester) (timeout : Bool) (o : Outstanding) (rest : List Outstanding) (s : State) :
    OnlyIn (fields [.port, .notices]) s (faultLeft q timeout o rest s) :=
  (faultLatched_latches q 0 timeout o s).2.2.trans ((setPort_onlyIn _ _).widen (by decide))

theorem faultLeft_pending (q : Requester) (timeout : Bool) (o : Outstanding) (rest : List Outstanding) (s : State) :
    (faultLeft q timeout o rest s).notices.pending = s.notices.pending ||| 32 := raise_pending .fault _

theorem faultLeft_port (q : Requester) (timeout : Bool) (o : Outstanding) (rest : List Outstanding) (s : State) :
    (faultLeft q timeout o rest s).port.outOf q = rest ∧
    (faultLeft q timeout o rest s).port.recordWait = s.port.recordWait ∧
    (faultLeft q timeout o rest s).port.photoWait = s.port.photoWait := by
  refine ⟨?_, ?_, ?_⟩
  · unfold faultLeft
    show ((faultLatched q 0 timeout o s).port.setOut q rest).outOf q = rest
    rw [outOf_setOut, if_pos rfl]
  all_goals cases q <;> rfl

/-- The oldest transfer of a requester faults, none behind it answered: its requester is told. -/
theorem faultAt_oldest (who : o.transfer.requester = q) (awaits : OldestAwaits o.id s o.transfer rest) :
    faultAt q 0 timeout o s =
      advancePages (requesterDrained q (faulted o.transfer.purpose (faultLeft q timeout o rest s))) := by
  obtain ⟨⟨till, out⟩, live, unanswered⟩ := awaits
  rw [who] at out
  have latched : (faultLatched q 0 timeout o s).port.outOf q = ⟨o.id, o.transfer, none, .faulted⟩ :: rest := by
    have port : (faultLatched q 0 timeout o s).port.outOf q = (s.port.answerAt q 0 .faulted).outOf q := by
      cases q <;> rfl
    rw [port, answerAt_set (o := ⟨o.id, o.transfer, till, .awaited⟩) (by rw [out]; rfl), outOf_setOut, if_pos rfl, out]
    rfl
  have told : reportOutcome o.transfer .faulted (faultLeft q timeout o rest s) =
      requesterDrained q (faulted o.transfer.purpose (faultLeft q timeout o rest s)) := by
    unfold reportOutcome
    dsimp only
    rw [if_pos live, who]
  have more := reportOutcome_answers o.transfer .faulted (faultLeft q timeout o rest s) q
  rw [told, (faultLeft_port q timeout o rest s).1] at more
  rw [faultAt_eq]
  unfold settle
  rw [latched, List.length_cons]
  congr 1
  unfold reportAnswered
  rw [latched]
  dsimp only
  rw [show (faultLatched q 0 timeout o s).setPort _ = faultLeft q timeout o rest s from rfl, told]
  apply reportAnswered_stops
  intro y ys same
  rw [same] at more
  cases rest with
  | nil => cases more
  | cons z zs =>
    have marks : y.mark = z.mark := (List.cons.inj more).1
    rw [show y.answer = z.answer from congrArg Prod.snd marks]
    exact unanswered z List.mem_cons_self

end Sys2Proof.Machine


/-! PROOFS. What an outcome told to the running job leaves of the waiting data transfers and of the current page. -/

namespace Sys2Proof.Machine

variable {s t u : State} {j : ScanJob} {a : PhotoJob} {r : JobResult}

/-- The data transfers that wait are those of before, and of the pages only marks and the line discarded have moved. -/
structure LeavesWaiting (s u : State) : Prop where
  record : u.port.recordWait.map (·.requester) = s.port.recordWait.map (·.requester)
  photo  : u.port.photoWait.map (·.requester) = s.port.photoWait.map (·.requester)
  pages  : ∃ mark drain discarding, u.pages = { s.pages with mark := mark, drain := drain, discarding := discarding }

namespace LeavesWaiting

theorem refl (s : State) : LeavesWaiting s s := ⟨rfl, rfl, _, _, _, rfl⟩

theorem trans (h : LeavesWaiting s t) (g : LeavesWaiting t u) : LeavesWaiting s u := by
  obtain ⟨mark, drain, discarding, pages⟩ := g.pages
  obtain ⟨_, _, _, before⟩ := h.pages
  exact ⟨g.record.trans h.record, g.photo.trans h.photo, mark, drain, discarding, by rw [pages, before]⟩

/-- An operation that moves neither the port nor the pages leaves them. -/
theorem of_same (port : t.port = s.port) (pages : t.pages = s.pages) : LeavesWaiting s t := by
  refine ⟨?_, ?_, _, _, _, pages⟩ <;> rw [port]

/-- What follows an operation that moves neither the port nor the pages. -/
theorem past (h : LeavesWaiting t u) (port : t.port = s.port) (pages : t.pages = s.pages) : LeavesWaiting s u :=
  (of_same port pages).trans h

theorem ignored {which : Transfer → Bool} (port : t.port = s.port.ignore which) (pages : t.pages = s.pages) :
    LeavesWaiting s t := by
  have same (l : List Transfer) : (l.map (·.ignoreIf which)).map (·.requester) = l.map (·.requester) := by
    rw [List.map_map]
    refine List.map_congr_left fun x _ => ?_
    show (if which x = true then _ else x).requester = x.requester
    split <;> rfl
  refine ⟨?_, ?_, _, _, _, pages⟩
  all_goals rw [port]
  · exact same _
  · exact same _

end LeavesWaiting

/-- Nor is a notice raised, while no write-back is lost. -/
structure LeavesData (s u : State) : Prop extends LeavesWaiting s u where
  quiet : s.reader.writeBackLost = false → u.notices = s.notices ∧ u.reader.writeBackLost = false

namespace LeavesData

theorem refl (s : State) : LeavesData s s := ⟨.refl s, fun sound => ⟨rfl, sound⟩⟩

theorem trans (h : LeavesData s t) (g : LeavesData t u) : LeavesData s u :=
  ⟨h.toLeavesWaiting.trans g.toLeavesWaiting, fun sound =>
    ⟨(g.quiet (h.quiet sound).2).1.trans (h.quiet sound).1, (g.quiet (h.quiet sound).2).2⟩⟩

/-- An operation that moves none of port, pages and notices leaves them. -/
theorem of_same (port : t.port = s.port) (pages : t.pages = s.pages) (notices : t.notices = s.notices)
    (lost : t.reader.writeBackLost = s.reader.writeBackLost) : LeavesData s t :=
  ⟨.of_same port pages, fun sound => ⟨notices, lost.trans sound⟩⟩

/-- What follows an operation that moves none of port, pages and notices. -/
theorem past (h : LeavesData t u) (port : t.port = s.port) (pages : t.pages = s.pages) (notices : t.notices = s.notices)
    (lost : t.reader.writeBackLost = s.reader.writeBackLost) : LeavesData s u :=
  (of_same port pages notices lost).trans h

/-- An operation that moves other fields leaves them. -/
theorem of_onlyIn {l : List Field} (only : OnlyIn (fields l) s t)
    (beside : [Field.port, .pages, .notices, .reader].all (fun f => !fields l f) = true) : LeavesData s t := by
  simp only [List.all_cons, List.all_nil, Bool.and_true, Bool.and_eq_true, Bool.not_eq_true'] at beside
  obtain ⟨port, pages, notices, reader⟩ := beside
  exact of_same (only .port port) (only .pages pages) (only .notices notices)
    (congrArg Reader.writeBackLost (only .reader reader))

end LeavesData

/-! ## Block writes, results and ends of jobs -/

theorem nextBlockWrite_leaves (s : State) : LeavesWaiting s (nextBlockWrite s) := by
  unfold nextBlockWrite
  split
  · exact .refl s
  · split
    · exact ⟨rfl, rfl, _, _, _, rfl⟩
    · split
      · exact ⟨rfl, rfl, _, _, _, rfl⟩
      · exact .refl s

theorem pushProgress_leaves (fs : Fields) (s : State) : LeavesData s (pushProgress fs s) := by
  refine ⟨?_, fun sound => ⟨pushProgress_onlyIn fs s .notices rfl, (pushProgress_reader fs s).2.trans sound⟩⟩
  unfold pushProgress
  split
  · exact .refl s
  · exact (nextBlockWrite_leaves _).past rfl rfl

theorem enterHalted_leaves (c : HaltCause) (s : State) : LeavesWaiting s (enterHalted c s) :=
  .ignored (enterHalted_halts c s).2.1 ((enterHalted_halts c s).2.2.2 .pages rfl)

theorem haltOnLoss_leaves (s : State) : LeavesWaiting s (haltOnLoss s) :=
  (enterHalted_leaves .writeBackLost _).past rfl rfl

theorem handResult_lost (r : JobResult) (sound : s.reader.writeBackLost = false) :
    (handResult r s).reader.writeBackLost = false := by
  unfold handResult
  dsimp only
  rw [if_neg (by rw [sound]; decide)]
  exact (nextBlockWrite_keeps _).2.2.2.trans sound

theorem handResult_leaves (r : JobResult) (s : State) : LeavesData s (handResult r s) := by
  refine ⟨?_, fun sound => ⟨handResult_onlyIn sound .notices rfl, handResult_lost r sound⟩⟩
  unfold handResult
  dsimp only
  split
  · exact (haltOnLoss_leaves _).past rfl rfl
  · exact (nextBlockWrite_leaves _).past rfl rfl

theorem placeMark_leaves (reason : SealReason) (s : State) : LeavesData s (placeMark reason s) :=
  ⟨⟨rfl, rfl, some ⟨s.staging.nextSeq, reason, false⟩, s.pages.drain, s.pages.discarding, rfl⟩, fun sound => ⟨rfl, sound⟩⟩

theorem placeDrain_leaves (s : State) : LeavesData s (placeDrain s) :=
  ⟨⟨rfl, rfl, s.pages.mark, some s.staging.nextSeq, s.pages.discarding, rfl⟩, fun sound => ⟨rfl, sound⟩⟩

theorem clearMark_leaves (s : State) : LeavesData s (clearMark s) :=
  ⟨⟨rfl, rfl, none, none, s.pages.discarding, rfl⟩, fun sound => ⟨rfl, sound⟩⟩

theorem decelerate_leaves (s : State) : LeavesData s (decelerate s) :=
  .of_onlyIn (decelerate_onlyIn s) (by decide)

theorem endScan_leaves (j : ScanJob) (s : State) : LeavesData s (endScan j s) :=
  (decelerate_leaves s).trans ((handResult_leaves _ (releaseStations (decelerate s))).past rfl rfl rfl rfl)

theorem handPhoto_leaves (a : PhotoJob) (s : State) : LeavesData s (handPhoto a s) := by
  have spent : LeavesData s (if a.lateCause then s.spendFree else s) := by
    split
    · exact .of_same rfl rfl rfl rfl
    · exact .refl s
  exact spent.trans ((handResult_leaves _ (releaseStations (if a.lateCause then s.spendFree else s))).past rfl rfl rfl rfl)

theorem endPhotoJob_leaves (a : PhotoJob) (s : State) : LeavesData s (endPhotoJob a s) := by
  unfold endPhotoJob
  split
  · exact (placeMark_leaves _ _).past rfl rfl rfl rfl
  · exact handPhoto_leaves a s

theorem failPre_leaves (c : ResultCode) (j : ScanJob) (s : State) : LeavesData s (failPre c j s) := by
  refine (decelerate_leaves s).trans ?_
  unfold failPre
  dsimp only
  split
  · exact (placeMark_leaves _ _).past rfl rfl rfl rfl
  · exact endScan_leaves _ _

/-! ## The end of SCANNING (R122, R124 to R126) -/

theorem discardQueued_leaves (s : State) : LeavesData s (discardQueued s).1 := by
  unfold discardQueued
  exact ⟨⟨rfl, rfl, s.pages.mark, s.pages.drain, _, rfl⟩, fun sound => ⟨rfl, sound⟩⟩

theorem discardScan_leaves (j : ScanJob) (s : State) : LeavesData s (discardScan j s) :=
  (clearMark_leaves s).trans ((discardQueued_leaves (clearMark s)).trans (endScan_leaves _ _))

theorem beginDrain_leaves (j : ScanJob) (s : State) : LeavesData s (beginDrain j s) := by
  unfold beginDrain
  split
  · exact discardScan_leaves j s
  · split
    · exact endScan_leaves j s
    · split
      · exact (placeMark_leaves _ _).past rfl rfl rfl rfl
      · exact (placeDrain_leaves _).past rfl rfl rfl rfl

theorem enterEnding_leavesData (j : ScanJob) (s : State) : LeavesData s (enterEnding j s) := by
  unfold enterEnding
  dsimp only
  split
  · exact .of_same rfl rfl rfl rfl
  · exact (beginDrain_leaves _ _).past rfl rfl rfl rfl

theorem scanLineClosed_leaves (x : LineReport) (s : State) : LeavesData s (scanLineClosed x s) := by
  unfold scanLineClosed
  split
  next j _ =>
    have told : LeavesData s (pushProgress (closeFields (j.lineClosed x) s.sched.nextShot s.intake.jobStrays)
      (putScan (j.lineClosed x) s)) := (pushProgress_leaves _ _).past rfl rfl rfl rfl
    dsimp only
    split
    · exact told.trans (enterEnding_leavesData _ _)
    · exact told
  next => exact .refl s

theorem closeLine_leaves (n : Nat) (e : EndReport) (s : State) : LeavesData s (closeLine n e s) := by
  unfold closeLine
  dsimp only
  generalize hx : (if s.line.lost = true then s else (offerReserve (.trailer (trailerOf n e s)) s).1) = x
  have offered : OnlyIn (fields [.staging, .loss]) s x := by
    rw [← hx]
    split
    · exact (Acts.refl _ s).only
    · exact Acts.only (by apply_rules [offerReserve_acts, Acts.refl])
  have told : LeavesData x (scanLineClosed ⟨n, closingFlags s, s.line.shotsLost, s.tracker.zone⟩
    (x.setLine { x.line with flags := closingFlags s })) := (scanLineClosed_leaves _ _).past rfl rfl rfl rfl
  exact ((LeavesData.of_onlyIn offered (by decide)).trans told).trans (.of_same rfl rfl rfl rfl)

theorem closeCheck_leaves (s : State) : LeavesData s (closeCheck s) := by
  unfold closeCheck
  split
  · split
    · exact closeLine_leaves _ _ s
    · exact .refl s
  · exact .refl s

end Sys2Proof.Machine


/-! PROOFS. The running job told of a memory fault (R87, R104, R106, R116, R120, R125, R126, R128, R141, R143, R160). -/

namespace Sys2Proof.Machine

variable {s b w x u v : State} {j : ScanJob} {a : PhotoJob} {r : JobResult} {d : Bool}

/-! ## What stays (R104, R106) -/

theorem endFiring_leaves (cause : EndCause) (s : State) : LeavesData s (endFiring cause s) := by
  unfold endFiring
  split
  · exact (closeCheck_leaves _).past rfl rfl rfl rfl
  · exact .refl s

theorem markStop_leaves (reason : StopReason) (s : State) : LeavesData s (markStop reason s) := by
  unfold markStop
  split
  · exact .refl s
  · exact .of_same rfl rfl rfl rfl

theorem stopRequest_leaves (reason : StopReason) (s : State) : LeavesData s (stopRequest reason s) :=
  (markStop_leaves reason s).trans ((endFiring_leaves .stop _).trans (closeCheck_leaves _))

theorem endIfNoLine_leaves (s : State) : LeavesData s (endIfNoLine s) := by
  unfold endIfNoLine
  split
  · split
    · exact enterEnding_leavesData _ s
    · exact .refl s
  · exact .refl s

theorem failScanning_leaves (c : ResultCode) (reason : StopReason) (j : ScanJob) (s : State) :
    LeavesData s (failScanning c reason j s) := by
  unfold failScanning
  dsimp only
  split
  · exact .of_same rfl rfl rfl rfl
  · exact ((stopRequest_leaves reason _).trans (endIfNoLine_leaves _)).past rfl rfl rfl rfl

theorem scanMemoryFault_leaves (j : ScanJob) (s : State) : LeavesData s (scanMemoryFault j s) := by
  have before : LeavesData s (if j.endWait = .none then failPre .memoryFault j s else endScan j s) := by
    split
    · exact failPre_leaves _ j s
    · exact endScan_leaves j s
  unfold scanMemoryFault
  split
  · exact before
  · exact before
  · exact before
  · exact failScanning_leaves _ _ j s
  · dsimp only
    split
    · exact .of_same rfl rfl rfl rfl
    · exact endScan_leaves _ s

theorem photoJobMemoryFault_leaves (d : Bool) (a : PhotoJob) (s : State) : LeavesData s (photoJobMemoryFault d a s) := by
  unfold photoJobMemoryFault
  dsimp only
  split
  · exact handPhoto_leaves _ s
  · split
    · exact .of_same rfl rfl rfl rfl
    · split
      · exact (handPhoto_leaves _ _).past rfl rfl rfl rfl
      · exact (endPhotoJob_leaves _ _).past rfl rfl rfl rfl

theorem jobMemoryFault_leaves (d : Bool) (s : State) : LeavesData s (jobMemoryFault d s) := by
  unfold jobMemoryFault
  split
  · exact scanMemoryFault_leaves _ s
  · exact photoJobMemoryFault_leaves d _ s
  · exact (handResult_leaves _ _).past rfl rfl rfl rfl
  · exact handResult_leaves _ s
  all_goals exact .refl s

/-! ## A job told, kind by kind -/

theorem jobMemoryFault_none (none : w.job = none) : jobMemoryFault d w = w := by
  unfold jobMemoryFault
  rw [none]

theorem jobMemoryFault_others (run : w.job = none ∨ w.job = some .spinWait ∨ w.job = some .turnWait ∨
    (∃ slot src, w.job = some (.profileRead slot src)) ∨ w.job = some .reportWrite) : jobMemoryFault d w = w := by
  unfold jobMemoryFault
  rcases run with run | run | run | ⟨slot, src, run⟩ | run <;> rw [run]

theorem jobMemoryFault_mark (run : w.job = some .markWait) : jobMemoryFault d w =
    handResult ⟨.memoryFault, openDetail w, []⟩ ((w.setMarkWait none).spendFree) := by
  unfold jobMemoryFault
  rw [run]
  rfl

theorem jobMemoryFault_sealing {kind : JobKind} (run : w.job = some (.sealWait kind r)) :
    jobMemoryFault d w = handResult r w := by
  unfold jobMemoryFault
  rw [run]

theorem jobMemoryFault_scan (run : w.job = some (.scan j)) : jobMemoryFault d w = scanMemoryFault j w := by
  unfold jobMemoryFault
  rw [run]

theorem jobMemoryFault_photo (run : w.job = some (.photo a)) : jobMemoryFault d w = photoJobMemoryFault d a w := by
  unfold jobMemoryFault
  rw [run]

theorem scanMemoryFault_before (before : j.phase = .hold ∨ j.phase = .position ∨ j.phase = .runIn) :
    scanMemoryFault j w = if j.endWait = .none then failPre .memoryFault j w else endScan j w := by
  unfold scanMemoryFault
  rcases before with h | h | h <;> rw [h]

theorem scanMemoryFault_scanning (scans : j.phase = .scanning) :
    scanMemoryFault j w = failScanning .memoryFault .memoryFault j w := by
  unfold scanMemoryFault
  rw [scans]

theorem scanMemoryFault_ending (ends : j.phase = .ending) : scanMemoryFault j w =
    if j.endWait = .none then putScan { j with cause := firstCause j.cause .memoryFault } w
    else endScan { j with cause := firstCause j.cause .memoryFault } w := by
  unfold scanMemoryFault
  rw [ends]

theorem failScanning_again (c : ResultCode) (reason : StopReason) (stopped : j.stop ≠ none) :
    failScanning c reason j w = putScan { j with cause := firstCause j.cause c } w := by
  unfold failScanning
  cases stop : j.stop with
  | none => exact absurd stop stopped
  | some _ => rfl

theorem photoResult_failLate (a : PhotoJob) (c : ResultCode) (detail : Nat) (stations : List StationSlot) :
    photoResult (a.failLate c) detail stations = photoResult { a with cause := firstCause a.cause c } detail stations := by
  rw [photoResult_eq, photoResult_eq]
  rfl

theorem endScan_handsBack (sound : w.reader.writeBackLost = false) :
    HandsBack (scanResult j w.azimuth w.photo.stations) (endScan j w) :=
  ((endScan_ends j w).ends.result sound).1

theorem HandsBack.past (h : HandsBack r x) (job : u.job = x.job) (reader : u.reader = x.reader) (port : u.port = x.port) :
    HandsBack r u := by
  unfold HandsBack ToWrite at h ⊢
  rw [job, reader, port]
  exact h

/-! ## The fault told -/

/-- The state `w` in which the Page Manager tells the running job of `b` of a memory fault. -/
structure FaultSeen (d : Bool) (b w : State) : Prop where
  only    : OnlyIn (fields [.staging, .pages, .port, .notices]) b w
  wait    : w.pages.wait = b.pages.wait
  fault   : w.pages.fault = (b.pages.fault || d)
  records : w.staging.entries.map (·.record) = b.staging.entries.map (·.record)
  next    : w.staging.nextSeq = b.staging.nextSeq

/-- What comes after the job has been told leaves it. -/
structure AfterTold (x u : State) : Prop where
  only : OnlyIn (fields [.staging, .loss, .pages]) x u
  mark : u.pages.mark = x.pages.mark

theorem AfterTold.refl (x : State) : AfterTold x x := ⟨(Acts.refl _ x).only, rfl⟩

theorem AfterTold.handsBack (h : AfterTold x u) (g : HandsBack r x) : HandsBack r u :=
  g.past (h.only .job rfl) (h.only .reader rfl) (h.only .port rfl)

section Told

variable (seen : FaultSeen d b w) (after : AfterTold (jobMemoryFault d w) u) (sound : b.reader.writeBackLost = false)
include seen

theorem FaultSeen.reader : w.reader = b.reader := seen.only .reader rfl

theorem FaultSeen.seals : w.seals = b.seals := seals_of_reader seen.reader

theorem FaultSeen.stations : w.photo.stations = b.photo.stations := congrArg Photo.stations (seen.only .photo rfl)

include after sound

theorem FaultSeen.tells_before (run : b.job = some (.scan j))
    (before : j.phase = .hold ∨ j.phase = .position ∨ j.phase = .runIn) :
    (j.endWait = .none →
      u.turntable = (decelerate b).turntable ∧
      (b.seals = true → u.job = some (.scan { j with cause := some .memoryFault, endWait := .mark }) ∧
        u.pages.mark = some ⟨b.staging.nextSeq, .abort, false⟩) ∧
      (b.seals = false →
        HandsBack (scanResult { j with cause := some .memoryFault } b.azimuth b.photo.stations) u)) ∧
    (j.endWait ≠ .none → HandsBack (scanResult j b.azimuth b.photo.stations) u) := by
  have soundW : w.reader.writeBackLost = false := by rw [seen.reader]; exact sound
  have azimuth : w.azimuth = b.azimuth := seen.only .azimuth rfl
  rw [jobMemoryFault_scan ((seen.only .job rfl).trans run), scanMemoryFault_before before] at after
  refine ⟨fun waits => ?_, fun marked => ?_⟩
  · rw [if_pos waits] at after
    have fails := failPre_failedEarly .memoryFault j w
    refine ⟨?_, fun seals => ?_, fun plain => ?_⟩
    · rw [after.only .turntable rfl, fails.turntable]
      exact decelerate_turntable (seen.only .turntable rfl)
    · obtain ⟨job, mark⟩ := fails.seals (seen.seals.trans seals)
      rw [seen.next] at mark
      exact ⟨(after.only .job rfl).trans job, after.mark.trans mark⟩
    · have hands := fails.ends (seen.seals.trans plain) soundW
      rw [azimuth, seen.stations] at hands
      exact after.handsBack hands
  · rw [if_neg marked] at after
    have hands := endScan_handsBack (j := j) soundW
    rw [azimuth, seen.stations] at hands
    exact after.handsBack hands

theorem FaultSeen.tells_ending (run : b.job = some (.scan j)) (ends : j.phase = .ending) :
    (j.endWait = .none → u.job = some (.scan { j with cause := firstCause j.cause .memoryFault })) ∧
    (j.endWait ≠ .none →
      HandsBack (scanResult { j with cause := firstCause j.cause .memoryFault } b.azimuth b.photo.stations) u) := by
  have soundW : w.reader.writeBackLost = false := by rw [seen.reader]; exact sound
  have azimuth : w.azimuth = b.azimuth := seen.only .azimuth rfl
  rw [jobMemoryFault_scan ((seen.only .job rfl).trans run), scanMemoryFault_ending ends] at after
  refine ⟨fun waits => ?_, fun marked => ?_⟩
  · rw [if_pos waits] at after
    exact after.only .job rfl
  · rw [if_neg marked] at after
    have hands := endScan_handsBack (j := { j with cause := firstCause j.cause .memoryFault }) soundW
    rw [azimuth, seen.stations] at hands
    exact after.handsBack hands

theorem FaultSeen.tells_photo (run : b.job = some (.photo a)) :
    (a.sealWait = true → ∃ detail,
      HandsBack (photoResult { a with cause := firstCause a.cause .memoryFault } detail b.photo.stations) u ∧
      (a.cause ≠ none → a.lateCause = false → detail = a.index)) ∧
    (a.sealWait = false → b.photo.state.busy = true →
      u.job = some (.photo { a with cause := firstCause a.cause .memoryFault })) ∧
    (a.sealWait = false → b.photo.state.busy = false →
      (b.seals = true → d = false →
        u.job = some (.photo { a with cause := firstCause a.cause .memoryFault, sealWait := true }) ∧
        u.pages.mark = some ⟨b.staging.nextSeq, .abort, false⟩) ∧
      (b.seals = false ∨ d = true → a.lateCause = false →
        HandsBack (photoResult { a with cause := firstCause a.cause .memoryFault } a.index b.photo.stations) u)) := by
  have soundW : w.reader.writeBackLost = false := by rw [seen.reader]; exact sound
  have photo : w.photo = b.photo := seen.only .photo rfl
  rw [jobMemoryFault_photo ((seen.only .job rfl).trans run)] at after
  unfold photoJobMemoryFault at after
  dsimp only at after
  refine ⟨fun waits => ?_, fun early busy => ?_, fun early idle => ?_⟩
  · rw [if_pos waits] at after
    have hands := ((handPhoto_jobEnds (s := w) (v := w) (a.failLate .memoryFault) rfl rfl rfl).result soundW).1
    rw [photoResult_failLate, photo] at hands
    refine ⟨_, after.handsBack hands, fun failed sure => photoDetail_index ?_ w⟩
    show (a.lateCause || a.cause.isNone) = false
    rw [sure, Bool.false_or]
    exact Option.isNone_eq_false_iff.2 (Option.isSome_iff_ne_none.2 failed)
  · rw [if_neg (by rw [early]; decide), if_pos (by rw [photo]; exact busy)] at after
    exact after.only .job rfl
  · rw [if_neg (by rw [early]; decide), if_neg (by rw [photo, idle]; decide)] at after
    refine ⟨fun seals account => ?_, fun open_ sure => ?_⟩
    · rw [if_neg (by rw [account]; decide), endPhotoJob_seals (s := restPhoto w) (seen.seals.trans seals),
        if_neg (firstCause_some _ _)] at after
      refine ⟨after.only .job rfl, after.mark.trans ?_⟩
      show some (EndMark.mk w.staging.nextSeq _ _) = _
      rw [seen.next]
    · have ends : HandsBack (photoResult { a with cause := firstCause a.cause .memoryFault } a.index w.photo.stations)
          (handPhoto { a with cause := firstCause a.cause .memoryFault } (restPhoto w)) :=
        handPhoto_handsBack (a := { a with cause := firstCause a.cause .memoryFault }) (s := restPhoto w) soundW sure
      rw [photo] at ends
      by_cases account : d = true
      · rw [if_pos account] at after
        exact after.handsBack ends
      · have plain : (restPhoto w).seals = false :=
          seen.seals.trans (open_.resolve_right account)
        rw [if_neg account, endPhotoJob_hands plain] at after
        exact after.handsBack ends

/-- The running job told of a memory fault by the Page Manager. -/
theorem FaultSeen.tells : JobToldOfFault d b u := by
  have soundW : w.reader.writeBackLost = false := by rw [seen.reader]; exact sound
  have job : w.job = b.job := seen.only .job rfl
  constructor
  case others =>
    intro run
    rw [← job] at run
    rw [jobMemoryFault_others run] at after
    exact ⟨(after.only .job rfl).trans job, (after.only .reader rfl).trans seen.reader⟩
  case mark =>
    intro run
    rw [jobMemoryFault_mark (job.trans run)] at after
    have hands := handResult_handsBack (r := ⟨.memoryFault, openDetail w, []⟩) (s := (w.setMarkWait none).spendFree) soundW
    have kept := handResult_onlyIn (r := ⟨.memoryFault, openDetail w, []⟩) (s := (w.setMarkWait none).spendFree) soundW
    exact ⟨(after.only .markWait rfl).trans (kept .markWait rfl), _, after.handsBack hands⟩
  case sealing =>
    intro kind r run
    rw [jobMemoryFault_sealing (job.trans run)] at after
    exact after.handsBack (handResult_handsBack soundW)
  case scanBefore => exact fun j run before => seen.tells_before after sound run before
  case scanning =>
    intro j run scans
    rw [jobMemoryFault_scan (job.trans run), scanMemoryFault_scanning scans] at after
    refine ⟨fun stopped => ?_, w, _, seen.only, seen.wait, seen.fault, seen.records,
      failScanning_stops .memoryFault .memoryFault scans w, after.only⟩
    rw [failScanning_again _ _ stopped] at after
    exact after.only .job rfl
  case scanEnding => exact fun j run ends => seen.tells_ending after sound run ends
  case photo => exact fun a run => seen.tells_photo after sound run

end Told

end Sys2Proof.Machine


/-! PROOFS. Faults of the reader's own transfers and of its jobs' (R155, R159, R183), and of descriptor accesses (R106). -/

namespace Sys2Proof.Machine

variable {s b w x u v : State} {j : ScanJob} {a : PhotoJob} {p : Photograph} {job : Job} {d : Bool}

/-- The state `w` in which a fault is reported to its requester, `b` being the state before it. -/
structure FaultReported (b w : State) : Prop where
  only    : OnlyIn (fields [.port, .notices]) b w
  pending : w.notices.pending = b.notices.pending ||| 32

/-! ## The reader halts (R183) -/

theorem faulted_reader {purpose : Purpose} (own : purpose.isReaderRead = true ∨ purpose = .takenWrite ∨
    purpose = .resultCode ∨ purpose = .resultState ∨ (purpose = .blockWrite ∧ w.job = none)) :
    faulted purpose w = haltOnLoss w := by
  rcases own with reads | rfl | rfl | rfl | ⟨rfl, none⟩
  · cases purpose <;> first | rfl | cases reads
  · rfl
  · rfl
  · rfl
  · show writeBackFault w = _
    unfold writeBackFault
    rw [none]

theorem FaultReported.halts (h : FaultReported b w) :
    (haltOnLoss w).reader.state = .halted ∧ (haltOnLoss w).reader.haltCause = some .writeBackLost ∧
    (haltOnLoss w).reader.taken = none ∧ (haltOnLoss w).reader.result = none ∧ (haltOnLoss w).reader.writeList = [] ∧
    (haltOnLoss w).reader.haltPending = false ∧ (haltOnLoss w).reader.lastFinished = b.reader.lastFinished ∧
    (haltOnLoss w).notices.pending = b.notices.pending ||| 32 ||| 16 ∧
    OnlyIn (fields [.reader, .port, .notices]) b (haltOnLoss w) := by
  obtain ⟨reader, -, pending, -⟩ := enterHalted_halts .writeBackLost (w.setReader { w.reader with
    taken := none, haltPending := false, writeBackLost := false, writeList := [], writeBusy := false, result := none })
  have only : OnlyIn (fields [.reader, .port, .notices]) w (haltOnLoss w) :=
    Acts.only (by apply_rules [haltOnLoss_acts, Acts.refl])
  have finished := congrArg Reader.lastFinished reader
  refine ⟨congrArg Reader.state reader, congrArg Reader.haltCause reader, congrArg Reader.taken reader,
    congrArg Reader.result reader, congrArg Reader.writeList reader, congrArg Reader.haltPending reader, ?_, ?_,
    (h.only.widen (by decide)).trans only⟩
  · have kept := congrArg Reader.lastFinished (h.only .reader rfl)
    exact finished.trans kept
  · rw [← h.pending]
    exact pending

/-! ## A write-back is lost (R181, R183) -/

/-- The state in which the running job ends as though by ABORT: its write-back is lost. -/
abbrev writeBackGone (w : State) : State := w.setReader w.reader.lost

theorem writeBackFault_running (run : w.job = some job) : writeBackFault w = abortJob job (writeBackGone w) := by
  unfold writeBackFault
  rw [run]

theorem FaultReported.gone (h : FaultReported b w) : (writeBackGone w).reader = b.reader.lost ∧
    (writeBackGone w).notices.pending = b.notices.pending ||| 32 ∧
    OnlyIn (fields [.reader, .port, .notices]) b (writeBackGone w) :=
  ⟨congrArg Reader.lost (h.only .reader rfl), h.pending,
    (h.only.widen (by decide)).trans (Acts.only (setReader_acts _ (.refl _ w) rfl))⟩

theorem abortScan_scanning (scans : j.phase = .scanning) (v : State) :
    abortScan j v = failScanning .aborted .abort { j with abortTaken := true }
      (if v.inlinePhoto then abortPhotograph v else v) := by
  rw [← abortScanning]
  unfold abortScan
  rw [scans]

theorem FaultReported.stopsScan (h : FaultReported b w) (run : b.job = some (.scan j)) (scans : j.phase = .scanning) :
    ∃ v x, v.reader = b.reader.lost ∧ v.notices.pending = b.notices.pending ||| 32 ∧
      OnlyIn (fields [.reader, .port, .notices]) b v ∧ InlineAborted v x ∧
      ScanStops .aborted .abort .stop { j with abortTaken := true } x (faulted .blockWrite w) := by
  obtain ⟨reader, pending, only⟩ := h.gone
  refine ⟨_, _, reader, pending, only, abortPhotograph_inline (writeBackGone w), ?_⟩
  have told : faulted .blockWrite w = failScanning .aborted .abort { j with abortTaken := true }
      (if (writeBackGone w).inlinePhoto then abortPhotograph (writeBackGone w) else writeBackGone w) := by
    rw [show faulted .blockWrite w = writeBackFault w from rfl, writeBackFault_running ((h.only .job rfl).trans run)]
    exact abortScan_scanning scans _
  rw [told]
  exact failScanning_stops .aborted .abort (j := { j with abortTaken := true }) scans _

theorem FaultReported.abortsJob (h : FaultReported b w) (run : b.job = some job)
    (still : ∀ j, job = .scan j → j.phase ≠ .scanning) :
    ∃ v, v.reader = b.reader.lost ∧ v.notices.pending = b.notices.pending ||| 32 ∧
      OnlyIn (fields [.reader, .port, .notices]) b v ∧ JobAborted job v (faulted .blockWrite w) := by
  obtain ⟨reader, pending, only⟩ := h.gone
  refine ⟨_, reader, pending, only, ?_⟩
  rw [show faulted .blockWrite w = writeBackFault w from rfl, writeBackFault_running ((h.only .job rfl).trans run)]
  exact abortJob_aborted job (writeBackGone w) still

theorem FaultReported.abortsPhoto (h : FaultReported b w) (run : b.job = some (.photo a)) :
    PhotoJobAborted a (writeBackGone w) (faulted .blockWrite w) := by
  rw [show faulted .blockWrite w = writeBackFault w from rfl, writeBackFault_running ((h.only .job rfl).trans run)]
  exact abortPhoto_aborted a (writeBackGone w)

theorem FaultReported.abortsExposure (h : FaultReported b w) (run : b.job = some (.photo a)) (early : a.sealWait = false)
    (exposes : b.photo.state = .exposing) (current : b.photo.current = some p) :
    (faulted .blockWrite w).reader = b.reader.lost ∧
    (faulted .blockWrite w).job = some (.photo { a with abortTaken := true, cause := firstCause a.cause .aborted }) ∧
    (faulted .blockWrite w).photo.current = some { p with endCause := some .abort } ∧
    (faulted .blockWrite w).notices.pending = b.notices.pending ||| 32 := by
  obtain ⟨reader, pending, only⟩ := h.gone
  have photo : (writeBackGone w).photo = b.photo := only .photo rfl
  rw [← photo] at exposes current
  rw [(h.abortsPhoto run).expose _ p rfl early current exposes]
  exact ⟨reader, rfl, rfl, pending⟩

theorem FaultReported.abortsArmed (h : FaultReported b w) (run : b.job = some (.photo a)) (early : a.sealWait = false)
    (armed : b.photo.state = .armed) (plain : b.seals = false) :
    (faulted .blockWrite w).job = none ∧ (faulted .blockWrite w).reader.state = .halted ∧
    (faulted .blockWrite w).reader.haltCause = some .writeBackLost ∧ (faulted .blockWrite w).reader.taken = none ∧
    (faulted .blockWrite w).reader.result = none ∧ (faulted .blockWrite w).reader.writeList = [] ∧
    (faulted .blockWrite w).reader.haltPending = false ∧ (faulted .blockWrite w).reader.writeBackLost = false ∧
    (faulted .blockWrite w).turntable = (decelerate b).turntable ∧
    (faulted .blockWrite w).notices.pending = b.notices.pending ||| 32 ||| 16 := by
  obtain ⟨reader, pending, only⟩ := h.gone
  have photo : (writeBackGone w).photo = b.photo := only .photo rfl
  obtain ⟨turntable, -, -, ends, -⟩ := (h.abortsPhoto run).idle _ rfl early (by rw [photo, armed]; rfl)
  have open_ : (writeBackGone w).seals = false := by
    unfold State.seals at plain ⊢
    rw [reader]
    exact plain
  obtain ⟨-, detail, -, over_⟩ := ends open_
  obtain ⟨job, raised, halted⟩ := over_.lost (by rw [reader]; rfl)
  rw [halted]
  refine ⟨job, rfl, rfl, rfl, rfl, rfl, rfl, rfl, turntable.trans (decelerate_turntable (only .turntable rfl)), ?_⟩
  rw [raised, pending]

/-! ## A PROFILE or REPORT access (R155, R159) -/

theorem FaultReported.failsAccess {kind : JobKind} {purpose : Purpose} (h : FaultReported b w)
    (sound : b.reader.writeBackLost = false)
    (own : ((∃ slot src, b.job = some (.profileRead slot src)) ∧ purpose = .profileRead ∧ kind = .profile) ∨
      (b.job = some .reportWrite ∧ purpose = .reportWrite ∧ kind = .report)) :
    Finishes kind ⟨.memoryFault, 0, []⟩ b.seals b.staging.nextSeq (faulted purpose w) ∧
    (faulted purpose w).slots = b.slots ∧ (faulted purpose w).notices.pending = b.notices.pending ||| 32 := by
  have reader : w.reader = b.reader := h.only .reader rfl
  have soundW : w.reader.writeBackLost = false := by rw [reader]; exact sound
  have job : w.job = b.job := h.only .job rfl
  have told : faulted purpose w = finishJob kind ⟨.memoryFault, 0, []⟩ w := by
    rw [← job] at own
    rcases own with ⟨⟨slot, src, run⟩, rfl, rfl⟩ | ⟨run, rfl, rfl⟩
    all_goals
      show jobAccessFault w = _
      unfold jobAccessFault
      rw [run]
      rfl
  have finishes : Finishes kind ⟨.memoryFault, 0, []⟩ w.seals w.staging.nextSeq (finishJob kind ⟨.memoryFault, 0, []⟩ w) :=
    finishJob_finishes soundW
  have only : OnlyIn (fields [.job, .reader, .port, .pages]) w (finishJob kind ⟨.memoryFault, 0, []⟩ w) :=
    finishJob_onlyIn soundW
  rw [seals_of_reader reader, h.only .staging rfl] at finishes
  rw [told]
  exact ⟨finishes, (only .slots rfl).trans (h.only .slots rfl), (congrArg Notices.pending (only .notices rfl)).trans h.pending⟩

/-! ## A descriptor access (R106) -/

/-- The Page Manager in PAGE-FAULT, before the running job is told. -/
def pageFaulted (w : State) : State :=
  clearMark (w.setPages { w.pages with pass := none, lookAgain := false, current := none, fault := true })

theorem descriptorFault_eq (w : State) : descriptorFault w = jobMemoryFault true (pageFaulted w) := rfl

theorem pageFaulted_onlyIn (w : State) : OnlyIn (fields [.pages]) w (pageFaulted w) :=
  Acts.only (by
    apply_rules [clearMark_acts]
    exact setPages_acts _ (.refl _ w) rfl)

theorem FaultReported.seesPageFault (h : FaultReported b w) : FaultSeen true b (pageFaulted w) := by
  have only := (h.only.widen (l' := [.staging, .pages, .port, .notices]) (by decide)).trans
    ((pageFaulted_onlyIn w).widen (by decide))
  have wait := congrArg Pages.wait (h.only .pages rfl)
  refine ⟨only, wait, ?_, ?_, ?_⟩
  · rw [Bool.or_true]
    rfl
  all_goals
    rw [show (pageFaulted w).staging = w.staging from pageFaulted_onlyIn w .staging rfl, h.only .staging rfl]

theorem FaultReported.faultsPages (h : FaultReported b w) :
    (descriptorFault w).pages.fault = true ∧ (descriptorFault w).pages.current = none ∧
    (descriptorFault w).pages.pass = none ∧
    (b.job = none → (descriptorFault w).pages.mark = none ∧ (descriptorFault w).staging = b.staging ∧
      (descriptorFault w).notices.pending = b.notices.pending ||| 32 ∧
      OnlyIn (fields [.pages, .port, .notices]) b (descriptorFault w)) ∧
    (b.reader.writeBackLost = false → JobToldOfFault true b (descriptorFault w) ∧
      (descriptorFault w).notices.pending = b.notices.pending ||| 32) := by
  have leaves := jobMemoryFault_leaves true (pageFaulted w)
  obtain ⟨mark, drain, discarding, pages⟩ := leaves.pages
  have seen := h.seesPageFault
  rw [descriptorFault_eq]
  refine ⟨by rw [pages]; rfl, by rw [pages]; rfl, by rw [pages]; rfl, fun none => ?_, fun sound => ⟨?_, ?_⟩⟩
  · rw [jobMemoryFault_none ((seen.only .job rfl).trans none)]
    exact ⟨rfl, h.only .staging rfl, h.pending,
      (h.only.widen (by decide)).trans ((pageFaulted_onlyIn w).widen (by decide))⟩
  · exact seen.tells (.refl _) sound
  · rw [(leaves.quiet (by rw [seen.reader]; exact sound)).1]
    exact h.pending

end Sys2Proof.Machine


/-! PROOFS. The records and lines lost with a page (R104, R105), rule by rule. -/

namespace Sys2Proof.Machine

variable {s x : State} {p : Page} {out back es kept : List Entry} {lost : List (Nat × HeaderRec)} {d : Option (Nat × Nat)}

/-! ## Losses counted -/

theorem countLost_loss (e : Entry) (s : State) : (countLost e s).loss = lossOf s.loss e := by
  unfold countLost lossOf
  cases e.record with
  | trailer t => dsimp only; split <;> rfl
  | header _ | shot _ | photo _ | mark _ _ | gap _ => rfl

theorem countLost_pages (e : Entry) (s : State) :
    ∃ discarding, (countLost e s).pages = { s.pages with discarding := discarding } := by
  unfold countLost
  split
  case h_2 => split <;> exact ⟨_, rfl⟩
  all_goals exact ⟨_, rfl⟩

/-- A record that is no trailer of the line being discarded leaves it so. -/
theorem countLost_discarding {e : Entry} (other : ∀ t, e.record = .trailer t → e.lineId ≠ s.pages.discarding) :
    (countLost e s).pages.discarding = s.pages.discarding := by
  unfold countLost
  split
  case h_2 t trailer =>
    have line : e.lineId = some (e.job, t.line) := by
      unfold Entry.lineId
      rw [trailer]
      rfl
    rw [if_neg (fun same => other t trailer (line.trans same.symm))]
  all_goals rfl

theorem countAll_loss (es : List Entry) (s : State) : (countAll es s).loss = es.foldl lossOf s.loss := by
  induction es generalizing s with
  | nil => rfl
  | cons e es ih => exact (ih _).trans (congrArg (es.foldl lossOf) (countLost_loss e s))

theorem countAll_staging (es : List Entry) (s : State) : (countAll es s).staging = s.staging := by
  induction es generalizing s with
  | nil => rfl
  | cons e es ih => exact (ih _).trans (countLost_staging e s)

theorem countAll_pages (es : List Entry) (s : State) :
    ∃ discarding, (countAll es s).pages = { s.pages with discarding := discarding } := by
  induction es generalizing s with
  | nil => exact ⟨_, rfl⟩
  | cons e es ih =>
    obtain ⟨_, first⟩ := countLost_pages e s
    obtain ⟨discarding, more⟩ := ih (countLost e s)
    exact ⟨discarding, more.trans (by rw [first])⟩

theorem countAll_discarding (other : ∀ e ∈ es, ∀ t, e.record = .trailer t → e.lineId ≠ s.pages.discarding) :
    (countAll es s).pages.discarding = s.pages.discarding := by
  induction es generalizing s with
  | nil => rfl
  | cons e es ih =>
    have first := countLost_discarding (other e List.mem_cons_self)
    refine (ih fun y mem => ?_).trans first
    rw [first]
    exact other y (List.mem_cons_of_mem e mem)

theorem countLines_eq (lost : List (Nat × HeaderRec)) (s : State) :
    countLines lost s = s.setLoss (lost.foldl lineLoss s.loss) := by
  induction lost generalizing s with
  | nil => rfl
  | cons y lost ih => exact ih _

/-! ## Issued records and waiting ones -/

theorem issuedFirst_append (out es : List Entry) :
    issuedFirst out.length (out ++ es) = out ++ es.map (fun e => { e with issued := false }) := by
  induction out with
  | nil =>
    induction es with
    | nil => rfl
    | cons e es ih => exact congrArg (List.cons _) ih
  | cons e out ih => exact congrArg (List.cons e) ih

theorem issuedFirst_records (n : Nat) (es : List Entry) : (issuedFirst n es).map (·.record) = es.map (·.record) := by
  induction es generalizing n with
  | nil => cases n <;> rfl
  | cons e es ih => cases n <;> exact congrArg (List.cons e.record) (ih _)

section Queue

variable (issued : ∀ e ∈ out, e.issued = true) (waits : ∀ e ∈ back, e.issued = false)
include issued waits

theorem filter_issued : (out ++ back).filter (fun e => e.issued) = out := by
  rw [List.filter_append, List.filter_eq_self.2 issued, List.filter_eq_nil_iff.2 fun e mem => by rw [waits e mem]; decide,
    List.append_nil]

theorem filter_waiting : (out ++ back).filter (fun e => !e.issued) = back := by
  rw [List.filter_append, List.filter_eq_nil_iff.2 fun e mem => by rw [issued e mem]; decide,
    List.filter_eq_self.2 fun e mem => by rw [waits e mem]; rfl, List.nil_append]

theorem filter_ofLine (line : Nat × Nat) :
    (out ++ back).filter (fun e => !e.issued && decide (e.lineId = some line)) =
      back.filter (fun e => decide (e.lineId = some line)) := by
  rw [← List.filter_filter, List.filter_filter, List.filter_congr fun e _ => Bool.and_comm .., ← List.filter_filter,
    filter_waiting issued waits]

theorem filter_beside (line : Nat × Nat) :
    (out ++ back).filter (fun e => e.issued || decide (e.lineId ≠ some line)) =
      out ++ back.filter (fun e => !decide (e.lineId = some line)) := by
  rw [List.filter_append, List.filter_eq_self.2 fun e mem => by rw [issued e mem]; rfl]
  refine congrArg (out ++ ·) (List.filter_congr fun e mem => ?_)
  rw [waits e mem, Bool.false_or, decide_not]

end Queue

/-! ## Lines discarded (R105) -/

/-- A record of the line discarded, if any is. -/
abbrev ofLine (d : Option (Nat × Nat)) (e : Entry) : Bool := decide (d.isSome ∧ e.lineId = d)

theorem ofLine_none : back.filter (ofLine none) = [] ∧ back.filter (fun e => !ofLine none e) = back :=
  ⟨List.filter_eq_nil_iff.2 fun _ _ h => Bool.false_ne_true (of_decide_eq_true h).1,
    List.filter_eq_self.2 fun _ _ => rfl⟩

theorem ofLine_some (line : Nat × Nat) : ofLine (some line) = fun e => decide (e.lineId = some line) :=
  funext fun _ => decide_eq_decide.2 (and_iff_right rfl)

/-- The lines `lost` are discarded, the last of them `d`: the records `gone` go with it, the records `kept` stay. -/
structure Discards (d : Option (Nat × Nat)) (lost : List (Nat × HeaderRec)) (gone kept : List Entry) (x y : State) : Prop where
  entries    : y.staging.entries = kept
  loss       : y.loss = gone.foldl lossOf (lost.foldl lineLoss x.loss)
  current    : y.pages.current = x.pages.current
  line       : d ≠ none → y.pages.line = none
  discarding : d ≠ none → (∀ e ∈ gone, ∀ t, e.record = .trailer t → e.lineId ≠ d) → y.pages.discarding = d

theorem dropWaiting_discards (line : Nat × Nat) (entries : x.staging.entries = out ++ back)
    (issued : ∀ e ∈ out, e.issued = true) (waits : ∀ e ∈ back, e.issued = false) :
    Discards (some line) [] (back.filter (ofLine (some line))) (out ++ back.filter (fun e => !ofLine (some line) e))
      (x.setPages { x.pages with discarding := some line, line := none })
      (dropWaiting line (x.setPages { x.pages with discarding := some line, line := none })) := by
  rw [ofLine_some]
  obtain ⟨z, hz⟩ : ∃ z, z = ((x.setPages { x.pages with discarding := some line, line := none }).setStaging
    { x.staging with entries := out ++ back.filter (fun e => !decide (e.lineId = some line)) }) := ⟨_, rfl⟩
  have dropped : dropWaiting line (x.setPages { x.pages with discarding := some line, line := none }) =
      countAll (back.filter (fun e => decide (e.lineId = some line))) z := by
    rw [hz, ← filter_ofLine issued waits, ← filter_beside issued waits, ← entries]
    rfl
  rw [dropped]
  obtain ⟨_, pages⟩ := countAll_pages (back.filter (fun e => decide (e.lineId = some line))) z
  refine ⟨?_, ?_, ?_, fun _ => ?_, fun _ other => ?_⟩
  · rw [countAll_staging, hz]
    rfl
  · rw [countAll_loss, hz]
    rfl
  · rw [pages, hz]
    rfl
  · rw [pages, hz]
    rfl
  · rw [countAll_discarding, hz]
    · rfl
    · rw [hz]
      exact other

theorem discardLines_discards (last : d = lost.getLast?.map (fun y => (y.1, y.2.line)))
    (entries : x.staging.entries = out ++ back) (issued : ∀ e ∈ out, e.issued = true)
    (waits : ∀ e ∈ back, e.issued = false) :
    Discards d lost (back.filter (ofLine d)) (out ++ back.filter (fun e => !ofLine d e)) x (discardLines lost x) := by
  unfold discardLines
  split
  next none_ =>
    rw [none_] at last
    subst last
    cases List.getLast?_eq_none_iff.1 none_
    rw [Option.map_none, ofLine_none.1, ofLine_none.2]
    exact ⟨entries, rfl, rfl, fun some_ => absurd rfl some_, fun some_ => absurd rfl some_⟩
  next y some_ =>
    rw [some_] at last
    subst last
    have drops := dropWaiting_discards (x := x.setLoss (lost.foldl lineLoss x.loss)) (y.1, y.2.line) entries issued waits
    dsimp only
    rw [countLines_eq]
    exact ⟨drops.entries, drops.loss, drops.current, drops.line, drops.discarding⟩

/-! ## The end of an abandonment (R104, step 3) -/

theorem endAbandon_none (none_ : s.pages.current = none) : endAbandon s = s := by
  unfold endAbandon
  rw [none_]

theorem endAbandon_waits (more : s.drained = false) : endAbandon s = s := by
  unfold endAbandon
  split
  · exact if_neg fun ⟨_, drained⟩ => by rw [more] at drained; cases drained
  · rfl

/-- The queue once the page is gone, the records issued into it not yet counted. -/
def pageGone (s : State) : State :=
  (s.setPages { s.pages with current := none }).setStaging
    { s.staging with entries := s.staging.entries.filter (fun e => !e.issued) }

theorem endAbandon_ends (current : s.pages.current = some p) (stage : p.stage = .abandoned) (drained : s.drained = true) :
    endAbandon s = countAll (s.staging.entries.filter (fun e => e.issued)) (pageGone s) := by
  unfold endAbandon
  rw [current]
  exact if_pos ⟨stage, drained⟩

theorem endAbandon_again (s : State) : endAbandon (endAbandon s) = endAbandon s := by
  cases drained : s.drained with
  | false => rw [endAbandon_waits drained, endAbandon_waits drained]
  | true =>
    cases current : s.pages.current with
    | none => rw [endAbandon_none current, endAbandon_none current]
    | some p =>
      by_cases stage : p.stage = .abandoned
      · refine endAbandon_none ?_
        obtain ⟨_, pages⟩ := countAll_pages (s.staging.entries.filter (fun e => e.issued)) (pageGone s)
        rw [endAbandon_ends current stage drained, pages]
        rfl
      · rw [endAbandon_same current stage, endAbandon_same current stage]

end Sys2Proof.Machine


/-! PROOFS. A faulted record write: its page abandoned, its records and lines lost (R104, R105). -/

namespace Sys2Proof.Machine

variable {s b w x u : State} {j : ScanJob} {a : PhotoJob} {p : Page} {out asked waiting back : List Entry}
  {rest : List Outstanding} {n : Nat} {d : Bool}

/-! ## The queue while the job is told -/

/-- A line with its number is open, and shots of it have not closed. -/
structure LineInFlight (n : Nat) (s : State) : Prop where
  phase  : s.line.phase ≠ .none
  number : s.line.number = some n
  shots  : s.lineHasShots n = true

theorem endReport_inFlight (r : EndReport) (h : LineInFlight n s) :
    endReport r s = s.setLine { s.line with phase := .draining, report := some r } :=
  closeCheck_inFlight (s := s.setLine { s.line with phase := .draining, report := some r }) h.number h.shots

theorem LineInFlight.endFiring (cause : EndCause) (h : LineInFlight n s) :
    LineInFlight n (endFiring cause s) ∧ OnlyIn (fields [.line, .sched]) s (endFiring cause s) := by
  unfold Machine.endFiring
  split
  · rw [endReport_inFlight (n := n) _ (s := s.setSched s.sched.stopped) ⟨h.phase, h.number, h.shots⟩]
    have draining : LinePhase.draining ≠ .none := by decide
    exact ⟨⟨draining, h.number, h.shots⟩, Acts.only (setLine_acts _ (setSched_acts _ (.refl _ s) rfl (.inl ⟨rfl, rfl⟩)) rfl)⟩
  · exact ⟨h, (Acts.refl _ s).only⟩

theorem LineInFlight.markStop (reason : StopReason) (h : LineInFlight n s) : LineInFlight n (markStop reason s) := by
  unfold Machine.markStop
  rw [if_neg h.phase]
  exact ⟨h.phase, h.number, h.shots⟩

/-- With shots in flight a stop closes no line, and no trailer is offered. -/
theorem LineInFlight.stopRequest (reason : StopReason) (h : LineInFlight n s) :
    LineInFlight n (stopRequest reason s) ∧ OnlyIn (fields [.line, .sched]) s (stopRequest reason s) := by
  obtain ⟨held, only⟩ := (h.markStop reason).endFiring .stop
  unfold Machine.stopRequest
  rw [closeCheck_inFlight held.number held.shots]
  exact ⟨held, ((markStop_onlyIn reason s).widen (by decide)).trans only⟩

theorem endIfNoLine_open (line : s.line.phase ≠ .none) : endIfNoLine s = s := by
  unfold endIfNoLine
  split
  · exact if_neg fun due => line due.2
  · rfl

theorem failScanning_inFlight (c : ResultCode) (reason : StopReason) (j : ScanJob) (h : LineInFlight n s) :
    OnlyIn (fields [.job, .line, .sched]) s (failScanning c reason j s) := by
  unfold failScanning
  dsimp only
  split
  · exact Acts.only (by apply_rules [putScan_acts, Acts.refl])
  · have open_ : LineInFlight n (putScan { j with cause := firstCause j.cause c, stop := some reason } s) :=
      ⟨h.phase, h.number, h.shots⟩
    obtain ⟨held, only⟩ := open_.stopRequest reason
    rw [endIfNoLine_open held.phase]
    exact (Acts.only (by apply_rules [putScan_acts, Acts.refl])).trans (only.widen (by decide))

/-- The running job told of a memory fault offers no record, unless the fault closes its line. -/
theorem jobMemoryFault_keepsQueue (d : Bool) (h : s.scanning = true → ∃ n, LineInFlight n s) :
    OnlyIn (fields [.turntable, .pages, .job, .photo, .port, .reader, .notices, .freeCount, .markWait, .line, .sched]) s
      (jobMemoryFault d s) := by
  unfold jobMemoryFault
  split
  next j run =>
    unfold scanMemoryFault
    dsimp only
    split
    case h_4 scans =>
      obtain ⟨n, line⟩ := h ((scanning_of_job run).trans (decide_eq_true scans))
      exact (failScanning_inFlight _ _ j line).widen (by decide)
    all_goals exact Acts.only (by split <;> apply_rules [failPre_acts, endScan_acts, putScan_acts, Acts.refl])
  · exact Acts.only (by apply_rules [photoJobMemoryFault_acts, Acts.refl])
  · exact Acts.only (handResult_acts _ (spendFree_acts (setMarkWait_acts _ (.refl _ s) rfl) rfl) rfl rfl rfl rfl)
  · exact Acts.only (by apply_rules [handResult_acts, Acts.refl])
  all_goals exact (Acts.refl _ s).only

/-! ## The writes withdrawn and ignored (R104) -/

/-- The record writes not granted are withdrawn, the page abandoned (R104; log 22). -/
def recordsWithdrawn (p : Page) (w : State) : State :=
  withdrawRecords (putPage { p with stage := .abandoned, sealing := none } w)

/-- The page abandoned, before the running job is told. -/
def pageAbandoned (p : Page) (w : State) : State :=
  clearMark (ignore (fun t => decide (t.requester = .record)) (recordsWithdrawn p w))

/-- The running job told of the page abandoned. -/
def abandonTold (p : Page) (w : State) : State := jobMemoryFault false (pageAbandoned p w)

theorem abandonPage_eq (current : w.pages.current = some p) :
    abandonPage w = endAbandon (discardLines (linesLostAt (recordsWithdrawn p w)) (abandonTold p w)) := by
  unfold abandonPage
  rw [current]
  rfl

theorem pageAbandoned_acts (p : Page) (w : State) : Acts (fields [.staging, .pages, .port]) w (pageAbandoned p w) := by
  unfold pageAbandoned recordsWithdrawn
  apply_rules [clearMark_acts, ignore_acts, withdrawRecords_acts, putPage_acts, Acts.refl]

theorem pageAbandoned_pages (p : Page) (w : State) : (pageAbandoned p w).pages =
    { w.pages with current := some { p with stage := .abandoned, sealing := none }, mark := none, drain := none } := rfl

theorem pageAbandoned_waits (p : Page) (w : State) : (pageAbandoned p w).port.recordWait.map (·.requester) =
    (w.port.recordWait.filter (fun t => !decide (t.requester = .record))).map (·.requester) := by
  show ((w.port.recordWait.filter (fun t => !decide (t.requester = .record))).map
    (fun t => t.ignoreIf (fun t => decide (t.requester = .record)))).map (·.requester) = _
  rw [List.map_map]
  refine List.map_congr_left fun t _ => ?_
  show (if decide (t.requester = .record) = true then _ else t).requester = t.requester
  split <;> rfl

/-- The records issued stay so, those withdrawn wait again. -/
theorem recordsWithdrawn_entries (entries : w.staging.entries = out ++ asked ++ waiting)
    (issued : ∀ e ∈ out ++ asked, e.issued = true) (waits : ∀ e ∈ waiting, e.issued = false)
    (count : asked.length = (w.port.recordWait.filter (fun y => decide (y.purpose = .record))).length) :
    (recordsWithdrawn p w).staging.entries = out ++ (asked ++ waiting).map (fun e => { e with issued := false }) := by
  have many : (w.staging.entries.filter (fun e => e.issued)).length -
      (w.port.recordWait.filter (fun y => decide (y.purpose = .record))).length = out.length := by
    rw [entries, filter_issued issued waits, ← count, List.length_append, Nat.add_sub_cancel]
  rw [← issuedFirst_append, ← List.append_assoc, ← entries, ← many]
  rfl

/-! ## What follows the telling -/

theorem discardLines_pages (lost : List (Nat × HeaderRec)) (x : State) :
    ∃ line discarding, (discardLines lost x).pages = { x.pages with line := line, discarding := discarding } := by
  unfold discardLines
  split
  · exact ⟨_, _, rfl⟩
  · dsimp only
    unfold dropWaiting
    obtain ⟨_, pages⟩ := countAll_pages _ _
    rw [pages, countLines_eq]
    exact ⟨_, _, rfl⟩

theorem discardLines_mark (lost : List (Nat × HeaderRec)) (x : State) : (discardLines lost x).pages.mark = x.pages.mark := by
  obtain ⟨_, _, pages⟩ := discardLines_pages lost x
  rw [pages]

theorem discardLines_current (lost : List (Nat × HeaderRec)) (x : State) :
    (discardLines lost x).pages.current = x.pages.current := by
  obtain ⟨_, _, pages⟩ := discardLines_pages lost x
  rw [pages]

theorem endAbandon_mark (x : State) : (endAbandon x).pages.mark = x.pages.mark := by
  unfold endAbandon
  split
  · split
    · obtain ⟨_, pages⟩ := countAll_pages (x.staging.entries.filter (fun e => e.issued)) (pageGone x)
      have mark := congrArg Pages.mark pages
      exact mark
    · rfl
  · rfl

theorem abandonPage_after (current : w.pages.current = some p) : AfterTold (abandonTold p w) (abandonPage w) := by
  rw [abandonPage_eq current]
  exact ⟨Acts.only (by apply_rules [endAbandon_acts, discardLines_acts, Acts.refl]),
    (endAbandon_mark _).trans (discardLines_mark _ _)⟩

theorem abandonTold_leaves (p : Page) (w : State) : LeavesData (pageAbandoned p w) (abandonTold p w) :=
  jobMemoryFault_leaves false _

theorem abandonTold_pages (p : Page) (w : State) :
    (abandonTold p w).pages.current = some { p with stage := .abandoned, sealing := none } := by
  obtain ⟨_, _, _, pages⟩ := (abandonTold_leaves p w).pages
  rw [pages, pageAbandoned_pages]

theorem abandonTold_out (p : Page) (w : State) :
    ((abandonTold p w).port.recordOut).map Outstanding.mark = w.port.recordOut.map Outstanding.mark := by
  have told : Acts (fun _ => true) (pageAbandoned p w) (abandonTold p w) := by
    unfold abandonTold
    apply_rules [jobMemoryFault_acts, Acts.refl]
  exact (told.answers .record).trans ((pageAbandoned_acts p w).answers .record)

/-- With record writes alone waiting at the port, the abandonment ends when no write is outstanding. -/
theorem abandonTold_drained (onlyRecords : ∀ y ∈ w.port.recordWait, y.requester = .record) (more : w.port.recordOut = rest) :
    (abandonTold p w).drained = decide (rest = []) := by
  have waits : (abandonTold p w).port.recordWait = [] := by
    have same := (abandonTold_leaves p w).record
    rw [pageAbandoned_waits, List.filter_eq_nil_iff.2 fun y mem => by rw [onlyRecords y mem]; decide] at same
    exact List.map_eq_nil_iff.1 same
  have out := abandonTold_out p w
  unfold State.drained
  rw [waits]
  cases rest with
  | nil =>
    rw [more] at out
    rw [List.map_eq_nil_iff.1 out]
    rfl
  | cons y ys =>
    cases found : (abandonTold p w).port.recordOut with
    | nil =>
      rw [more, found] at out
      cases out
    | cons _ _ => rfl

/-! ## The page abandoned (R104, R105) -/

theorem FaultReported.seesAbandonment (p : Page) (h : FaultReported b w) : FaultSeen false b (pageAbandoned p w) := by
  have pages : w.pages = b.pages := h.only .pages rfl
  have staging : w.staging = b.staging := h.only .staging rfl
  refine ⟨(h.only.widen (by decide)).trans ((pageAbandoned_acts p w).only.widen (by decide)), ?_, ?_, ?_, ?_⟩
  · rw [pageAbandoned_pages, pages]
  · rw [pageAbandoned_pages, pages, Bool.or_false]
  · rw [← staging]
    exact issuedFirst_records _ _
  · rw [← staging]
    rfl

theorem discardLines_drained (lost : List (Nat × HeaderRec)) (more : w.port.recordOut = rest)
    (onlyRecords : ∀ y ∈ w.port.recordWait, y.requester = .record) :
    (discardLines lost (abandonTold p w)).drained = decide (rest = []) := by
  have port : (discardLines lost (abandonTold p w)).port = (abandonTold p w).port :=
    Acts.only (p := fields [.staging, .loss, .pages]) (by apply_rules [discardLines_acts, Acts.refl]) .port rfl
  unfold State.drained
  rw [port]
  exact abandonTold_drained onlyRecords more

section Abandons

variable (h : FaultReported b w) (current : b.pages.current = some p)
include h current

theorem FaultReported.currentPage : w.pages.current = some p :=
  (congrArg Pages.current (h.only .pages rfl)).trans current

theorem FaultReported.withdrawsWrites : ∀ y ∈ (abandonPage w).port.recordWait, y.requester ≠ .record := by
  intro y mem
  rw [(abandonPage_after (h.currentPage current)).only .port rfl] at mem
  have named : y.requester ∈ (abandonTold p w).port.recordWait.map (·.requester) := List.mem_map_of_mem mem
  rw [(abandonTold_leaves p w).record, pageAbandoned_waits] at named
  obtain ⟨z, kept, same⟩ := List.mem_map.1 named
  rw [← same]
  exact of_decide_eq_false ((Bool.not_eq_true' _).mp (List.mem_filter.1 kept).2)

theorem FaultReported.tellsAbandonment (sound : b.reader.writeBackLost = false) :
    JobToldOfFault false b (abandonPage w) ∧ (abandonPage w).notices.pending = b.notices.pending ||| 32 := by
  have seen := h.seesAbandonment p
  have after := abandonPage_after (h.currentPage current)
  refine ⟨seen.tells after sound, ?_⟩
  have quiet := ((abandonTold_leaves p w).quiet (by rw [seen.reader]; exact sound)).1
  rw [after.only .notices rfl, quiet, (pageAbandoned_acts p w).only .notices rfl]
  exact h.pending

end Abandons

end Sys2Proof.Machine


/-! PROOFS. What is lost with the abandoned page (R105). -/

namespace Sys2Proof.Machine

variable {s b w x y u : State} {p : Page} {out asked waiting back gone kept : List Entry} {rest : List Outstanding}
  {lost : List (Nat × HeaderRec)} {d : Option (Nat × Nat)}

/-! ## The abandonment ended -/

theorem endAbandon_current (current : s.pages.current = some p) (stage : p.stage = .abandoned) (sealing : p.sealing = none)
    (drained : s.drained = decide (rest = [])) :
    (endAbandon s).pages.current = if rest = [] then none else some { p with stage := .abandoned, sealing := none } := by
  by_cases none_ : rest = []
  · obtain ⟨_, pages⟩ := countAll_pages (s.staging.entries.filter (fun e => e.issued)) (pageGone s)
    rw [endAbandon_ends current stage (drained.trans (decide_eq_true none_)), pages, if_pos none_]
    rfl
  · rw [endAbandon_waits (drained.trans (decide_eq_false none_)), current, if_neg none_, ← stage, ← sealing]

/-- With the last write the records out go too. -/
theorem Discards.ends (h : Discards d lost gone (out ++ kept) x y) (current : y.pages.current = some p)
    (stage : p.stage = .abandoned) (drained : y.drained = true) (issued : ∀ e ∈ out, e.issued = true)
    (waits : ∀ e ∈ kept, e.issued = false) : Discards d lost (gone ++ out) kept { x with pages := { x.pages with current := none } }
      (endAbandon y) := by
  have ends := endAbandon_ends current stage drained
  rw [h.entries, filter_issued issued waits] at ends
  obtain ⟨_, pages⟩ := countAll_pages out (pageGone y)
  rw [ends]
  refine ⟨?_, ?_, ?_, fun some_ => ?_, fun some_ other => ?_⟩
  · rw [countAll_staging]
    exact (congrArg (List.filter _) h.entries).trans (filter_waiting issued waits)
  · rw [countAll_loss, List.foldl_append, ← h.loss]
    rfl
  · rw [pages]
    rfl
  · rw [pages]
    exact h.line some_
  · have before : (pageGone y).pages.discarding = d :=
      h.discarding some_ fun e mem => other e (List.mem_append_left _ mem)
    rw [countAll_discarding, before]
    rw [before]
    exact fun e mem => other e (List.mem_append_right _ mem)

/-! ## The clauses of the loss -/

theorem linesLostAt_eq (entries : s.staging.entries = out ++ back) (issued : ∀ e ∈ out, e.issued = true)
    (waits : ∀ e ∈ back, e.issued = false) : linesLostAt s = s.pages.line.toList ++ headersOf out := by
  unfold linesLostAt
  rw [entries, filter_issued issued waits]

theorem abandoned_of_discards (line : s.pages.line.toList ++ headersOf out = lost)
    (last : d = lost.getLast?.map (fun z => (z.1, z.2.line)))
    (h : Discards d lost (back.filter (ofLine d) ++ if rest = [] then out else [])
      ((if rest = [] then [] else out) ++ back.filter (fun e => !ofLine d e)) x u) (loss : x.loss = s.loss) :
    Abandoned out back rest s u := by
  refine ⟨fun lost' gone' d' isLost isLast isGone => ?_⟩
  obtain rfl : lost = lost' := line.symm.trans isLost.symm
  obtain rfl : d = d' := last.trans isLast.symm
  subst isGone
  refine ⟨h.loss.trans (by rw [loss]), h.entries, h.line, h.discarding⟩

theorem discardLines_abandoned (entries : x.staging.entries = out ++ back) (issued : ∀ e ∈ out, e.issued = true)
    (waits : ∀ e ∈ back, e.issued = false) (line : s.pages.line.toList ++ headersOf out = lost) (loss : x.loss = s.loss)
    (current : x.pages.current = some p) (stage : p.stage = .abandoned)
    (drained : (discardLines lost x).drained = decide (rest = [])) :
    Abandoned out back rest s (endAbandon (discardLines lost x)) := by
  have drops := discardLines_discards (x := x) (d := lost.getLast?.map (fun z => (z.1, z.2.line))) rfl entries issued waits
  by_cases none_ : rest = []
  · have ends := drops.ends (drops.current.trans current) stage (drained.trans (decide_eq_true none_)) issued
      fun e mem => waits e (List.mem_filter.1 mem).1
    refine abandoned_of_discards line rfl (x := { x with pages := { x.pages with current := none } }) ?_ loss
    rw [if_pos none_, if_pos none_]
    exact ends
  · rw [endAbandon_waits (drained.trans (decide_eq_false none_))]
    refine abandoned_of_discards line rfl (x := x) ?_ loss
    rw [if_neg none_, if_neg none_, List.append_nil]
    exact drops

/-! ## The page of a faulted record write -/

section Abandons

variable (h : FaultReported b w) (current : b.pages.current = some p) (more : w.port.recordOut = rest)
  (ports : w.port.recordWait = b.port.recordWait) (onlyRecords : ∀ y ∈ b.port.recordWait, y.requester = .record)
include h current more ports onlyRecords

theorem FaultReported.losesPage : (abandonPage w).pages.current =
    if rest = [] then none else some { p with stage := .abandoned, sealing := none } := by
  rw [← ports] at onlyRecords
  rw [abandonPage_eq (h.currentPage current)]
  exact endAbandon_current (p := { p with stage := .abandoned, sealing := none }) ((discardLines_current _ _).trans (abandonTold_pages p w)) rfl rfl
    (discardLines_drained _ more onlyRecords)

theorem FaultReported.losesRecords (entries : b.staging.entries = out ++ asked ++ waiting)
    (issued : ∀ e ∈ out ++ asked, e.issued = true) (waits : ∀ e ∈ waiting, e.issued = false)
    (count : asked.length = (b.port.recordWait.filter (fun y => decide (y.purpose = .record))).length)
    (scans : b.scanning = true → b.line.phase ≠ .none ∧ ∃ n, b.line.number = some n ∧ b.lineHasShots n = true) :
    Abandoned out ((asked ++ waiting).map (fun e => { e with issued := false })) rest b (abandonPage w) := by
  have page := h.currentPage current
  rw [← ports] at count onlyRecords
  rw [show b.staging = w.staging from (h.only .staging rfl).symm] at entries
  have queue : (recordsWithdrawn p w).staging.entries = _ := recordsWithdrawn_entries entries issued waits count
  have outIssued : ∀ e ∈ out, e.issued = true := fun e mem => issued e (List.mem_append_left _ mem)
  have backWaits : ∀ e ∈ (asked ++ waiting).map (fun e => { e with issued := false }), e.issued = false := by
    intro e mem
    obtain ⟨_, -, rfl⟩ := List.mem_map.1 mem
    rfl
  have told : OnlyIn _ (pageAbandoned p w) (abandonTold p w) := jobMemoryFault_keepsQueue false fun on => by
    have same : (pageAbandoned p w).scanning = b.scanning := by
      unfold State.scanning State.scanJob
      rw [(pageAbandoned_acts p w).only .job rfl, h.only .job rfl]
    have sameLine : (pageAbandoned p w).line = b.line :=
      ((pageAbandoned_acts p w).only .line rfl).trans (h.only .line rfl)
    have sameShots : (pageAbandoned p w).shots = b.shots :=
      ((pageAbandoned_acts p w).only .shots rfl).trans (h.only .shots rfl)
    obtain ⟨phase, n, number, shots⟩ := scans (same.symm.trans on)
    refine ⟨n, ?_, ?_, ?_⟩
    · rw [sameLine]
      exact phase
    · rw [sameLine]
      exact number
    · unfold State.lineHasShots
      rw [sameShots]
      exact shots
  have line : b.pages.line.toList ++ headersOf out = linesLostAt (recordsWithdrawn p w) := by
    rw [linesLostAt_eq queue outIssued backWaits, show b.pages = w.pages from (h.only .pages rfl).symm]
    rfl
  rw [abandonPage_eq page]
  refine discardLines_abandoned ?_ outIssued backWaits line ?_ (abandonTold_pages p w) rfl
    (discardLines_drained _ more onlyRecords)
  · rw [told .staging rfl]
    exact queue
  · rw [told .loss rfl]
    exact ((pageAbandoned_acts p w).only .loss rfl).trans (h.only .loss rfl)

end Abandons

end Sys2Proof.Machine


/-! PROOFS. A faulted write of a photograph: its rows discarded, its station ended by a memory fault (R137, R138, R141). -/

namespace Sys2Proof.Machine

variable {s b v w x u : State} {j : ScanJob} {a k : PhotoJob} {p : Photograph} {rest : List Outstanding} {header : Bool}

/-! ## The photograph lost (R137, R138) -/

/-- The photograph lost; at a row's write, with its Stop sent. -/
def photoLost (header : Bool) (p : Photograph) (w : State) : State :=
  if header then losePhotograph p w else emit .cameraStop (losePhotograph p w)

theorem faulted_photo {purpose : Purpose} (own : (∃ last, purpose = .row last) ∨ purpose = .photoHeader)
    (current : w.photo.current = some p) : faulted purpose w = photoLost (decide (purpose = .photoHeader)) p w := by
  rcases own with ⟨last, rfl⟩ | rfl
  · show photoMemoryFault w = _
    unfold photoMemoryFault
    rw [current]
    rfl
  · show photoHeaderFault w = _
    unfold photoHeaderFault
    rw [current]
    rfl

theorem photoLost_acts (header : Bool) (p : Photograph) (w : State) :
    Acts (fields [.photo, .port, .out]) w (photoLost header p w) := by
  unfold photoLost
  split
  · apply_rules [losePhotograph_acts, Acts.refl]
  · exact emit_acts _ (by apply_rules [losePhotograph_acts, Acts.refl]) rfl rfl

theorem photoLost_photo (header : Bool) (p : Photograph) (w : State) :
    (photoLost header p w).photo = { w.photo with current := some p.lost, rows := [] } := by
  unfold photoLost
  split <;> rfl

theorem photoLost_out (header : Bool) (p : Photograph) (none : w.out = []) :
    (photoLost header p w).out = if header = true then [] else [.cameraStop] := by
  unfold photoLost
  split
  · exact none
  · exact congrArg (· ++ [Signal.cameraStop]) none

theorem photoLost_waits (header : Bool) (p : Photograph) (w : State) :
    ∀ y ∈ (photoLost header p w).port.photoWait, y.requester ≠ .photo := by
  have port : (photoLost header p w).port.photoWait =
      (w.port.photoWait.filter (fun t => !decide (t.requester = .photo))).map
        (fun t => t.ignoreIf (fun t => decide (t.requester = .photo))) := by
    unfold photoLost
    split <;> rfl
  intro y mem
  rw [port] at mem
  obtain ⟨z, kept, rfl⟩ := List.mem_map.1 mem
  have other : z.requester ≠ .photo := of_decide_eq_false ((Bool.not_eq_true' _).mp (List.mem_filter.1 kept).2)
  unfold Transfer.ignoreIf
  rw [if_neg fun same => other (of_decide_eq_true same)]
  exact other

theorem photoLost_drained (header : Bool) (p : Photograph) (more : w.port.photoOut = rest) :
    (photoLost header p w).port.photoOut = [] ↔ rest = [] := by
  have marks : ((photoLost header p w).port.photoOut).map Outstanding.mark = rest.map Outstanding.mark := by
    rw [← more]
    exact (photoLost_acts header p w).answers .photo
  rw [← List.map_eq_nil_iff (f := Outstanding.mark), marks, List.map_eq_nil_iff]

theorem photoDrained_waits (more : s.port.photoOut ≠ []) : photoDrained s = s := by
  unfold photoDrained
  split
  · exact if_neg fun due => more due.2
  · rfl

/-! ## Its owner told (R141) -/

/-- The job's values once its station has ended by a memory fault. -/
def PhotoJob.memoryEnded (a : PhotoJob) : PhotoJob :=
  { a with done := a.done + 1, cause := stationCause a.cause .fault (some .memory) }

theorem memoryEnded_failed (a : PhotoJob) : a.memoryEnded.cause ≠ none := by
  unfold PhotoJob.memoryEnded
  cases a.cause <;> exact nofun

/-- The job after the write-back of its station's end, its turntable slowed down where an ABORT was taken. -/
def stationLost (a : PhotoJob) (v : State) : State :=
  if a.memoryEnded.abortTaken = true then decelerate (stationWritten a.memoryEnded a .fault v)
  else stationWritten a.memoryEnded a .fault v

theorem stationLost_onlyIn (a : PhotoJob) (v : State) : OnlyIn (fields [.job, .reader, .port, .turntable]) v (stationLost a v) := by
  have written := (stationWritten_onlyIn v a.memoryEnded a .fault).widen (l' := [.job, .reader, .port, .turntable]) (by decide)
  unfold stationLost
  split
  · exact written.trans ((decelerate_onlyIn _).widen (by decide))
  · exact written

theorem stationLost_reader (a : PhotoJob) (v : State) :
    (stationLost a v).reader = (stationWritten a.memoryEnded a .fault v).reader := by
  unfold stationLost
  split
  · exact decelerate_onlyIn _ .reader rfl
  · rfl

theorem stationLost_leaves (a : PhotoJob) (v : State) : LeavesData v (stationLost a v) := by
  have written : LeavesData v (stationWritten a.memoryEnded a .fault v) :=
    (pushProgress_leaves _ (putPhoto a.memoryEnded v)).past rfl rfl rfl rfl
  unfold stationLost
  split
  · exact written.trans (decelerate_leaves _)
  · exact written

theorem stationEnded_memory (a : PhotoJob) (v : State) :
    stationEnded .fault (some .memory) a v = endPhotoJob a.memoryEnded (stationLost a v) := by
  rw [stationEnded_eq (k := a.memoryEnded) rfl, if_neg fun more => memoryEnded_failed a more.1]
  rfl

theorem tellStationEnded_leaves (v : State) : LeavesData v (tellStationEnded .fault (some .memory) v) := by
  unfold tellStationEnded
  split
  · rw [stationEnded_memory]
    exact (stationLost_leaves _ v).trans (endPhotoJob_leaves _ _)
  · split
    · exact beginDrain_leaves _ v
    · exact .refl v
  · exact .refl v

/-! ## The clauses of a faulted write -/

/-- The photo machine at rest, the photograph lost. -/
def photoGone (header : Bool) (p : Photograph) (w : State) : State := photoOver p.lost (photoLost header p w)

section Lost

variable (h : FaultReported b w) (current : b.photo.current = some p)
include h

theorem FaultReported.photoLost_onlyIn (header : Bool) (p : Photograph) :
    OnlyIn (fields [.photo, .port, .notices, .out]) b (photoLost header p w) :=
  (h.only.widen (by decide)).trans ((photoLost_acts header p w).only.widen (by decide))

theorem FaultReported.photoLost_pending (header : Bool) (p : Photograph) :
    (photoLost header p w).notices.pending = b.notices.pending ||| 32 := by
  rw [(photoLost_acts header p w).only .notices rfl]
  exact h.pending

theorem FaultReported.losesRows (header : Bool) (p : Photograph) (none : b.out = []) :
    (photoLost header p w).photo = { b.photo with rows := [], current := some p.lost } ∧
    (photoLost header p w).out = (if header = true then [] else [.cameraStop]) ∧
    (photoLost header p w).notices.pending = b.notices.pending ||| 32 ∧
    OnlyIn (fields [.photo, .port, .notices, .out]) b (photoLost header p w) := by
  refine ⟨?_, photoLost_out header p ((h.only .out rfl).trans none), h.photoLost_pending header p, h.photoLost_onlyIn header p⟩
  rw [photoLost_photo, h.only .photo rfl]

theorem FaultReported.photoGone_onlyIn (header : Bool) (p : Photograph) :
    OnlyIn (fields [.photo, .camera, .port, .notices, .out]) b (photoGone header p w) :=
  ((h.photoLost_onlyIn header p).widen (by decide)).trans ((photoOver_onlyIn p.lost _).widen (by decide))

theorem FaultReported.photoGone_photo (header : Bool) (p : Photograph) : (photoGone header p w).photo =
    ⟨if b.camera.presence = .present ∧ b.camera.checkDue = false then .idle else .absent, none, [],
      setStatus p.station .fault b.photo.stations, b.photo.inlineBase⟩ := by
  unfold photoGone
  rw [(photoOver_photo p.lost (photoLost header p w) _ rfl).1, photoLost_photo, h.photoLost_onlyIn header p .camera rfl,
    h.only .photo rfl]
  simp only [decide_eq_true_eq]
  rfl

theorem FaultReported.photoGone_quiet (header : Bool) (p : Photograph) :
    (photoGone header p w).notices.pending = b.notices.pending ||| 32 := by
  rw [show (photoGone header p w).notices = (photoLost header p w).notices from photoOver_onlyIn p.lost _ .notices rfl]
  exact h.photoLost_pending header p

theorem FaultReported.photoGone_out (header : Bool) (p : Photograph) (none : b.out = []) :
    (photoGone header p w).out = (if header = true then [] else [.cameraStop]) := by
  rw [show (photoGone header p w).out = (photoLost header p w).out from photoOver_onlyIn p.lost _ .out rfl]
  exact photoLost_out header p ((h.only .out rfl).trans none)

end Lost

theorem photoDrained_told (header : Bool) (p : Photograph) (ended : (photoLost header p w).port.photoOut = []) :
    photoDrained (photoLost header p w) = tellStationEnded .fault (some .memory) (photoGone header p w) := by
  have lost : (photoLost header p w).photo.current = some p.lost := by rw [photoLost_photo]
  unfold photoDrained
  rw [lost]
  exact (if_pos ⟨rfl, ended⟩).trans (photoFinish_eq lost)

theorem photoDrained_noWaits (header : Bool) (p : Photograph) (w : State) :
    ∀ y ∈ (photoDrained (photoLost header p w)).port.photoWait, y.requester ≠ .photo := by
  by_cases ended : (photoLost header p w).port.photoOut = []
  · rw [photoDrained_told header p ended]
    intro y mem
    have named : y.requester ∈ (tellStationEnded .fault (some .memory) (photoGone header p w)).port.photoWait.map (·.requester) :=
      List.mem_map_of_mem mem
    rw [(tellStationEnded_leaves _).photo,
      show (photoGone header p w).port = (photoLost header p w).port from photoOver_onlyIn p.lost _ .port rfl] at named
    obtain ⟨z, kept, same⟩ := List.mem_map.1 named
    rw [← same]
    exact photoLost_waits header p w z kept
  · rw [photoDrained_waits ended]
    exact photoLost_waits header p w

/-- A job that does not wait for the photograph is not told. -/
theorem FaultReported.losesUnowned (h : FaultReported b w) (header : Bool) (p : Photograph)
    (others : b.job = none ∨ b.scanning = true) (quiet : b.out = [])
    (told : u = tellStationEnded .fault (some .memory) (photoGone header p w)) :
    u.photo.current = none ∧ u.photo.rows = [] ∧ u.photo.stations = setStatus p.station .fault b.photo.stations ∧
    u.photo.state = (if b.camera.presence = .present ∧ b.camera.checkDue = false then .idle else .absent) ∧
    u.out = (if header = true then [] else [.cameraStop]) ∧ u.job = b.job ∧ u.staging = b.staging ∧ u.loss = b.loss ∧
    u.notices.pending = b.notices.pending ||| 32 := by
  have kept := h.photoGone_onlyIn header p
  have job : (photoGone header p w).job = b.job := kept .job rfl
  have scan (k : Job) (run : b.job = some k) : ∃ j, k = .scan j ∧ j.phase = .scanning := by
    rcases others with none_ | scans
    · cases none_.symm.trans run
    · obtain ⟨j, same, on⟩ := job_of_scanning scans
      exact ⟨j, Option.some.inj (run.symm.trans same), on⟩
  have told : u = photoGone header p w := by
    refine told.trans (tellStationEnded_others _ _ (fun a run => ?_) fun j run => .inl fun ends => ?_)
    · obtain ⟨_, photo, -⟩ := scan _ (job.symm.trans run)
      cases photo
    · obtain ⟨_, same, scans⟩ := scan _ (job.symm.trans run)
      cases same
      cases scans.symm.trans ends
  have photo := h.photoGone_photo header p
  rw [← told] at photo kept
  refine ⟨by rw [photo], by rw [photo], by rw [photo], by rw [photo], ?_, kept .job rfl, kept .staging rfl, kept .loss rfl, ?_⟩
  · rw [told]
    exact h.photoGone_out header p quiet
  · rw [told]
    exact h.photoGone_quiet header p

/-- A PHOTO job told, with no failure cause held before. -/
theorem FaultReported.losesStation (h : FaultReported b w) (header : Bool) (p : Photograph) (run : b.job = some (.photo a))
    (sure : a.cause = none) (early : a.lateCause = false) (sound : b.reader.writeBackLost = false)
    (told : u = tellStationEnded .fault (some .memory) (photoGone header p w)) :
    u.staging = b.staging ∧ u.loss = b.loss ∧
    (b.seals = true →
      u.job = some (.photo { a with done := a.done + 1, cause := some .memoryFault, sealWait := true }) ∧
      u.pages.mark = some ⟨b.staging.nextSeq, .abort, false⟩) ∧
    (b.seals = false → ∃ fs, HandsBack ⟨.memoryFault, a.index, fs⟩ u ∧
      fs = (0x28, leBytes 4 (a.done + 1)) :: statusFields 0 (setStatus p.station .fault b.photo.stations) ∧
      u.photo.stations = []) := by
  have kept := h.photoGone_onlyIn header p
  have lost := stationLost_onlyIn a (photoGone header p w)
  have ended : a.memoryEnded = { a with done := a.done + 1, cause := some .memoryFault } := by
    unfold PhotoJob.memoryEnded
    rw [sure]
    rfl
  have staging : (stationLost a (photoGone header p w)).staging = b.staging := (lost .staging rfl).trans (kept .staging rfl)
  have reader := stationWritten_reader (photoGone header p w) a.memoryEnded a .fault
  have seals : (stationLost a (photoGone header p w)).seals = b.seals := by
    unfold State.seals
    rw [stationLost_reader, reader.1, kept .reader rfl]
  have soundZ : (stationLost a (photoGone header p w)).reader.writeBackLost = false := by
    rw [stationLost_reader, reader.2, kept .reader rfl]
    exact sound
  have stations : (stationLost a (photoGone header p w)).photo.stations = setStatus p.station .fault b.photo.stations := by
    rw [lost .photo rfl, h.photoGone_photo header p]
  rw [tellStationEnded_photo _ _ ((kept .job rfl).trans run), stationEnded_memory] at told
  have ends := endPhotoJob_ends a.memoryEnded (stationLost a (photoGone header p w))
  have only : Acts (fields [.pages, .job, .photo, .port, .reader, .notices, .freeCount])
      (stationLost a (photoGone header p w)) u := by
    rw [told]
    apply_rules [endPhotoJob_acts, Acts.refl]
  rw [← told, seals, staging, stations, photoResult_eq, ended] at ends
  refine ⟨(only.only .staging rfl).trans staging,
    (only.only .loss rfl).trans ((lost .loss rfl).trans (kept .loss rfl)), fun sealed_ => ?_, fun plain => ?_⟩
  · obtain ⟨job, -, -, mark⟩ := ends.1 sealed_
    exact ⟨job, mark⟩
  · obtain ⟨hands, -, gone⟩ := ends.2 plain soundZ early
    exact ⟨_, hands, rfl, gone⟩

end Sys2Proof.Machine


/-! PROOFS. Errors, timeouts and early answers (R87, R104 to R106, R137, R138, R155, R159, R165, R167 to R169, R183). -/

namespace Sys2Proof.Machine

variable {s b w : State} {c : Instr} {q : Requester} {timeout : Bool} {place : Nat} {o : Outstanding} {m : Moment}
  {rest : List Outstanding} {purpose : Purpose}

/-! ## A fault of the oldest transfer -/

/-- By the command `c` a fault of a purpose is reported in the state `w`, the transfers `rest` of its requester still out. -/
structure FaultTold (c : Instr) (q : Requester) (purpose : Purpose) (rest : List Outstanding) (s b w : State) : Prop where
  event    : exec c s = .next (advancePages (requesterDrained q (faulted purpose w)))
  reported : FaultReported b w
  out      : w.port.outOf q = rest
  records  : w.port.recordWait = b.port.recordWait

theorem faultTold (event : exec c s = .next (faultAt q 0 timeout o b)) (who : o.transfer.requester = q)
    (awaits : OldestAwaits o.id b o.transfer rest) :
    FaultTold c q o.transfer.purpose rest s b (faultLeft q timeout o rest b) where
  event := event.trans (next_congr (faultAt_oldest who awaits))
  reported := ⟨faultLeft_onlyIn q timeout o rest b, faultLeft_pending q timeout o rest b⟩
  out := (faultLeft_port q timeout o rest b).1
  records := (faultLeft_port q timeout o rest b).2.1

theorem faultAt_latches (q : Requester) (place : Nat) (timeout : Bool) (o : Outstanding) (b : State) :
    (faultAt q place timeout o b).port.fault = ⟨some o.transfer.requester, o.transfer.write, timeout, o.transfer.addr⟩ ∧
    (faultAt q place timeout o b).notices.pending &&& 32 = 32 := by
  obtain ⟨fault, pending, -⟩ := faultLatched_latches q place timeout o b
  obtain ⟨kept, causes⟩ := settle_latched q (faultLatched q place timeout o b)
  rw [pending] at causes
  rw [faultAt_eq]
  exact ⟨kept.trans fault, bit_stays causes⟩

/-- Once a fault is reported the Page Manager goes on from what its requester made of it. -/
theorem FaultTold.chain (h : FaultTold c .chain purpose rest s b w) : exec c s = .next (advancePages (faulted purpose w)) :=
  h.event

theorem FaultTold.descriptor (h : FaultTold c .descriptor purpose rest s b w) (own : purpose = .descriptorRead ∨
    purpose = .takeField ∨ purpose = .takeState ∨ purpose = .sealField ∨ purpose = .sealState) :
    exec c s = .next (advancePages (descriptorFault w)) := by
  rw [h.event]
  rcases own with rfl | rfl | rfl | rfl | rfl <;> rfl

theorem FaultTold.record {p : Page} (h : FaultTold c .record purpose rest s b w)
    (own : purpose = .record ∨ purpose = .continuation) (current : b.pages.current = some p) :
    exec c s = .next (advancePages (abandonPage w)) := by
  have told : faulted purpose w = abandonPage w := by
    rcases own with rfl | rfl <;> rfl
  rw [h.event, told, abandonPage_eq (h.reported.currentPage current)]
  exact congrArg (fun u => Host.Outcome.next (advancePages u)) (endAbandon_again _)

theorem FaultTold.photo {p : Photograph} (h : FaultTold c .photo purpose rest s b w)
    (own : (∃ last, purpose = .row last) ∨ purpose = .photoHeader) (current : b.photo.current = some p) :
    exec c s = .next (advancePages (photoDrained (photoLost (decide (purpose = .photoHeader)) p w))) := by
  rw [h.event, faulted_photo own ((congrArg Photo.current (h.reported.only .photo rfl)).trans current)]
  rfl

/-! ## Every fault -/

section Faulted

variable (after : b = observe m s) (event : exec c s = .next (faultAt q place timeout o b))
include after event

theorem faults_of (at_ : (s.port.outOf q)[place]? = some o) : Faults c q timeout place o s b := by
  subst after
  constructor
  case latched => exact ⟨_, event, faultAt_latches ..⟩
  case behind =>
    intro late quiet
    exact ⟨_, event.trans (next_congr (faultAt_behind (s := observe m s) at_ late quiet)),
      faultLatched_outOf (s := observe m s) at_, (faultLatched_latches q place timeout o (observe m s)).2⟩
  case reader =>
    rintro rest rfl rfl who awaits own
    have h := faultTold event who awaits
    obtain ⟨state, cause, taken, result, list, pending, finished, raised, only⟩ := h.reported.halts
    refine ⟨_, h.chain.trans (next_congr (congrArg advancePages (faulted_reader ?_))), state, cause, taken, result, list,
      pending, finished, raised, only⟩
    rcases own with reads | reads | reads | reads | ⟨reads, none_⟩
    · exact .inl reads
    · exact .inr (.inl reads)
    · exact .inr (.inr (.inl reads))
    · exact .inr (.inr (.inr (.inl reads)))
    · exact .inr (.inr (.inr (.inr ⟨reads, (h.reported.only .job rfl).trans none_⟩)))
  case writeBack =>
    rintro rest rfl rfl who awaits own
    have h := faultTold event who awaits
    have chain := h.chain
    rw [own] at chain
    refine ⟨fun j run scans => ?_, fun job run still => ?_, fun a p run early exposes current => ?_,
      fun a run early armed plain => ?_⟩
    · obtain ⟨v, x, reader, pending, only, inline_, stops⟩ := h.reported.stopsScan run scans
      exact ⟨v, x, _, chain, reader, pending, only, inline_, stops⟩
    · obtain ⟨v, reader, pending, only, aborted⟩ := h.reported.abortsJob run still
      exact ⟨v, _, chain, reader, pending, only, aborted⟩
    · exact ⟨_, chain, h.reported.abortsExposure run early exposes current⟩
    · exact ⟨_, chain, h.reported.abortsArmed run early armed plain⟩
  case access =>
    rintro rest kind rfl rfl who awaits sound own
    have h := faultTold event who awaits
    exact ⟨_, h.chain, h.reported.failsAccess sound own⟩
  case descriptor =>
    rintro rest rfl rfl who awaits own
    have h := faultTold event who awaits
    exact ⟨_, h.descriptor own, h.reported.faultsPages⟩
  case record =>
    rintro rest p rfl rfl who awaits own current
    have h := faultTold event who awaits
    exact ⟨_, h.record own current, h.reported.withdrawsWrites current, fun sound => h.reported.tellsAbandonment current sound,
      fun onlyRecords => ⟨h.reported.losesPage current h.out h.records onlyRecords,
        fun _ _ _ entries issued waits count scans =>
          ⟨(h.reported.losesRecords current h.out h.records onlyRecords entries issued waits count scans).lines⟩⟩⟩
  case photo =>
    rintro rest p rfl rfl who awaits own current
    have h := faultTold event who awaits
    have ended := photoLost_drained (decide (o.transfer.purpose = .photoHeader)) p h.out
    refine ⟨_, h.photo own current, photoDrained_noWaits _ p _, fun more => ?_, fun none_ others => ?_,
      fun a none_ run sure early sound => ?_⟩
    · rw [photoDrained_waits (mt ended.1 more)]
      obtain ⟨photo, out, pending, only⟩ := h.reported.losesRows (decide (o.transfer.purpose = .photoHeader)) p rfl
      simp only [decide_eq_true_eq] at out
      exact ⟨photo, out, pending, only⟩
    · rw [photoDrained_told _ p (ended.2 none_)]
      have unowned := h.reported.losesUnowned (decide (o.transfer.purpose = .photoHeader)) p others rfl rfl
      simp only [decide_eq_true_eq] at unowned
      exact unowned
    · rw [photoDrained_told _ p (ended.2 none_)]
      exact h.reported.losesStation _ p run sure early sound rfl

end Faulted

/-! ## Answers that are none (R167, R170) -/

/-- A completion's command answers the oldest transfer of its requester, if of the purposes it names. -/
theorem completionsOf_completes (data : List Byte) (member : c ∈ completionsOf q m data) :
    ∃ which value, exec c s = .next (completeOldest q m.transfer which value (observe m s)) := by
  unfold completionsOf at member
  cases q with
  | chain =>
    simp only [List.mem_cons, List.not_mem_nil, or_false] at member
    rcases member with rfl | rfl | rfl | rfl | rfl | rfl | rfl | rfl | rfl | rfl | rfl | rfl | rfl | rfl | rfl | rfl | rfl <;>
      exact ⟨_, _, rfl⟩
  | descriptor =>
    simp only [List.mem_cons, List.not_mem_nil, or_false] at member
    rcases member with rfl | rfl | rfl | rfl | rfl <;> exact ⟨_, _, rfl⟩
  | record =>
    cases List.mem_singleton.1 member
    exact ⟨_, _, rfl⟩
  | photo =>
    simp only [List.mem_cons, List.not_mem_nil, or_false] at member
    rcases member with rfl | rfl <;> exact ⟨_, _, rfl⟩

section Answers

variable (m : Moment) (data : List Byte)

/-- What each command of an answer does where the transfer it names stands. -/
theorem exec_answers (here : (observe m s).port.placeOf q o.id = some place) :
    exec (.transferError m q o.id) s = .next (errsAt q place (observe m s)) ∧
    exec (.transferTimeout m q o.id) s = .next (timesOutAt q place (observe m s)) ∧
    exec (.heldAnswer m q o.id data) s = .next (holdAt q place data (observe m s)) :=
  ⟨next_congr (atTransfer_at here), next_congr (atTransfer_at here), next_congr (atTransfer_at here)⟩

theorem exec_answers_gone {id : Nat} (gone : (observe m s).port.placeOf q id = none) :
    exec (.transferError m q id) s = .next (observe m s) ∧ exec (.transferTimeout m q id) s = .next (observe m s) ∧
    exec (.heldAnswer m q id data) s = .next (observe m s) :=
  ⟨next_congr (atTransfer_gone gone), next_congr (atTransfer_gone gone), next_congr (atTransfer_gone gone)⟩

theorem holdAt_held (at_ : (s.port.outOf q)[place]? = some o) (awaits : s.port.awaitsAt q place = some o)
    (behind : 1 ≤ place) : holdAt q place data s = { s with
      port := s.port.setOut q ((s.port.outOf q).set place ⟨o.id, o.transfer, none, .held data⟩),
      out := if o.transfer.write then s.out ++ [.inMemory o.transfer] else s.out } := by
  rw [holdAt_behind awaits behind, answerAt_set at_]
  unfold landed
  split <;> rfl

end Answers

/-- Settles O56: every fault is latched; the oldest transfer's is reported and does what its requester's rules say, clause
by clause of `Faults`; an answer that comes too late, too early or under another number finds no transfer to answer. -/
theorem faultsAndHeldAnswers : Obligations.FaultsAndHeldAnswers := by
  refine ⟨fun m s b q place o data after at_ first => ?_, fun m s b q id data after gone => ?_,
    fun m s b q data after other c member => ?_⟩
  all_goals subst after
  · obtain ⟨errs, timesOut, holds⟩ := exec_answers m data (placeOf_first (x := (observe m s).port) at_ first)
    refine ⟨fun awaits => ?_, fun told => ?_⟩
    · have here : (observe m s).port.awaitsAt q place = some o := awaitsAt_awaited at_ awaits
      refine ⟨faults_of rfl (errs.trans (next_congr (errsAt_awaited here))) at_, fun e timer due => ?_, fun waits => ?_,
        fun behind => ?_⟩
      · exact faults_of rfl (timesOut.trans (next_congr (timesOutAt_due here timer due))) at_
      · exact timesOut.trans (next_congr (timesOutAt_waits here waits))
      · exact holds.trans (next_congr (holdAt_held data (s := observe m s) at_ here behind))
    · have none_ : (observe m s).port.awaitsAt q place = none := awaitsAt_answered at_ told
      exact ⟨errs.trans (next_congr (errsAt_none none_)), timesOut.trans (next_congr (timesOutAt_none none_)),
        holds.trans (next_congr (holdAt_none none_))⟩
  · exact exec_answers_gone m data (placeOf_none (x := (observe m s).port) gone)
  · obtain ⟨which, value, event⟩ := completionsOf_completes (s := s) data member
    exact event.trans (next_congr (completeOldest_unnamed (s := observe m s) other))

end Sys2Proof.Machine
